-- ==== Sys2Proof/Word.lean ====
section
/-! DEFINITION. The word types of the ON-7 (spec/00 R3): bytes, the 16-, 32- and 64-bit words, the 2,048-bit vector. -/

namespace Sys2Proof

abbrev Byte := BitVec 8
abbrev W16 := BitVec 16
abbrev W32 := BitVec 32
/-- A 64-bit word: an s register, a system register, a location (R3, R14, R218). -/
abbrev Word := BitVec 64
/-- A vector register (R14). -/
abbrev Vec := BitVec 2048

/-- Two's complement value of a word's low n bits. -/
abbrev sxNat (n v : Nat) : Int := if v % 2 ^ n < 2 ^ (n - 1) then ((v % 2 ^ n : Nat) : Int) else ((v % 2 ^ n : Nat) : Int) - 2 ^ n

end Sys2Proof
end

