-- ==== Sys2Proof/Syntax.lean ====
section
/-! DEFINITION. Every row of spec/opcode_table.json as a constructor of Instr: the syllables of the
eight slots (spec/03 R50 to R55), the moves of the bank units (spec/20 R320 to R322) and the events without
an encoding (spec/95). Operand fields have the types of spec/03 R44 and R46. -/

namespace Sys2Proof

/-- The guard field G of a syllable (R43): bit 3 inverts, bits 2:0 name the predicate. -/
abbrev Guard := BitVec 4
abbrev SReg := BitVec 6
abbrev PReg := BitVec 3
abbrev VReg := BitVec 5
abbrev HReg := BitVec 4
abbrev CbReg := BitVec 5
abbrev TbReg := BitVec 4
abbrev LcReg := BitVec 2
abbrev TlReg := BitVec 4

/-- The ten number formats (R46). -/
inductive Fmt where
  | f32 | bf16 | f16 | e4m3 | e5m2 | mk8 | i8 | i16 | i32 | i4
deriving DecidableEq, Repr

/-- The rounding modes (R46, R91). -/
inductive Rnd where
  | rne | rtz | rdn | rup | sto
deriving DecidableEq, Repr

/-- The scope codes (R46). -/
inductive Scope where
  | core | bulk | dev | sys
deriving DecidableEq, Repr

/-- An immediate of the SI format: the field I, or the extension word (R47, R65). -/
inductive Imm where
  | short (i : BitVec 7)
  | ext (w : W32)
deriving DecidableEq, Repr

/-- The second operand of a compare (R69). -/
inductive CmpOpnd where
  | reg (b : SReg)
  | imm (i : BitVec 6)
  | ext (w : W32)
deriving DecidableEq, Repr

/-- The trip count of loopi (R77). -/
inductive Count where
  | short (c : BitVec 6)
  | ext (w : W32)
deriving DecidableEq, Repr

/-- The step code T of a memory operation (R22); code 6 carries the extension word. -/
inductive Step where
  | zero | plusZ | minusZ | plus2Z | plus4Z | plus8Z
  | bytes (w : W32)
deriving DecidableEq, Repr

/-- The extension word of a VR syllable (R47). -/
structure VExt where
  rnd : Rnd
  c : VReg
  sf : Fmt
  imm : BitVec 20
deriving DecidableEq, Repr

/-- A tail mode of an interpolation table (R124). -/
inductive TailMode where
  | clamp | ident | zero | const
deriving DecidableEq, Repr

/-- The row-step mode Y of a beat (R175). -/
inductive RowStep where
  | next | hold | rewind
deriving DecidableEq, Repr

/-- What tlget reads (R291). -/
inductive TlSel where
  | count | err | errc
deriving DecidableEq, Repr

/-- The source ports of the move machine (R321). -/
inductive MoveSrc where
  | zero | kel | qel | acc | lc | acc1 | addR | mulR | kidx | oidx
  | imm (v : W16)
deriving DecidableEq, Repr

/-- A register of the management space (R355) or of the hub space (R363), by its byte offset. -/
structure RegAddr where
  vf : Option Nat := none
  off : Nat := 0
deriving DecidableEq, Repr

/-- A place of a store that the scrubber or an error names (R214 to R216). -/
inductive StorePlace where
  | scratch (c off : Nat)
  | steep (c off : Nat)
  | tile (c slot byte : Nat)
  | accum (c tile : Nat)
  | line (b addr : Nat)
  | memory (pa : Nat)
deriving DecidableEq, Repr

/-- A report to the management core (R341): its reason, the core or bulkhead it comes from and the context; for a double fault TRAPC,
TRAPA and TRAPD are info, adr and data (R336). -/
structure FaultNote where
  reason : Nat
  source : Nat
  ctx : Nat
  info : Nat
  adr : Nat := 0
  data : Nat := 0
deriving DecidableEq, Repr

/-- An incoming request over a Scair port (R382). -/
structure PeerReq where
  port : Nat
  srcModule : Nat
  part : Nat
  write : Bool
  atomic : Option Nat
  addr : Nat
  data : List Byte
  fill : Bool
  poison : Bool
  seq : Nat := 0
deriving DecidableEq, Repr

/-- The instructions and events of the ON-7, one constructor per row of the opcode table. -/
inductive Instr where
  /-- NOP (R20): Opcode 0x00 in SA, SB or BR does nothing in that slot. -/
  | nop
  /-- IDLE (R20): Opcode 0x00 in a sticky slot replaces the installed operation so that the slot does nothing. -/
  | idle
  /-- ADD (R62): s(D) := a + b, in the 64-bit form or the .w form. -/
  | add (g : Guard) (d a b : SReg) (k : Bool)
  /-- SUB (R62): s(D) := a − b. -/
  | sub (g : Guard) (d a b : SReg) (k : Bool)
  /-- MUL (R62): s(D) := low bits of a × b. -/
  | mul (g : Guard) (d a b : SReg) (k : Bool)
  /-- MULHI (R62): s(D) := high half of the signed product. -/
  | mulhi (g : Guard) (d a b : SReg) (k : Bool)
  /-- MULHZ (R62): s(D) := high half of the unsigned product. -/
  | mulhz (g : Guard) (d a b : SReg) (k : Bool)
  /-- DIV (R63): Signed division truncating toward zero; never traps. -/
  | div (g : Guard) (d a b : SReg) (k : Bool)
  /-- DIVZ (R63): Unsigned division; never traps. -/
  | divz (g : Guard) (d a b : SReg) (k : Bool)
  /-- REM (R63): Signed remainder, taking the sign of the dividend. -/
  | rem (g : Guard) (d a b : SReg) (k : Bool)
  /-- REMZ (R63): Unsigned remainder. -/
  | remz (g : Guard) (d a b : SReg) (k : Bool)
  /-- AND (R62): Bitwise and of a and b. -/
  | and (g : Guard) (d a b : SReg)
  /-- OR (R62): Bitwise or of a and b. -/
  | or (g : Guard) (d a b : SReg)
  /-- XOR (R62): Bitwise exclusive-or of a and b. -/
  | xor (g : Guard) (d a b : SReg)
  /-- ANDN (R62): s(D) := a and not b. -/
  | andn (g : Guard) (d a b : SReg)
  /-- SHL (R64): Shifts left by s(B) bits, filling with zeros. -/
  | shl (g : Guard) (d a b : SReg) (k : Bool)
  /-- SHR (R64): Logical shift right by s(B). -/
  | shr (g : Guard) (d a b : SReg) (k : Bool)
  /-- SRA (R64): Arithmetic shift right by s(B). -/
  | sra (g : Guard) (d a b : SReg) (k : Bool)
  /-- ROL (R64): Rotates left by s(B). -/
  | rol (g : Guard) (d a b : SReg) (k : Bool)
  /-- MIN (R62): Signed minimum of a and b. -/
  | min (g : Guard) (d a b : SReg) (k : Bool)
  /-- MAX (R62): Signed maximum of a and b. -/
  | max (g : Guard) (d a b : SReg) (k : Bool)
  /-- MINZ (R62): Unsigned minimum of a and b. -/
  | minz (g : Guard) (d a b : SReg) (k : Bool)
  /-- MAXZ (R62): Unsigned maximum of a and b. -/
  | maxz (g : Guard) (d a b : SReg) (k : Bool)
  /-- ADDI (R65): s(D) := a + immediate. -/
  | addi (g : Guard) (d a : SReg) (m : Imm)
  /-- ANDI (R65): s(D) := a and immediate. -/
  | andi (g : Guard) (d a : SReg) (m : Imm)
  /-- ORI (R65): s(D) := a or immediate. -/
  | ori (g : Guard) (d a : SReg) (m : Imm)
  /-- XORI (R65): s(D) := a xor immediate. -/
  | xori (g : Guard) (d a : SReg) (m : Imm)
  /-- SHLI (R65): Shifts left by an immediate from 0 to 63. -/
  | shli (g : Guard) (d a : SReg) (m : Imm)
  /-- SHRI (R65): Logical shift right by an immediate. -/
  | shri (g : Guard) (d a : SReg) (m : Imm)
  /-- SRAI (R65): Arithmetic shift right by an immediate. -/
  | srai (g : Guard) (d a : SReg) (m : Imm)
  /-- ADDI_W (R65): 32-bit add of an immediate, with .w write-back. -/
  | addiW (g : Guard) (d a : SReg) (m : Imm)
  /-- SHLI_W (R65): 32-bit shift left by an immediate from 0 to 31. -/
  | shliW (g : Guard) (d a : SReg) (i : BitVec 7)
  /-- SHRI_W (R65): 32-bit logical shift right by an immediate. -/
  | shriW (g : Guard) (d a : SReg) (i : BitVec 7)
  /-- SRAI_W (R65): 32-bit arithmetic shift right by an immediate. -/
  | sraiW (g : Guard) (d a : SReg) (i : BitVec 7)
  /-- CMPEQ (R69): Sets pQ to (a = b) and pQ2 to its complement. -/
  | cmpeq (g : Guard) (q q2 : PReg) (a : SReg) (o : CmpOpnd)
  /-- CMPNE (R69): Sets pQ to (a ≠ b). -/
  | cmpne (g : Guard) (q q2 : PReg) (a : SReg) (o : CmpOpnd)
  /-- CMPLT (R69): Sets pQ to a signed a < b. -/
  | cmplt (g : Guard) (q q2 : PReg) (a : SReg) (o : CmpOpnd)
  /-- CMPLE (R69): Sets pQ to a signed a ≤ b. -/
  | cmple (g : Guard) (q q2 : PReg) (a : SReg) (o : CmpOpnd)
  /-- CMPLTZ (R69): Sets pQ to an unsigned a < b. -/
  | cmpltz (g : Guard) (q q2 : PReg) (a : SReg) (o : CmpOpnd)
  /-- CMPLEZ (R69): Sets pQ to an unsigned a ≤ b. -/
  | cmplez (g : Guard) (q q2 : PReg) (a : SReg) (o : CmpOpnd)
  /-- CMPEQ_W (R69): 32-bit form of cmpeq. -/
  | cmpeqW (g : Guard) (q q2 : PReg) (a : SReg) (o : CmpOpnd)
  /-- CMPNE_W (R69): 32-bit form of cmpne. -/
  | cmpneW (g : Guard) (q q2 : PReg) (a : SReg) (o : CmpOpnd)
  /-- CMPLT_W (R69): 32-bit form of cmplt. -/
  | cmpltW (g : Guard) (q q2 : PReg) (a : SReg) (o : CmpOpnd)
  /-- CMPLE_W (R69): 32-bit form of cmple. -/
  | cmpleW (g : Guard) (q q2 : PReg) (a : SReg) (o : CmpOpnd)
  /-- CMPLTZ_W (R69): 32-bit form of cmpltz. -/
  | cmpltzW (g : Guard) (q q2 : PReg) (a : SReg) (o : CmpOpnd)
  /-- CMPLEZ_W (R69): 32-bit form of cmplez. -/
  | cmplezW (g : Guard) (q q2 : PReg) (a : SReg) (o : CmpOpnd)
  /-- PAND (R70): p(Q) := x and y of the optionally inverted predicates. -/
  | pand (g : Guard) (q pa pb : PReg) (na nb : Bool)
  /-- POR (R70): p(Q) := x or y. -/
  | por (g : Guard) (q pa pb : PReg) (na nb : Bool)
  /-- PXOR (R70): p(Q) := x xor y. -/
  | pxor (g : Guard) (q pa pb : PReg) (na nb : Bool)
  /-- PNOT (R70): p(Q) := not x. -/
  | pnot (g : Guard) (q pa : PReg) (na : Bool)
  /-- PSET (R71): Writes predicates p1–p7 from s(A) under the mask in s(B). -/
  | pset (g : Guard) (a b : SReg)
  /-- PGET (R71): s(D) := the eight predicates in bits 7:0. -/
  | pget (g : Guard) (d : SReg)
  /-- CLZ (R62): Counts leading zero bits. -/
  | clz (g : Guard) (d a : SReg) (k : Bool)
  /-- CTZ (R62): Counts trailing zero bits. -/
  | ctz (g : Guard) (d a : SReg) (k : Bool)
  /-- POPC (R62): Counts one bits. -/
  | popc (g : Guard) (d a : SReg) (k : Bool)
  /-- BEXT (R67): Extracts a bit field whose position and width come from s(B). -/
  | bext (g : Guard) (d a b : SReg)
  /-- BINS (R67): Inserts the low bits of s(A) into a bit field of s(D). -/
  | bins (g : Guard) (d a b : SReg)
  /-- SEXT (R67): Sign-extends s(A) from width k. -/
  | sext (g : Guard) (d a : SReg) (i : BitVec 7)
  /-- ZEXT (R67): Clears the bits of s(A) at and above k. -/
  | zext (g : Guard) (d a : SReg) (i : BitVec 7)
  /-- MOV (R66): s(D) := s(A). -/
  | mov (g : Guard) (d a : SReg)
  /-- LI (R66): Loads a sign-extended immediate into s(D). -/
  | li (g : Guard) (d : SReg) (m : Imm)
  /-- LIH (R66): s(D) := immediate × 2^32 + low half of s(A). -/
  | lih (g : Guard) (d a : SReg) (m : Imm)
  /-- SYSR (R72): Reads system register N into s(S). -/
  | sysr (g : Guard) (r : SReg) (n : BitVec 13)
  /-- SYSW (R72): Writes s(S) to system register N, field by field. -/
  | sysw (g : Guard) (r : SReg) (n : BitVec 13)
  /-- SYSX (R72): Exchanges s(S) with system register N. -/
  | sysx (g : Guard) (r : SReg) (n : BitVec 13)
  /-- B (R74): Branches by a word offset. -/
  | b (g : Guard) (o : BitVec 19)
  /-- BL (R74): Branches and writes the fall-through address into s63. -/
  | bl (g : Guard) (o : BitVec 19)
  /-- BR (R75): Transfers to the address in s(A). -/
  | br (g : Guard) (a : SReg)
  /-- CALL (R75): Writes the fall-through address into s(D) and transfers to s(A). -/
  | call (g : Guard) (d a : SReg)
  /-- RET (R75): Transfers to s(A) and is counted as a return. -/
  | ret (g : Guard) (a : SReg)
  /-- DISP (R80): Selects a jump-table entry by bucket thresholds and transfers to it. -/
  | disp (g : Guard) (a b : SReg)
  /-- LOOP (R77): Starts a zero-overhead loop whose count comes from a register. -/
  | loop (g : Guard) (l : LcReg) (c : SReg) (e : BitVec 11)
  /-- LOOPI (R77): Starts a loop with an immediate count. -/
  | loopi (g : Guard) (l : LcReg) (c : Count) (e : BitVec 11)
  /-- YIELD (R83): Ends the run and re-queues the continuation at its fall-through address. -/
  | yield (g : Guard)
  /-- SUSP (R83): Ends the run and saves the continuation as suspended. -/
  | susp (g : Guard)
  /-- TEND (R83): Ends the continuation as done. -/
  | tend (g : Guard)
  /-- HALT (R83): Ends the continuation and stops the core. -/
  | halt (g : Guard)
  /-- IWAIT (R350): Drains the core and waits until IRQ and the mask have a bit in common. -/
  | iwait (g : Guard) (d : SReg) (i : BitVec 7)
  /-- TRAP (R348): Raises trap code 4 with cause k. -/
  | trap (g : Guard) (i : BitVec 7)
  /-- BRK (R348): Raises breakpoint code 3, or a debug freeze. -/
  | brk (g : Guard) (i : BitVec 7)
  /-- ERET (R349): Ends service and resumes according to RES, replaying late writes. -/
  | eret (g : Guard)
  /-- LDB (R232): Loads a byte, sign-extended. -/
  | ldb (g : Guard) (d : SReg) (h : HReg) (o : SReg) (t : Step)
  /-- LDH (R232): Loads 2 bytes, sign-extended. -/
  | ldh (g : Guard) (d : SReg) (h : HReg) (o : SReg) (t : Step)
  /-- LDW (R232): Loads 4 bytes, sign-extended. -/
  | ldw (g : Guard) (d : SReg) (h : HReg) (o : SReg) (t : Step)
  /-- LDD (R232): Loads 8 bytes. -/
  | ldd (g : Guard) (d : SReg) (h : HReg) (o : SReg) (t : Step)
  /-- LDBZ (R232): Loads a byte, zero-extended. -/
  | ldbz (g : Guard) (d : SReg) (h : HReg) (o : SReg) (t : Step)
  /-- LDHZ (R232): Loads 2 bytes, zero-extended. -/
  | ldhz (g : Guard) (d : SReg) (h : HReg) (o : SReg) (t : Step)
  /-- LDWZ (R232): Loads 4 bytes, zero-extended. -/
  | ldwz (g : Guard) (d : SReg) (h : HReg) (o : SReg) (t : Step)
  /-- STB (R232): Stores the low byte of s(D). -/
  | stb (g : Guard) (d : SReg) (h : HReg) (o : SReg) (t : Step)
  /-- STH (R232): Stores the low 2 bytes. -/
  | sth (g : Guard) (d : SReg) (h : HReg) (o : SReg) (t : Step)
  /-- STW (R232): Stores the low 4 bytes. -/
  | stw (g : Guard) (d : SReg) (h : HReg) (o : SReg) (t : Step)
  /-- STD (R232): Stores 8 bytes. -/
  | std (g : Guard) (d : SReg) (h : HReg) (o : SReg) (t : Step)
  /-- VLD (R232): Loads 256 bytes into a vector register. -/
  | vld (g : Guard) (d : VReg) (h : HReg) (o : SReg) (t : Step)
  /-- VST (R232): Stores a vector register's 256 bytes. -/
  | vst (g : Guard) (d : VReg) (h : HReg) (o : SReg) (t : Step)
  /-- VLDB (R232): Broadcasts an 8-byte word into every 64-bit word of vD. -/
  | vldb (g : Guard) (d : VReg) (h : HReg) (o : SReg) (t : Step)
  /-- CBPUT (R234): Produces one buffer element from a vector register. -/
  | cbput (g : Guard) (d : VReg) (n : CbReg)
  /-- CBGET (R234): Consumes one buffer element into a vector register. -/
  | cbget (g : Guard) (d : VReg) (n : CbReg)
  /-- LDC (R233): Produces one buffer element from memory. -/
  | ldc (g : Guard) (d : CbReg) (h : HReg) (o : SReg) (t : Step)
  /-- STC (R233): Consumes one buffer element and writes it to memory. -/
  | stc (g : Guard) (d : CbReg) (h : HReg) (o : SReg) (t : Step)
  /-- CBADVP (R235): Produces n elements already in place in the ring. -/
  | cbadvp (g : Guard) (d : CbReg) (o : SReg)
  /-- CBADVC (R235): Consumes n elements without reading them. -/
  | cbadvc (g : Guard) (d : CbReg) (o : SReg)
  /-- CBCFG (R236): Loads a cb register from a scratchpad descriptor. -/
  | cbcfg (g : Guard) (d : CbReg) (o : SReg) (t : Step)
  /-- WLD4 (R237): Widens 64 bytes of INT4 elements into BF16 lanes. -/
  | wld4 (g : Guard) (d : VReg) (h : HReg) (o : SReg) (t : Step)
  /-- WLD8 (R237): Widens 128 bytes of 8-bit elements into BF16 lanes. -/
  | wld8 (g : Guard) (d : VReg) (h : HReg) (o : SReg) (t : Step)
  /-- LDFE (R238): Waits for a full word, reads it and marks it empty. -/
  | ldfe (g : Guard) (d : SReg) (h : HReg) (o : SReg) (t : Step)
  /-- STEF (R238): Waits for an empty word, writes it and marks it full. -/
  | stef (g : Guard) (d : SReg) (h : HReg) (o : SReg) (t : Step)
  /-- LDFF (R238): Waits for a full word and reads it, leaving the bit full. -/
  | ldff (g : Guard) (d : SReg) (h : HReg) (o : SReg) (t : Step)
  /-- STFF (R238): Writes a word and marks it full without waiting. -/
  | stff (g : Guard) (d : SReg) (h : HReg) (o : SReg) (t : Step)
  /-- FESET (R238): Marks a word full. -/
  | feset (g : Guard) (h : HReg) (o : SReg) (t : Step)
  /-- FECLR (R238): Marks a word empty. -/
  | feclr (g : Guard) (h : HReg) (o : SReg) (t : Step)
  /-- LDACQ (R239): 64-bit load that acquires at the given scope. -/
  | ldacq (g : Guard) (d : SReg) (h : HReg) (o : SReg) (w : Scope) (x : Option W32)
  /-- STREL (R239): 64-bit store that releases at the given scope. -/
  | strel (g : Guard) (d : SReg) (h : HReg) (o : SReg) (w : Scope) (x : Option W32)
  /-- FENCE (R240): Waits for earlier reads, then holds back later writes until earlier accesses are performed. -/
  | fence (g : Guard) (w : Scope)
  /-- AMOADD_W (R241): 32-bit atomic add; returns the old value. -/
  | amoaddW (g : Guard) (d : SReg) (h : HReg) (o : SReg) (w : Scope) (q : Bool) (x : Option W32)
  /-- AMOADD_D (R241): 64-bit atomic add. -/
  | amoaddD (g : Guard) (d : SReg) (h : HReg) (o : SReg) (w : Scope) (q : Bool) (x : Option W32)
  /-- AMOAND_W (R241): 32-bit atomic and. -/
  | amoandW (g : Guard) (d : SReg) (h : HReg) (o : SReg) (w : Scope) (q : Bool) (x : Option W32)
  /-- AMOAND_D (R241): 64-bit atomic and. -/
  | amoandD (g : Guard) (d : SReg) (h : HReg) (o : SReg) (w : Scope) (q : Bool) (x : Option W32)
  /-- AMOOR_W (R241): 32-bit atomic or. -/
  | amoorW (g : Guard) (d : SReg) (h : HReg) (o : SReg) (w : Scope) (q : Bool) (x : Option W32)
  /-- AMOOR_D (R241): 64-bit atomic or. -/
  | amoorD (g : Guard) (d : SReg) (h : HReg) (o : SReg) (w : Scope) (q : Bool) (x : Option W32)
  /-- AMOXOR_W (R241): 32-bit atomic xor. -/
  | amoxorW (g : Guard) (d : SReg) (h : HReg) (o : SReg) (w : Scope) (q : Bool) (x : Option W32)
  /-- AMOXOR_D (R241): 64-bit atomic xor. -/
  | amoxorD (g : Guard) (d : SReg) (h : HReg) (o : SReg) (w : Scope) (q : Bool) (x : Option W32)
  /-- AMOMIN_W (R241): 32-bit atomic signed minimum. -/
  | amominW (g : Guard) (d : SReg) (h : HReg) (o : SReg) (w : Scope) (q : Bool) (x : Option W32)
  /-- AMOMIN_D (R241): 64-bit atomic signed minimum. -/
  | amominD (g : Guard) (d : SReg) (h : HReg) (o : SReg) (w : Scope) (q : Bool) (x : Option W32)
  /-- AMOMAX_W (R241): 32-bit atomic signed maximum. -/
  | amomaxW (g : Guard) (d : SReg) (h : HReg) (o : SReg) (w : Scope) (q : Bool) (x : Option W32)
  /-- AMOMAX_D (R241): 64-bit atomic signed maximum. -/
  | amomaxD (g : Guard) (d : SReg) (h : HReg) (o : SReg) (w : Scope) (q : Bool) (x : Option W32)
  /-- AMOMINZ_W (R241): 32-bit atomic unsigned minimum. -/
  | amominzW (g : Guard) (d : SReg) (h : HReg) (o : SReg) (w : Scope) (q : Bool) (x : Option W32)
  /-- AMOMINZ_D (R241): 64-bit atomic unsigned minimum. -/
  | amominzD (g : Guard) (d : SReg) (h : HReg) (o : SReg) (w : Scope) (q : Bool) (x : Option W32)
  /-- AMOMAXZ_W (R241): 32-bit atomic unsigned maximum. -/
  | amomaxzW (g : Guard) (d : SReg) (h : HReg) (o : SReg) (w : Scope) (q : Bool) (x : Option W32)
  /-- AMOMAXZ_D (R241): 64-bit atomic unsigned maximum. -/
  | amomaxzD (g : Guard) (d : SReg) (h : HReg) (o : SReg) (w : Scope) (q : Bool) (x : Option W32)
  /-- AMOSWP_W (R241): 32-bit atomic swap. -/
  | amoswpW (g : Guard) (d : SReg) (h : HReg) (o : SReg) (w : Scope) (q : Bool) (x : Option W32)
  /-- AMOSWP_D (R241): 64-bit atomic swap. -/
  | amoswpD (g : Guard) (d : SReg) (h : HReg) (o : SReg) (w : Scope) (q : Bool) (x : Option W32)
  /-- AMOCAS_W (R242): 32-bit compare-and-swap on the pair s(D), s(D+1). -/
  | amocasW (g : Guard) (d : BitVec 5) (h : HReg) (o : SReg) (w : Scope) (q : Bool) (x : Option W32)
  /-- AMOCAS_D (R242): 64-bit compare-and-swap. -/
  | amocasD (g : Guard) (d : BitVec 5) (h : HReg) (o : SReg) (w : Scope) (q : Bool) (x : Option W32)
  /-- AMOFADD_W (R243): Atomic FP32 add that never combines. -/
  | amofaddW (g : Guard) (d : SReg) (h : HReg) (o : SReg) (w : Scope) (q : Bool) (x : Option W32)
  /-- TKTWAIT (R246): Parks at the sync engine until now-serving reaches the ticket, then acquires. -/
  | tktwait (g : Guard) (d : SReg) (h : HReg) (o : SReg)
  /-- TKTDONE (R246): Releases, then advances now-serving by 1. -/
  | tktdone (g : Guard) (h : HReg) (o : SReg)
  /-- XLAT (R210): Makes a handle pending and starts its translation. -/
  | xlat (g : Guard) (d : HReg) (a : SReg) (kind : Bool)
  /-- HINV (R212): Invalidates a handle and advances its GEN. -/
  | hinv (g : Guard) (d : HReg)
  /-- HGET (R249): Returns a selected field of a handle. -/
  | hget (g : Guard) (d : SReg) (a : HReg) (sel : BitVec 2)
  /-- HCHK (R248): Waits while a handle is pending, then returns its state code. -/
  | hchk (g : Guard) (d : SReg) (a : HReg)
  /-- SCLD (R247): Sail-wheel load, applied in wheel order. -/
  | scld (g : Guard) (d : SReg) (h : HReg) (o : SReg) (w : Scope)
  /-- SCST (R247): Sail-wheel store. -/
  | scst (g : Guard) (d : SReg) (h : HReg) (o : SReg) (w : Scope)
  /-- SCADD_W (R247): 32-bit sail-wheel add. -/
  | scaddW (g : Guard) (d : SReg) (h : HReg) (o : SReg) (w : Scope)
  /-- SCADD_D (R247): 64-bit sail-wheel add. -/
  | scaddD (g : Guard) (d : SReg) (h : HReg) (o : SReg) (w : Scope)
  /-- WBINV (R250): Writes back a line if it is dirty and drops every copy of it. -/
  | wbinv (g : Guard) (h : HReg) (o : SReg)
  /-- PFL2 (R250): Asks the home of a line to fetch it. -/
  | pfl2 (g : Guard) (h : HReg) (o : SReg)
  /-- VADD (R111): Lane-wise add. -/
  | vadd (g : Guard) (d a b : VReg) (f : Fmt) (x : Option VExt)
  /-- VSUB (R111): Lane-wise subtract. -/
  | vsub (g : Guard) (d a b : VReg) (f : Fmt) (x : Option VExt)
  /-- VMUL (R111): Lane-wise multiply. -/
  | vmul (g : Guard) (d a b : VReg) (f : Fmt) (x : Option VExt)
  /-- VFMA (R111): Lane-wise a × b + c with one rounding. -/
  | vfma (g : Guard) (d a b : VReg) (f : Fmt) (x : Option VExt)
  /-- VFMS (R111): Lane-wise a × b − c with one rounding. -/
  | vfms (g : Guard) (d a b : VReg) (f : Fmt) (x : Option VExt)
  /-- VABS (R111): Lane-wise absolute value. -/
  | vabs (g : Guard) (d a b : VReg) (f : Fmt) (x : Option VExt)
  /-- VNEG (R111): Lane-wise negation. -/
  | vneg (g : Guard) (d a b : VReg) (f : Fmt) (x : Option VExt)
  /-- VMIN (R111): Lane-wise minimum. -/
  | vmin (g : Guard) (d a b : VReg) (f : Fmt) (x : Option VExt)
  /-- VMAX (R111): Lane-wise maximum. -/
  | vmax (g : Guard) (d a b : VReg) (f : Fmt) (x : Option VExt)
  /-- VAND (R112): Bitwise and of two vectors. -/
  | vand (g : Guard) (d a b : VReg)
  /-- VOR (R112): Bitwise or of two vectors. -/
  | vor (g : Guard) (d a b : VReg)
  /-- VXOR (R112): Bitwise xor of two vectors. -/
  | vxor (g : Guard) (d a b : VReg)
  /-- VSHL (R112): Lane-wise shift left. -/
  | vshl (g : Guard) (d a b : VReg) (f : Fmt)
  /-- VSHR (R112): Lane-wise logical shift right. -/
  | vshr (g : Guard) (d a b : VReg) (f : Fmt)
  /-- VSRA (R112): Lane-wise arithmetic shift right. -/
  | vsra (g : Guard) (d a b : VReg) (f : Fmt)
  /-- VCMPEQ (R113): Lane-wise equality mask. -/
  | vcmpeq (g : Guard) (d a b : VReg) (f : Fmt) (x : Option VExt)
  /-- VCMPLT (R113): Lane-wise less-than mask. -/
  | vcmplt (g : Guard) (d a b : VReg) (f : Fmt) (x : Option VExt)
  /-- VCMPLE (R113): Lane-wise less-or-equal mask. -/
  | vcmple (g : Guard) (d a b : VReg) (f : Fmt) (x : Option VExt)
  /-- VSEL (R113): Selects lanes of vA or vB by a mask. -/
  | vsel (g : Guard) (d a b : VReg) (f : Fmt) (x : Option VExt)
  /-- VMOV (R114): Copies a vector register. -/
  | vmov (g : Guard) (d a : VReg)
  /-- VZERO (R114): Sets a vector register to zero. -/
  | vzero (g : Guard) (d : VReg)
  /-- VIOTA (R114): Sets lane i to base + i. -/
  | viota (g : Guard) (d a b : VReg) (f : Fmt) (x : Option VExt)
  /-- VCVT (R115): Converts elements between formats, part by part. -/
  | vcvt (g : Guard) (d a b : VReg) (f : Fmt) (x : Option VExt)
  /-- VPACK (R116): Converts two vectors to a half-width format. -/
  | vpack (g : Guard) (d a b : VReg) (f : Fmt) (x : Option VExt)
  /-- VUNPK (R116): Widens even or odd elements. -/
  | vunpk (g : Guard) (d a b : VReg) (f : Fmt) (x : Option VExt)
  /-- VQUANT (R118): Builds a block-scaled block vector. -/
  | vquant (g : Guard) (d a b : VReg) (f : Fmt) (x : Option VExt)
  /-- VDEQUANT (R119): Decodes a block vector with its scale. -/
  | vdequant (g : Guard) (d a b : VReg) (f : Fmt) (x : Option VExt)
  /-- VTLD (R123): Consumes 12 buffer elements and schedules a table replacement. -/
  | vtld (g : Guard) (t : BitVec 2) (n : CbReg)
  /-- VTCFG (R124): Sets a table's range and tail modes. -/
  | vtcfg (g : Guard) (t : BitVec 2) (a : VReg) (lmode umode : TailMode) (lo : BitVec 16) (q : BitVec 4)
  /-- VTAB (R125): Interpolates each lane through a table. -/
  | vtab (g : Guard) (d a b : VReg) (f : Fmt) (x : Option VExt)
  /-- VREDSUM (R120): Sums the lanes into lane 0. -/
  | vredsum (g : Guard) (d a b : VReg) (f : Fmt) (x : Option VExt)
  /-- VREDMAX (R120): Maximum of the lanes into lane 0. -/
  | vredmax (g : Guard) (d a b : VReg) (f : Fmt) (x : Option VExt)
  /-- VREDMIN (R120): Minimum of the lanes into lane 0. -/
  | vredmin (g : Guard) (d a b : VReg) (f : Fmt) (x : Option VExt)
  /-- VREDARG (R120): Index of the largest or smallest lane. -/
  | vredarg (g : Guard) (d a b : VReg) (f : Fmt) (x : Option VExt)
  /-- VSCAN (R120): Prefix sum across the lanes. -/
  | vscan (g : Guard) (d a b : VReg) (f : Fmt) (x : Option VExt)
  /-- VBCAST (R121): Broadcasts lane j to every lane. -/
  | vbcast (g : Guard) (d a b : VReg) (f : Fmt) (x : Option VExt)
  /-- VINS (R121): Inserts lane 0 of vA at lane j. -/
  | vins (g : Guard) (d a b : VReg) (f : Fmt) (x : Option VExt)
  /-- VEXT (R121): Extracts lane j into lane 0. -/
  | vext (g : Guard) (d a b : VReg) (f : Fmt) (x : Option VExt)
  /-- VPERM (R121): Permutes lanes by an index vector. -/
  | vperm (g : Guard) (d a b : VReg) (f : Fmt) (x : Option VExt)
  /-- VSLIDE (R121): Slides lanes across vA and vB by s. -/
  | vslide (g : Guard) (d a b : VReg) (f : Fmt) (x : Option VExt)
  /-- VREV (R121): Reverses the lanes. -/
  | vrev (g : Guard) (d a b : VReg) (f : Fmt) (x : Option VExt)
  /-- MPUSH (R176): Consumes A elements, loads AREG and steps plane 0 in the selected arrays. -/
  | mpush (g : Guard) (m : BitVec 8) (s : Bool)
  /-- MSTEP (R176): Steps the next plane in the selected arrays. -/
  | mstep (g : Guard) (m : BitVec 8) (s : Bool)
  /-- MACC (R176): Adds each array's group into accumulator row RI. -/
  | macc (g : Guard) (m : BitVec 8) (s : Bool) (y : RowStep)
  /-- MDRAIN (R176): Converts accumulator row DI into drain-buffer elements. -/
  | mdrain (g : Guard) (m : BitVec 8) (s : Bool) (y : RowStep)
  /-- MCLR (R176): Zeros the selected accumulator tiles. -/
  | mclr (g : Guard) (m : BitVec 8) (s : Bool)
  /-- MFILL (R176): Writes accumulator row RI from buffer elements. -/
  | mfill (g : Guard) (m : BitVec 8) (s : Bool) (y : RowStep)
  /-- MCFG (R179): Sets the beat machine's buffers, formats and rounding, and resets RI, DI and PC. -/
  | mcfg (g : Guard) (scb : CbReg) (af : Fmt) (acc : BitVec 6) (dcb : CbReg) (df : Fmt) (rnd : Rnd)
  /-- MMODE (R180): Selects multiply or rank mode. -/
  | mmode (g : Guard) (rank : Bool)
  /-- MROW_REG (R181): Sets the row limit from a register. -/
  | mrowReg (g : Guard) (a : SReg)
  /-- MROW_IMM (R181): Sets the row limit from an immediate. -/
  | mrowImm (g : Guard) (k : BitVec 8)
  /-- TBIND (R184): Releases a binding and looks a tile up, hitting, replicating or starting a fill. -/
  | tbind (g : Guard) (t : TbReg) (h : HReg) (o : SReg) (excl : Bool)
  /-- TUNBIND (R185): Sets a binding's status to unbound. -/
  | tunbind (g : Guard) (t : TbReg)
  /-- TPIN (R185): Pins the slot of a binding. -/
  | tpin (g : Guard) (t : TbReg)
  /-- TUNPIN (R185): Unpins the slot of a binding. -/
  | tunpin (g : Guard) (t : TbReg)
  /-- TPF (R158): Requests a prefetch of a tile without binding it. -/
  | tpf (g : Guard) (h : HReg) (o : SReg)
  /-- TINV_ADDR (R160): Invalidates every local slot that matches the tile at an address. -/
  | tinvAddr (g : Guard) (h : HReg) (o : SReg)
  /-- TINV_BINDING (R185): Invalidates the tile that a binding holds. -/
  | tinvBinding (g : Guard) (t : TbReg)
  /-- TWST (R186): Writes one tile element through to memory and to every local replica. -/
  | twst (g : Guard) (t : TbReg) (o : SReg) (v : BitVec 8)
  /-- TWST_ROW (R186): Writes one tile row, taken from a buffer element, through to memory and to the replicas. -/
  | twstRow (g : Guard) (t : TbReg) (o : SReg) (n : CbReg)
  /-- TSTAT (R188): Returns the state of a binding and its slot. -/
  | tstat (g : Guard) (t : TbReg) (d : SReg)
  /-- CPY (R283): Sends a linear copy, or a marker, to an engine context. -/
  | cpy (g : Guard) (t : TlReg) (a b : SReg) (fill : Bool) (x : Option W32)
  /-- CPY2 (R284): Sends a strided copy described by a shape record. -/
  | cpy2 (g : Guard) (t : TlReg) (a : SReg)
  /-- GATH (R285): Sends a gather of rows through an index table. -/
  | gath (g : Guard) (t : TlReg) (a b : SReg) (k : BitVec 3) (x : Option W32)
  /-- SCAT (R285): Sends a scatter of rows through an index table. -/
  | scat (g : Guard) (t : TlReg) (a b : SReg) (k : BitVec 3) (x : Option W32)
  /-- KVW (R286): Sends a walk of a key-value block table. -/
  | kvw (g : Guard) (t : TlReg) (a : SReg) (x : Option W32)
  /-- CPYR (R287): Completes a cancelled copy from its restart record. -/
  | cpyr (g : Guard) (t : TlReg) (a : SReg)
  /-- CRED (R288): Contributes to a collective reduction. -/
  | cred (g : Guard) (t : TlReg) (a : SReg)
  /-- CGATH (R288): Contributes to a collective gather. -/
  | cgath (g : Guard) (t : TlReg) (a : SReg)
  /-- BUL (R289): Sends a bank-unit command, optionally in duplicate. -/
  | bul (g : Guard) (t : TlReg) (a : SReg) (dup : Bool) (x : Option (BitVec 8))
  /-- TLWAIT (R290): Waits until a timeline counter reaches a target, then acquires and reports errors. -/
  | tlwait (g : Guard) (t : TlReg) (a : SReg) (q : PReg)
  /-- TLGET (R291): Reads COUNT or the error record of a context, optionally emptying the record. -/
  | tlget (g : Guard) (t : TlReg) (d : SReg) (sel : TlSel)
  /-- TLSIG (R292): Enqueues a marker that decrements a node when it retires. -/
  | tlsig (g : Guard) (t : TlReg) (a : SReg)
  /-- GJOIN (R293): Joins a group, optionally setting its notify node. -/
  | gjoin (g : Guard) (a b : SReg)
  /-- GLEAVE (R293): Makes a normal leave of the caller's group. -/
  | gleave (g : Guard) (a : SReg)
  /-- GBAR (R269): Releases, arrives at the group barrier and waits. -/
  | gbar (g : Guard) (a : SReg) (q : PReg)
  /-- GWAIT (R270): Waits until the group's membership reaches zero, then returns ABN. -/
  | gwait (g : Guard) (d : SReg) (q : PReg) (a : SReg)
  /-- TSPAWN (R294): Enqueues a continuation record. -/
  | tspawn (g : Guard) (a : SReg)
  /-- TDEC (R294): Decrements a graph node. -/
  | tdec (g : Guard) (a : SReg)
  /-- TARM (R294): Sets a graph node's count. -/
  | tarm (g : Guard) (a b : SReg)
  /-- MOVE_NULL (R322): Bank-unit move to NULL, which discards the word. -/
  | moveNull (src : MoveSrc) (g : BitVec 2)
  /-- MOVE_ROWK (R322): Loads the next key row. -/
  | moveRowk (src : MoveSrc) (g : BitVec 2)
  /-- MOVE_FMA_A (R322): Latches the FMA multiplicand. -/
  | moveFmaA (src : MoveSrc) (g : BitVec 2)
  /-- MOVE_FMA_T (R322): ACC := ACC + FMA.A × v, with one rounding. -/
  | moveFmaT (src : MoveSrc) (g : BitVec 2)
  /-- MOVE_ACC (R322): Sets ACC. -/
  | moveAcc (src : MoveSrc) (g : BitVec 2)
  /-- MOVE_OUT (R322): Writes a word to the output and updates g1. -/
  | moveOut (src : MoveSrc) (g : BitVec 2)
  /-- MOVE_LC_SET (R322): Sets the loop counter. -/
  | moveLcSet (src : MoveSrc) (g : BitVec 2)
  /-- MOVE_LC_T (R322): Decrements LC and sets g0. -/
  | moveLcT (src : MoveSrc) (g : BitVec 2)
  /-- MOVE_BR (R322): Branches to a word index. -/
  | moveBr (src : MoveSrc) (g : BitVec 2)
  /-- MOVE_END (R322): Ends the run with its output. -/
  | moveEnd (src : MoveSrc) (g : BitVec 2)
  /-- MOVE_ACC1 (R322): Sets ACC1. -/
  | moveAcc1 (src : MoveSrc) (g : BitVec 2)
  /-- MOVE_FMA_T1 (R322): ACC1 := ACC1 + FMA.A × v. -/
  | moveFmaT1 (src : MoveSrc) (g : BitVec 2)
  /-- MOVE_ADD_A (R322): Latches ADD.A. -/
  | moveAddA (src : MoveSrc) (g : BitVec 2)
  /-- MOVE_ADD_T (R322): ADD.R := ADD.A + v. -/
  | moveAddT (src : MoveSrc) (g : BitVec 2)
  /-- MOVE_MUL_A (R322): Latches MUL.A. -/
  | moveMulA (src : MoveSrc) (g : BitVec 2)
  /-- MOVE_MUL_T (R322): MUL.R := MUL.A × v. -/
  | moveMulT (src : MoveSrc) (g : BitVec 2)
  /-- MOVE_CMP_A (R322): Latches CMP.A. -/
  | moveCmpA (src : MoveSrc) (g : BitVec 2)
  /-- MOVE_CMP_T (R322): Compares CMP.A with v and sets g0 and g1. -/
  | moveCmpT (src : MoveSrc) (g : BitVec 2)
  /-- BUNDLE_DISPATCH (R59): Decodes a bundle's length, checks its legality and queues its issues in the per-slot
  queues. Operands in EvArgs: unit (c). -/
  | bundleDispatch
  /-- BUNDLE_ISSUE (R21): The slots issue one bundle issue in a core cycle, with installs, re-issues and header bits.
  Operands in EvArgs: unit (c). -/
  | bundleIssue
  /-- SYNC_MET (R27): Every slot waiting at a sync bundle has arrived, and they issue it together. Operands in EvArgs:
  unit (c). -/
  | syncMet
  /-- RESULT_LANDING (R16): An operation's result lands when its slot clock reaches issue plus latency. Operands in
  EvArgs: unit (c). -/
  | resultLanding
  /-- CB_FIRE (R30): A buffer operation waiting for count or room fires once enough is present. Operands in EvArgs:
  unit (c), idx (slot). -/
  | cbFire
  /-- CB_COUNT_RISE (R30): A due CNT or ROOM increase of a buffer takes effect. Operands in EvArgs: unit (c). -/
  | cbCountRise
  /-- REPLY_ARRIVAL (R230): A reply from a home reaches a stalled load slot, which then issues. Operands in EvArgs:
  unit (id). -/
  | replyArrival
  /-- SEGMENT_EXPANSION_COMPLETE (R34): The prefetch engine completes the expansion of a segment into a loop-buffer
  half. Operands in EvArgs: unit (c). -/
  | segmentExpansionComplete
  /-- SEGMENT_REFILL_COMPLETE (R34): A 40-cycle refill ends and the target bundle can issue. Operands in EvArgs: unit
  (c). -/
  | segmentRefillComplete
  /-- TABLE_SWAP (R123): The VX slot clock reaches the firing value plus 16 and the table is replaced at once.
  Operands in EvArgs: unit (c), idx (t). -/
  | tableSwap
  /-- XLAT_COMPLETE (R210): A translation walk finishes and the handle becomes valid or faulted. Operands in EvArgs:
  unit (c), idx (h), aux (the generation the walk was started for). -/
  | xlatComplete
  /-- PGINV_WRITE (R213): A write to PGINV starts a page invalidation in every core of the partition. Operands in
  EvArgs: unit (x), value (v). -/
  | pginvWrite
  /-- INVALIDATION_COMPLETE (R213): Every old-translation access is performed and BUSY clears. Operands in EvArgs:
  unit (x), aux (the first request number after the invalidation). -/
  | invalidationComplete
  /-- WAYMASK_WRITE (R306): Clearing WAYMASK bits writes back the context's dirty lines in the removed ways. Operands
  in EvArgs: unit (x), value (v), flag (byFirmware). -/
  | waymaskWrite
  /-- FEL_WRITE (R104): A write to FEL sets the log and discards events of earlier operations. Operands in EvArgs:
  unit (c), value (v). -/
  | felWrite
  /-- MB7_WRITE (R379): A write to MB7 raises an MSI-X vector once earlier accesses are performed. Operands in EvArgs:
  unit (c), value (v). -/
  | mb7Write
  /-- MAILBOX_WRITE (R353): The host or the management core writes a mailbox and sets IRQ.MBOX. Operands in EvArgs:
  unit (c), idx (k), value (v). -/
  | mailboxWrite
  /-- REGISTER_WRITE (R351): A write to a system or control register that has no row of its own, by its access types.
  Operands in EvArgs: reg (r), value (v). -/
  | registerWrite
  /-- TILE_FILL_COMPLETE (R155): A fill from memory completes and the slot becomes valid. Operands in EvArgs: unit
  (c), idx (g), aux (the order number of the fill). -/
  | tileFillComplete
  /-- REPLICA_COPY_COMPLETE (R155): A replica copy from another slot completes 66 cycles after the source is valid.
  Operands in EvArgs: unit (c), idx (g). -/
  | replicaCopyComplete
  /-- PREFETCH_FILL_START (R158): A waiting prefetch finds a free engine, takes a victim and starts its fill. Operands
  in EvArgs: unit (c). -/
  | prefetchFillStart
  /-- SCRUB (R216): The background scrubber checks a word and corrects or refills it. Operands in EvArgs: place (p),
  flag (an error was found). -/
  | scrub
  /-- UNCORRECTABLE_ERROR (R214): An uncorrectable error ends the owning context and may write poison. Operands in
  EvArgs: place (p). -/
  | uncorrectableError
  /-- PREEMPTION_REQUEST (R272): The scheduler or the management core asks a core to pre-empt and sets IRQ.PRE.
  Operands in EvArgs: unit (c). -/
  | preemptionRequest
  /-- PREEMPTION (R272): At the first safe point the core drains and saves the continuation with STATUS 1. Operands in
  EvArgs: unit (c). -/
  | preemption
  /-- PREEMPTION_OVERDUE (R274): A request pending beyond PRETO is reported to the management core. Operands in
  EvArgs: unit (c). -/
  | preemptionOverdue
  /-- CONTINUATION_PICKUP (R255): An idle core chooses the next record and restores its state. Operands in EvArgs:
  unit (c). -/
  | continuationPickup
  /-- CONTINUATION_KILL (R337): A continuation is ended, its record written with STATUS 5. Operands in EvArgs: unit
  (c). -/
  | continuationKill
  /-- READY_AGEING (R265): A record that has waited 100 µs moves up one priority level. Operands in EvArgs: unit (b).
  -/
  | readyAgeing
  /-- TIME_SLICE_SWITCH (R275): At the end of a slice, the bulkhead switches between partitions. Operands in EvArgs:
  unit (b), idx (part). -/
  | timeSliceSwitch
  /-- LAUNCH_QUEUE_TAKE (R259): The scheduler reads a launch-queue entry and enqueues it or starts a replay. Operands
  in EvArgs: unit (q). -/
  | launchQueueTake
  /-- GRAPH_REPLAY_START (R263): Once RUN is 0, a replay sets RUN, latches parameters, arms the nodes and launches the
  roots. Operands in EvArgs: unit (i). -/
  | graphReplayStart
  /-- GRAPH_REPLAY_COMPLETE (R263): Every launched node has completed, so GEN rises and RUN clears. Operands in
  EvArgs: unit (i). -/
  | graphReplayComplete
  /-- NODE_DECREMENT (R261): A node's home applies a decrement and launches the node at zero. Operands in EvArgs: unit
  (x), idx (node), aux (param). -/
  | nodeDecrement
  /-- NODE_ARM (R262): A node's home sets COUNT and clears UNDER and ERR. Operands in EvArgs: unit (x), idx (node),
  value (count). -/
  | nodeArm
  /-- ENGINE_COMMAND_START (R281): Once the issuing core's earlier accesses are performed, an engine starts a command
  and reads its record. Operands in EvArgs: unit (e), idx (num). -/
  | engineCommandStart
  /-- COMMAND_RETIRE (R276): A command retires in number order, raising COUNT and recording any error. Operands in
  EvArgs: unit (e). -/
  | commandRetire
  /-- REMOTE_WINDOW_WRITE (R201): An engine write to a core's aperture lands in the steep bank or is refused. Operands
  in EvArgs: unit (c), idx (off), data (bytes), flag (fill), flag2 (poison). -/
  | remoteWindowWrite
  /-- COLLECTIVE_RESULT (R288): Every member has contributed, so each DST receives the reduced or gathered result.
  Operands in EvArgs: unit (part), idx (group), value (key). -/
  | collectiveResult
  /-- MIGRATION (R345): The management core stops, pre-empts, cancels copies and moves a context. Operands in EvArgs:
  unit (x), idx (dest). -/
  | migration
  /-- MIGRATION_PAGE_PULL (R346): A walk inside a migrating range pulls the page from the source. Operands in EvArgs:
  unit (x), idx (page). -/
  | migrationPagePull
  /-- BANK_UNIT_ACCEPT (R317): An idle bank unit takes a command, checks it, writes back lines and starts its runs.
  Operands in EvArgs: unit (ch). -/
  | bankUnitAccept
  /-- BANK_UNIT_RESULT (R324): The runs finish and the result and STAT are written, with a third run on disagreement.
  Operands in EvArgs: unit (ch). -/
  | bankUnitResult
  /-- BANK_REQUEST_PROMOTION (R327): A row request waiting AGE µs is promoted and PROMO increments. Operands in
  EvArgs: unit (ch). -/
  | bankRequestPromotion
  /-- HOME_APPLY (R220): A request reaches its home, passes the sluice and is applied in home order. Operands in
  EvArgs: unit (id). -/
  | homeApply
  /-- HOT_LINE_WITHDRAW (R303): Replicas and redirects are withdrawn and acknowledged before a write or eviction.
  Operands in EvArgs: unit (line), flag (for an eviction). -/
  | hotLineWithdraw
  /-- SWITCH_COMBINE (R300): A matching request combines with a held one, and the switch forwards the combined
  request. Operands in EvArgs: unit (sw), idx (i), aux (j). -/
  | switchCombine
  /-- COMBINE_HOLD_EXPIRY (R300): A held request is forwarded after 8 fabric cycles. Operands in EvArgs: unit (id). -/
  | combineHoldExpiry
  /-- COMBINED_REPLY_SPLIT (R301): The reply to a combined request is split between both input ports. Operands in
  EvArgs: unit (id). -/
  | combinedReplySplit
  /-- SAIL_WHEEL_APPLY (R247): The home applies a sail-wheel operation once the clock has passed its stamp by 512.
  Operands in EvArgs: unit (id). -/
  | sailWheelApply
  /-- RATE_LIMITED_SEND (R307): A request leaves its interface once the token bucket holds its cost. Operands in
  EvArgs: unit (id). -/
  | rateLimitedSend
  /-- FABRIC_LINK_FAILURE (R296): A link failing beyond retry is reported and its messages complete with bulkhead
  down. Operands in EvArgs: unit (sw), idx (port). -/
  | fabricLinkFailure
  /-- SUPPLY_SAG (R39): A rail sag lengthens the bulkhead clock and counts a droop event. Operands in EvArgs: unit
  (b). -/
  | supplySag
  /-- TIMER_MATCH (R341): TIME reaches TCMP and IRQ.TIMER is set. Operands in EvArgs: unit (c). -/
  | timerMatch
  /-- FAULT_REPORT (R341): A fault report reaches the management core and sets IRQ.FAULT. Operands in EvArgs: note
  (f). -/
  | faultReport
  /-- BH_SCHED_STOP (R356): SCHED 1→0 stops the bulkhead scheduler. Operands in EvArgs: unit (b). -/
  | bhSchedStop
  /-- BH_PREEMPT (R356): PRE 0→1 asks every core of the bulkhead to pre-empt. Operands in EvArgs: unit (b). -/
  | bhPreempt
  /-- BH_QUIESCE_ABANDON (R356): Writing SCHED 1, PRE 0 in state 1 or 2 abandons the quiesce. Operands in EvArgs: unit
  (b). -/
  | bhQuiesceAbandon
  /-- QUIESCE_COMPLETE (R356): All cores are idle and the engines are empty, so STATE becomes quiet. Operands in
  EvArgs: unit (b). -/
  | quiesceComplete
  /-- SLUICE_CLOSE (R357): CLOSE is accepted and the slices write back and drop their lines. Operands in EvArgs: unit
  (b). -/
  | sluiceClose
  /-- SLUICE_CLOSE_COMPLETE (R357): INFL reaches 0 and the write-backs are done, so CLOSED is set. Operands in EvArgs:
  unit (b). -/
  | sluiceCloseComplete
  /-- RETENTION_SAVE (R358): SAVE copies group records, queues, counters and limits into retention SRAM. Operands in
  EvArgs: unit (b). -/
  | retentionSave
  /-- RETENTION_SAVE_COMPLETE (R358): The save finishes with VALID 1 and BUSY 0. Operands in EvArgs: unit (b). -/
  | retentionSaveComplete
  /-- CLOCK_GATE (R356): GATE 0→1 stops the clock and the PLL. Operands in EvArgs: unit (b). -/
  | clockGate
  /-- CLOCK_STOPPED (R356): LOCK reads 0 and STATE becomes gated. Operands in EvArgs: unit (b). -/
  | clockStopped
  /-- RAIL_OFF (R356): OFF 0→1 ramps the rail down. Operands in EvArgs: unit (b). -/
  | railOff
  /-- RAIL_DOWN (R356): PG falls to 0 and STATE becomes down. Operands in EvArgs: unit (b). -/
  | railDown
  /-- RAIL_ON (R356): OFF 1→0 ramps the rail up. Operands in EvArgs: unit (b). -/
  | railOn
  /-- RAIL_UP (R356): PG rises to 1 and STATE becomes powered. Operands in EvArgs: unit (b). -/
  | railUp
  /-- CLOCK_UNGATE (R356): GATE 1→0 relocks the PLL. Operands in EvArgs: unit (b). -/
  | clockUngate
  /-- PLL_LOCK (R356): LOCK rises to 1 and STATE becomes clocked. Operands in EvArgs: unit (b). -/
  | pllLock
  /-- BH_WIPE (R359): GO starts a wipe of the bulkhead's volatile SRAM. Operands in EvArgs: unit (b). -/
  | bhWipe
  /-- WIPE_COMPLETE (R359): The wipe finishes with GO 0 and DONE 1. Operands in EvArgs: unit (b). -/
  | wipeComplete
  /-- RETENTION_RESTORE (R368): RESTORE reloads the saved state, or reset values if none is valid. Operands in EvArgs:
  unit (b). -/
  | retentionRestore
  /-- RETENTION_RESTORE_COMPLETE (R356): The restore finishes with BUSY 0 and STATE becomes restored. Operands in
  EvArgs: unit (b). -/
  | retentionRestoreComplete
  /-- SLUICE_OPEN (R356): CLOSE 1→0 reopens the sluice. Operands in EvArgs: unit (b). -/
  | sluiceOpen
  /-- SLUICE_OPEN_COMPLETE (R356): CLOSED falls to 0 and STATE becomes open. Operands in EvArgs: unit (b). -/
  | sluiceOpenComplete
  /-- BH_SCHED_RESUME (R356): Writing SCHED 1, PRE 0 in state 11 resumes the scheduler. Operands in EvArgs: unit (b).
  -/
  | bhSchedResume
  /-- BH_WAKE_WRITE (R355): A write to BH_WAKE sets or clears REQ and sets IRQ.WAKE. Operands in EvArgs: unit (b),
  value (v). -/
  | bhWakeWrite
  /-- CORE_RESTART (R360): A RESTART bit write restarts a halted core in state 0. Operands in EvArgs: unit (c). -/
  | coreRestart
  /-- PWRLIM_WRITE (R360): A write of PWRLIMc sets a core's power window limit. Operands in EvArgs: unit (c), value
  (v). -/
  | pwrlimWrite
  /-- PTAB_WRITE (R365): A partition-table write is checked and, if accepted, clears retention, withdraws contexts and
  extends the measurement. Operands in EvArgs: unit (p), value (v). -/
  | ptabWrite
  /-- CONTEXT_DESCRIPTOR_WRITE (R367): The management core writes a context descriptor field. Operands in EvArgs: unit
  (x), idx (off), value (v). -/
  | contextDescriptorWrite
  /-- BH_RESET (R370): GO of BH_RST resets one bulkhead, ending its work and poisoning its dirty lines. Operands in
  EvArgs: unit (b). -/
  | bhReset
  /-- GKEY_DESTROY (R372): DESTROY replaces a partition's granary key and advances its epoch. Operands in EvArgs: unit
  (p). -/
  | gkeyDestroy
  /-- LIFECYCLE_REQUEST (R374): LCREQ.GO submits a life-cycle transition, checked against the signature and nonce. -/
  | lifecycleRequest
  /-- MODULE_RESET (R373): A module reset applies any pending life-cycle change with its wipe. -/
  | moduleReset
  /-- LIFETIME_COUNTER_COMMIT (R386): The hub commits the lifetime counters at least every 60 s. -/
  | lifetimeCounterCommit
  /-- VF_WAKE (R376): A VF WAKE write sets BH_WAKE.REQ of the selected virtual bulkheads. Operands in EvArgs: unit
  (f), value (v). -/
  | vfWake
  /-- VF_HINV (R376): A VF HINV write invalidates pages in every context of the partition. Operands in EvArgs: unit
  (f), value (v). -/
  | vfHinv
  /-- CONSENT_SUBMIT (R369): A consent record is submitted; matching records open a window, PERM 0 closes one.
  Operands in EvArgs: unit (f). -/
  | consentSubmit
  /-- ATTESTATION_REQUEST (R385): The device writes a signed report to host memory. Operands in EvArgs: unit (f). -/
  | attestationRequest
  /-- ATS_INVALIDATION (R378): The host invalidates a cached translation, completing after old accesses are performed.
  Operands in EvArgs: unit (f), idx (page). -/
  | atsInvalidation
  /-- VF_FLR (R380): A function-level reset of a VF stops its queues, ends contexts and closes windows. Operands in
  EvArgs: unit (f). -/
  | vfFlr
  /-- PF_FLR (R380): A function-level reset of the PF resets the whole module. -/
  | pfFlr
  /-- PEER_REQUEST (R382): An incoming Scair request is translated through the peer window table and checked. Operands
  in EvArgs: peer (r). -/
  | peerRequest
  /-- SCAIR_HEARTBEAT (R383): A port idle for 1 µs sends a heartbeat flit. Operands in EvArgs: unit (port). -/
  | scairHeartbeat
  /-- SCAIR_XOFF (R381): A receiver with a full buffer tells the sender to stop a VL. Operands in EvArgs: unit (port),
  idx (vl). -/
  | scairXoff
  /-- SCAIR_XON (R381): A receiver with room again lets the sender resume a VL. Operands in EvArgs: unit (port), idx
  (vl). -/
  | scairXon
  /-- SCAIR_REPLAY_REQUEST (R381): After a CRC failure, the sender replays from the requested SEQ. Operands in EvArgs:
  unit (port), idx (vl), aux (seq). -/
  | scairReplayRequest
  /-- SCAIR_LINK_DOWN (R383): No valid flit for 100 µs declares the link down and drains its requests. Operands in
  EvArgs: unit (port). -/
  | scairLinkDown
  /-- SCAIR_FLIT_CRC_FAILURE (R381): A receiver discards a flit that fails its CRC and sends a replay request from its
  SEQ. Operands in EvArgs: unit (port), idx (vl), aux (seq). -/
  | scairFlitCrcFailure
  /-- ORDERLY_POWER_DOWN (R386): At an orderly power-down of the module, the hub commits the lifetime counters. -/
  | orderlyPowerDown
  /-- MIGRATION_BACKGROUND_PUSH (R346): Pages of a migrating context that have not been pulled are pushed to the
  destination in the background. Operands in EvArgs: unit (x). -/
  | migrationBackgroundPush
  /-- DEBUG_FREEZE_RESUME (R348): After a brk under the debug flag, the management core either enters service as for
  trap or resumes the frozen state directly. Operands in EvArgs: unit (c), flag (service), idx (the operand k of the
  brk), aux (the address of its bundle). -/
  | debugFreezeResume
deriving DecidableEq, Repr

/-- The operands of an event (spec/95): the unit it concerns (core, bulkhead, context, queue, port), further numbers,
a value, bytes, flags. Each event's docstring names the ones it uses. -/
structure EvArgs where
  unit : Nat := 0
  idx : Nat := 0
  aux : Nat := 0
  value : Word := 0
  data : List Byte := []
  flag : Bool := false
  flag2 : Bool := false
  reg : RegAddr := {}
  place : StorePlace := .memory 0
  note : FaultNote := { reason := 0, source := 0, ctx := 0, info := 0 }
  peer : PeerReq := { port := 0, srcModule := 0, part := 0, write := false, atomic := none, addr := 0, data := [], fill := false, poison := false }
deriving DecidableEq, Repr

end Sys2Proof
end

