-- ==== Sys2Proof/Machine/State.lean ====
section
/-! DEFINITION. The state of the ON-7 as plain data: everything INVENTORY.md lists under State, its reset value, and
the reasons a step can stop. Sparse tables are lists of (key, value) pairs with rising keys; what an unlisted key
reads as is said beside each table's reader in Ops. -/

namespace Sys2Proof.Machine

/-- A sparse table: rising keys, no key twice. -/
abbrev SMap (α : Type) := List (Nat × α)

/-- Memory: rising addresses, no entry equal to what an unlisted address reads as (the byte 0, R359 and log entry 4). -/
abbrev Memory := List Host.Cell

/-- A decoded number (R84 to R92): NaN or NaR, an infinity, or (-1)^neg * mag * 2^exp exactly. -/
inductive FVal where
  | nan
  | inf (neg : Bool)
  | fin (neg : Bool) (mag : Nat) (exp : Int)
deriving DecidableEq, Repr

/-- Why the machine stops. -/
inductive Fault where
  /-- No meaning raises it: an event that names a unit outside the numbers of R1, R200 and R363 leaves the machine as it
  was (DESIGN CHOICE, log entry 84). Safe: a fault only stops the model. -/
  | noSuchUnit (n : Nat)
deriving DecidableEq, Repr

/-- Why an instruction has no meaning in the model. -/
inductive Refusal where
  /-- Raised by Dispatch for a row that has no meaning yet. Safe: the model stops. -/
  | notModelled (mnemonic : String)
deriving DecidableEq, Repr

/-- A trap condition of R330, with what the trap record needs. consumed: the operation counts as done and does not issue
again (RES 0); after: it is taken when the operation's bundle has issued (R76, R348); note: it reports a dropped store (R311). -/
structure TrapRec where
  code : Nat
  cause : Nat
  res : Nat
  slot : Nat := 0
  hnd : Nat := 0
  gen : Nat := 0
  adr : Nat := 0
  va : Nat := 0
  ilb : Word := 0
  consumed : Bool := false
  after : Bool := false
  note : Bool := false
deriving DecidableEq, Repr

/-- A circular buffer (R29, R30); gen counts its configurations, so that increases of an old one are dropped (R236). -/
structure Cb where
  conf : Bool := false
  base : Nat := 0
  cap : Nat := 0
  esz : Nat := 0
  prd : Nat := 0
  con : Nat := 0
  cnt : Nat := 0
  room : Nat := 0
  gen : Nat := 0
deriving DecidableEq, Repr

/-- The combinable functions of R241. -/
inductive AmoOp where
  | add | and | or | xor | min | max | minz | maxz | swp
deriving DecidableEq, Repr

/-- The lane arithmetic of R111. -/
inductive LaneOp where
  | add | sub | mul | fma | fms
deriving DecidableEq, Repr

/-- What a request asks its home to do (R220, R241 to R247, R250), or a group's sync engine, a scheduler or a node's home
(R267 to R270, R294). gjoin carries the group left and the notify node, tarm the count. -/
inductive ReqOp where
  | read | store | amo (o : AmoOp) | cas | fadd | tktWait | tktDone | scLoad | scStore | scAdd | wbinv | fetch
  | gjoin (old notify : Nat) | gleave | gbar | gwait | spawn | tdec | tarm (n : W32)
deriving DecidableEq, Repr

/-- An operand of a combined request: the request it stands for, its operand, and what was combined before it (R300). -/
structure Member where
  id : Nat
  core : Nat
  slot : Nat
  operand : Word
  before : Option Word
deriving DecidableEq, Repr

/-- A request on its way to a home (R220, R230, R241, R246, R247): its home bulkhead, physical and virtual address,
data and bit mask, stamp of the sail wheel, the buffer element it fills, the members combined in it and the cycle it was
held at a switch; limited: it still waits at the rate limiter (R307); idx and seq: the bundle issue and the place in issue
order of its operation; stages: the output ports at which it has combined (R300), answered: the value and status of a reply
that is on its way to be split (R301); hi: bits 127:64 of the leaf it goes through; born: the request number at its issue (R213);
passed: the combining stages behind it (R300); sent: TIME when it was sent; admitted: it has reached its home and waits there (R355); own: a sail-wheel operation on the core's own scratchpad; ways: the WAYMASK of the core that
issued it (R367); served: a write has brought now-serving to the ticket it waits for (R246); via: the Scair port toward its peer module when it was
sent (R383). parked: it waits at a sync engine, or at a peer module for its reply. cmd: the engine command (context, number) whose write it
is (R382). helper: the helper that a read was sent to by a redirect entry (R302).
 A group request has the group in va and its continuation's record in pa. -/
structure Req where
  id : Nat := 0
  core : Nat
  slot : Nat
  op : ReqOp
  size : Nat
  pa : Nat
  home : Nat
  va : Nat := 0
  data : List Byte := []
  mask : List Byte := []
  scope : Scope := .dev
  part : Nat
  ctx : Nat
  wantReply : Bool := false
  stamp : Nat := 0
  parked : Bool := false
  held : Option Nat := none
  elem : Option Nat := none
  members : List Member := []
  limited : Bool := false
  mgmt : Bool := false
  stages : List Nat := []
  answered : Option (Nat × Nat) := none
  idx : Nat := 0
  seq : Nat := 0
  hi : Nat := 0
  born : Nat := 0
  passed : Nat := 0
  sent : Nat := 0
  admitted : Bool := false
  own : Bool := false
  ways : Option Nat := none
  served : Bool := false
  via : Nat := 0
  cmd : Option (Nat × Nat) := none
  helper : Option Nat := none
deriving DecidableEq, Repr

/-- An element on its way into a buffer (R233): its buffer and generation, its offset and size, its place in issue order,
the home bulkheads of the lines it comes from (R221), whether it has arrived. -/
structure Elem where
  id : Nat
  cb : Nat
  gen : Nat
  off : Nat
  size : Nat := 0
  seq : Nat := 0
  homes : List Nat := []
  arrived : Bool := false
deriving DecidableEq, Repr

/-- Where a result lands (R16): a register, a buffer count, a scratchpad range, a table, the log. -/
inductive Landing where
  | s (r : SReg) (v : Word)
  | p (r : PReg) (b : Bool)
  | v (r : VReg) (x : Vec)
  | sys (n : Nat) (v : Word)
  | cnt (cb gen n : Nat)
  | room (cb gen n : Nat)
  | bytes (off : Nat) (data : List Byte)
  | store (off : Nat) (data : List Byte)
  | cbcfg (cb : Nat) (d : Cb)
  | elem (id : Nat) (data : List Byte)
  | post (r : Req)
  | through (r : Req)
  | table (t : Nat) (coeffs : List W32)
  | tread (t : Nat) (addrs : List Nat) (got : List W32)
  | tcfg (t : Nat) (lo : W16) (q : BitVec 4) (lmode umode : TailMode) (k : W32)
  | xlat (h va : Nat) (kind : Bool)
  | hinv (h : Nat)
  | handle (h gen : Nat)
  | mgmt (hub : Bool) (off : Nat) (v : Word)
  | mgmtLoad (hub : Bool) (off : Nat) (r : SReg)
  | tlSample (e : Nat) (sel : TlSel) (r : SReg) (left : Nat)
  | event
deriving DecidableEq, Repr

/-- A result in flight: the slot whose clock it waits for, the clock value, its place in issue order, the event it
records when it lands (kind, 0 for none, and the bundle address), whether it is poisoned (R16, R18, R104, R335), and the
virtual address, handle and generation that the trap record of a poisoned load names. -/
structure Flight where
  slot : Nat
  due : Nat
  seq : Nat
  what : Landing
  kind : Nat := 0
  adr : Nat := 0
  poison : Bool := false
  va : Nat := 0
  hnd : Nat := 0
  gen : Nat := 0
deriving DecidableEq, Repr

/-- An address handle (R209). state: 0 invalid, 1 pending, 2 valid, 3 faulted. leaf: bits 111:64 of the leaf. -/
structure Handle where
  state : Nat := 0
  vbase : BitVec 57 := 0
  pbase : Nat := 0
  limit : Nat := 0
  leaf : BitVec 48 := 0
  size : BitVec 4 := 0
  ronly : Bool := false
  gen : BitVec 16 := 0
  cause : Nat := 0
deriving DecidableEq, Repr

/-- A leaf of a walk (R204): physical address of the page, size code, bits 127:64 of the entry. -/
structure Leaf where
  frame : Nat
  size : Nat
  hi : Nat
deriving DecidableEq, Repr

/-- The agents of R207. -/
inductive MemAgent where
  | core | fill | twst | copy | coll | bank | host | peer | code
deriving DecidableEq, Repr

/-- The regions of R200. -/
inductive Region where
  | hbm | granary | aperture | host | peer | reserved
deriving DecidableEq, Repr

/-- Where an access that passed its checks goes (R211, R193, R354): the scratchpad, memory with its home bulkhead and
the leaf's bits 127:64, or a register of the management space or the hub space. -/
inductive Target where
  | scratch (off : Nat)
  | mem (pa home hi : Nat)
  | space (hub : Bool) (off : Nat)
deriving DecidableEq, Repr

/-- The outcome of the checks of an access (R211): it goes on, its slot waits for a pending handle, or it traps. -/
inductive Access where
  | ok (t : Target)
  | wait
  | trap (t : TrapRec)
deriving DecidableEq, Repr

/-- A reply that a home sent to a load slot or for a buffer element (R230, R233): status 0 good, 1 poison, 2 bulkhead
down; the bytes of an element; the bulkhead it comes from and whether it retraces its request's path (R296). -/
structure Reply where
  id : Nat
  value : Word
  status : Nat
  data : List Byte := []
  home : Nat := 0
  back : Bool := false
deriving DecidableEq, Repr

/-- A slot: its clock, the index of the bundle issue it takes next, its installed operation with base address and
re-issue index, and the request it waits for with the offset it was sent with (R16, R20 to R25, R230). -/
structure SlotSt where
  clk : Nat := 0
  next : Nat := 0
  op : Option Instr := none
  a0 : Word := 0
  k : Nat := 0
  waiting : Option Nat := none
  sent : Word := 0
  reply : Option Reply := none
deriving DecidableEq, Repr

/-- One queued issue of a bundle (R21, R25): its index, its place in issue order, header address, fall-through address, new syllables by slot,
SYNC mask, first and last marks, MARK and SAFE. -/
structure Issue where
  idx : Nat
  ord : Nat
  adr : Nat
  fall : Nat
  syls : List (Nat × Instr)
  sync : Nat
  first : Bool
  last : Bool
  mark : Bool
  safe : Bool
deriving DecidableEq, Repr

/-- An expanded segment in a half of the loop buffer (R33, R34): header address, header fields and bundle words; bad:
0 good, 1 malformed, 2 poison, 3 translation or permission, 4 past the last bundle with NEXT 0;
badVa is the address that failed. -/
structure Seg where
  head : Nat
  next : Nat
  hint : Nat
  words : List W32
  bad : Nat
  badVa : Nat := 0
deriving DecidableEq, Repr

/-- The words of one bundle (R40, R41): header, length in words, and each new syllable's slot, word and extension. -/
structure Bundle where
  head : Nat
  len : Nat
  syls : List (Nat × Nat × Nat)
deriving DecidableEq, Repr

/-- The state of one loop level (R77 to R79): its counter value, whether it is active, its first and end bundle. -/
structure Loop where
  count : W32 := 0
  active : Bool := false
  first : Nat := 0
  last : Nat := 0
deriving DecidableEq, Repr

/-- What the core waits for before it goes on (R82, R272, R347): the operation that drains it and its bundle. -/
inductive Drain where
  | none
  | op (i : Instr) (adr fall : Nat) (safe : Bool) (seq : Nat)
  | preempt (adr : Nat)
  | illegal (t : TrapRec)
  | iwaiting (d : SReg) (mask : Nat) (adr : Nat) (safe : Bool) (seq : Nat)
deriving DecidableEq, Repr

/-- A store held in the gated store buffer (R339): its scratchpad offset, its request, or its register of the hub space or the management
space, and its bytes. -/
structure Gated where
  off : Option Nat
  data : List Byte
  req : Option Req
  space : Option (Bool × Nat) := none
deriving DecidableEq, Repr

/-- The registers a restart mark shadows (R338). -/
structure Shadow where
  s : SMap Word := []
  p : BitVec 8 := 1
  v : SMap Vec := []
  fel : Word := 0
  felSeq : Nat := 0
  felHold : Nat := 0
  seed : Word := 0
  loops : List Loop := []
  slots : List SlotSt := []
deriving DecidableEq, Repr

/-- The restart mark (R338, R339): armed, its bundle and segment, the first issue index after it, the shadow, the
gated stores, the place of the last commit point, and the poisoned results whose traps wait for the rerun (R340). -/
structure MarkSt where
  armed : Bool := false
  adr : Nat := 0
  seg : Nat := 0
  seq : Nat := 0
  shadow : Shadow := {}
  gated : List Gated := []
  commit : Nat := 0
  poisoned : List Flight := []
deriving DecidableEq, Repr

/-- The state a freeze saves (R332): slots, loops, queued issues, dispatch point, late writes; res is RES, slot the
trapping slot, sb the scoreboard resumption of R335, skips the slots whose next issue counts as guard-false, ord the place in issue
order that the next bundle would have taken. -/
structure Frozen where
  res : Nat
  slot : Nat
  sb : Bool
  slots : List SlotSt
  loops : List Loop
  issues : List Issue
  pc : Nat
  rptK : Nat
  nextIdx : Nat
  brWait : Option Nat
  seg : Option Seg
  late : List Flight
  drain : Drain
  refillTo : Option (Nat × Nat) := none
  dispAt : Option Nat := none
  skip : Bool := false
  skips : List Nat := []
  ord : Nat := 0
deriving DecidableEq, Repr

/-- An interpolation table (R122): 768 coefficients c0, c1, c2 (unlisted ones +0), its range and its tails. -/
structure Table where
  coeffs : SMap W32 := []
  lo : W16 := 0
  q : BitVec 4 := 0
  lmode : TailMode := .clamp
  umode : TailMode := .clamp
  k : W32 := 0
deriving DecidableEq, Repr

/-- A residency slot (R147) with the fill that runs into it (R155): source none for memory or some slot for a
replica, whether an engine runs it, the cycle before which it does not complete, its lookup order, bits 127:64 of the
leaf that names its homes, the bytes that twst merges into it (offset, value, mask), the request number at its lookup (R213), and its
parity bits (R147), bit 64i that of bytes 8i to 8i + 7; seq: the place in issue order of the tbind that fills it (R223); stale: its image has come back and its record is fetched on demand (R275). -/
structure TileSlot where
  v : Bool := false
  filling : Bool := false
  tag : Nat := 0
  part : Nat := 0
  pin : Bool := false
  data : List Byte := []
  source : Option Nat := none
  running : Bool := false
  due : Nat := 0
  order : Nat := 0
  hi : Nat := 0
  merges : List (Nat × Byte × Byte) := []
  born : Nat := 0
  par : Nat := 0
  seq : Option Nat := none
  stale : Bool := false
deriving DecidableEq, Repr

/-- A tile binding (R152): status code, slot, and the handle, generation and address tbind used
(R184). -/
structure Binding where
  status : Nat := 0
  slot : Nat := 0
  hnd : Nat := 0
  gen : BitVec 16 := 0
  va : Nat := 0
deriving DecidableEq, Repr

/-- One array of the beat machine (R161): AREG (encodings, their format, the scale), planes stepped, the slot of the group. -/
structure ArraySt where
  codes : List W16 := []
  sa : Byte := 0
  af : Fmt := .e4m3
  pc : Nat := 0
  gslot : Option Nat := none
deriving DecidableEq, Repr

/-- The beat machine (R161). -/
structure MatrixSt where
  scb : Nat := 0
  af : Fmt := .e4m3
  acc : Nat := 0
  dcb : Nat := 0
  df : Fmt := .f32
  rnd : Rnd := .rne
  ri : Nat := 0
  di : Nat := 0
  rl : Nat := 128
  rank : Bool := false
  arrays : SMap ArraySt := []
deriving DecidableEq, Repr

/-- The continuation a core runs (R253, R255): record address, context, partition, group, launching node, parameter
base and save area; dbg marks a freeze under the debug flag of R348, flagged is that flag as the pick-up loaded it (R367). -/
structure Running where
  recA : Nat
  ctx : Nat
  part : Nat
  group : Nat
  node : Nat
  param : Word
  frame : Nat
  dbg : Bool := false
  flagged : Bool := false
deriving DecidableEq, Repr

/-- The issue in progress: the slot, bundle, place in issue order, slot clock, base offset and re-issue index that the
meaning runs under, and what it leaves for the cycle: stalled, a trap record, a weight, a taken transfer. -/
structure Now where
  slot : Nat := 0
  adr : Nat := 0
  fall : Nat := 0
  idx : Nat := 0
  seq : Nat := 0
  install : Bool := true
  last : Bool := true
  safe : Bool := false
  skip : Bool := false
  clk : Nat := 0
  a0 : Word := 0
  k : Nat := 0
  taken : Bool := false
  stalled : Bool := false
  raised : Option TrapRec := none
  weight : Nat := 0
deriving DecidableEq, Repr

/-- A core (R14, R352): registers, slots, dispatch, matrix unit, trap and mark state. Core registers of the
system-register map live in sys under their numbers. dispAt is the entry that a disp reads in its four cycles (R81). downs
are the marked granules whose data met a bulkhead that is down (R311). slotCycle counts the cycles in which its slots were neither frozen nor
waiting for a refill. lastCtx is the context whose continuation it ran last, 4096 before it has run one. fills are the fills of words whose
release is still to come: the word's offset, the bundle issue and the slot (R223, R238). -/
structure Core where
  s : SMap Word := []
  p : BitVec 8 := 1
  v : SMap Vec := []
  h : SMap Handle := []
  cb : SMap Cb := []
  sys : SMap Word := []
  tlctx : SMap Word := []
  loops : List Loop := [{}, {}, {}, {}]
  slots : List SlotSt := [{}, {}, {}, {}, {}, {}, {}, {}]
  flights : List Flight := []
  scratch : Memory := []
  full : List Nat := []
  marks : List Nat := []
  downs : List Nat := []
  steep : Memory := []
  steepFull : List Nat := []
  steepMarks : List Nat := []
  tables : SMap Table := []
  at_ : SMap (List W32) := []
  tiles : SMap TileSlot := []
  tree : List Nat := []
  tb : SMap Binding := []
  mx : MatrixSt := {}
  prefetches : List (Nat × Nat × Nat × Nat) := []
  fillOrder : Nat := 0
  xcache : List (Nat × Nat × Nat) := []
  window : List Nat := []
  lastCtx : Nat := 4096
  cycle : Nat := 0
  slotCycle : Nat := 0
  felSeq : Nat := 0
  felHold : Nat := 0
  running : Option Running := none
  halted : Bool := false
  active : Bool := false
  pc : Nat := 0
  rptK : Nat := 0
  nextIdx : Nat := 0
  nextOrd : Nat := 0
  skipSlots : List Nat := []
  returns : Nat := 0
  elems : List Elem := []
  issues : List Issue := []
  brWait : Option Nat := none
  seg : Option Seg := none
  other : Option Seg := none
  expandLeft : Nat := 0
  refill : Nat := 0
  refillTo : Option (Nat × Nat) := none
  dispAt : Option Nat := none
  drain : Drain := .none
  downNote : Bool := false
  mark : MarkSt := {}
  frozen : Option Frozen := none
  preAge : Nat := 0
  entry : Nat := 0
  fills : List (Nat × Nat × Nat) := []
deriving DecidableEq, Repr

/-- A piece of a source as read (R282): offset in the row, status (0 good, 3 poison, else the failure), bytes. -/
structure Piece where
  off : Nat
  status : Nat
  bytes : List Byte
deriving DecidableEq, Repr

/-- A command of an engine context (R276, R279): its number, opcode, operands and extension, the core, context and
partition that issued it, and its place in issue order (none for a launched node, which waits for no core). Once started: the
record it read, the formats of a converting copy (source, destination, rounding), the row and the offset it has reached,
the row's table entry, a source buffered because it overlaps, and the error so far. done: its outcome, 0 for none. node:
the graph node it completes. restart: the restart record of a cpyr. begun: the row whose entry has been read; paying: it waits for
tokens (R307); bankf: BANKF0 to BANKF31 as a cpyr or a node's command latched them (R194); wrote: the bytes that a converting copy has
written. paid: the beats of its next requests that it has paid for (R307). cover: the ranges that it has written so far, (address, bytes), where
what is covered whole counts (R283, R372). -/
structure Command where
  num : Nat
  opc : Nat
  k : Nat
  a : Word
  b : Word
  ext : Option W32
  core : Nat
  ctx : Nat
  part : Nat
  after : Option (Nat × Nat × Nat) := none
  started : Bool := false
  words : List Word := []
  conv : Option (Fmt × Fmt × Rnd) := none
  row : Nat := 0
  off : Nat := 0
  entry : Word := 0
  buffer : List Piece := []
  err : Nat := 0
  done : Option Nat := none
  node : Nat := 0
  restart : Option Word := none
  begun : Option Nat := none
  paying : Bool := false
  bankf : List Word := []
  wrote : Nat := 0
  paid : Nat := 0
  cover : List (Nat × Nat) := []
deriving DecidableEq, Repr

/-- An engine context (R276): whether firmware granted it, its queue, COUNT, error record and next number. -/
structure EngCtx where
  granted : Bool := false
  ctx : Nat := 0
  queue : List Command := []
  count : Word := 0
  errn : Nat := 0
  errc : Nat := 0
deriving DecidableEq, Repr

/-- A group record (R267). A member is a continuation record (context, address); notifyCtx is the context of the join that gave NOTIFY. -/
structure Group where
  mem : Nat := 0
  arr : Nat := 0
  abn : Nat := 0
  notify : Nat := 0
  notifyCtx : Nat := 0
  ctx : Nat := 0
  members : List (Nat × Nat) := []
  arrived : List (Nat × Nat × Nat) := []
  waiters : List (Nat × Nat × Nat) := []
deriving DecidableEq, Repr

/-- A record waiting in a ready queue (R265). -/
structure Ready where
  recA : Nat
  ctx : Nat
  part : Nat
  level : Nat
  aff : Option Nat
  entered : Nat
  node : Nat
  param : Word
deriving DecidableEq, Repr

/-- An entry of a partition's safe-point table (R256): the bundle's address and the masks of what is live. -/
structure SafePoint where
  adr : Nat
  smask : Nat := 0
  vmask : Nat := 0
  cmask : Nat := 0
  hmask : Nat := 0
  pmask : Nat := 0
  lmask : Nat := 0
deriving DecidableEq, Repr

/-- A launch queue (R259). moving: a migration of its context holds it back (R345). -/
structure LaunchQueue where
  bound : Bool := false
  part : Nat := 0
  ctx : Nat := 0
  bulk : Nat := 0
  base : Nat := 0
  n : Nat := 0
  ci : Nat := 0
  pi : W32 := 0
  stopped : Bool := false
  moving : Bool := false
deriving DecidableEq, Repr

/-- A graph replay (R263): header address, context, partition and bulkhead; whether it has started and whether it is over;
the parameter base, the copy it comes from (2 for none) and its descriptor, and the nodes launched and not yet completed. -/
structure Replay where
  header : Nat
  ctx : Nat
  part : Nat
  bulk : Nat
  started : Bool := false
  ended : Bool := false
  base : Word := 0
  copy : Nat := 0
  desc : Nat := 0
  nodes : List Nat := []
deriving DecidableEq, Repr

/-- A collective contribution waiting for the others (R288): its instance, the engine and number of its command, opcode
and word 0 of its record, LEN, DST, the core, context and partition that issued it, its share as read, and the offsets of
poisoned pieces of it. num 0: its command has completed with an error already, and err is what later members get. -/
structure Contribution where
  part : Nat
  group : Nat
  key : Word
  eng : Nat
  num : Nat
  opc : Nat
  head : Word
  len : Nat
  dst : Word
  core : Nat
  ctx : Nat
  data : List Piece
  err : Nat := 10
deriving DecidableEq, Repr

/-- What a bulkhead's retention SRAM saves (R358). -/
structure Retained where
  groups : SMap Group := []
  ready : List Ready := []
  queues : SMap LaunchQueue := []
  engines : SMap EngCtx := []
  buctl : SMap Word := []
  pwrlim : SMap Word := []
deriving DecidableEq, Repr

/-- A physical bulkhead's control state (R355). busy counts nothing: it is the BUSY bit; switching: a time slice ends (R275). -/
structure Bulkhead where
  sched : Bool := true
  pre : Bool := false
  state : Nat := 0
  seqerr : Bool := false
  close : Bool := false
  closed : Bool := false
  save : Bool := false
  restore : Bool := false
  busy : Bool := false
  valid : Bool := false
  gate : Bool := false
  lock : Bool := true
  off : Bool := false
  pg : Bool := true
  req : Bool := false
  go : Bool := false
  done : Bool := false
  rstBusy : Bool := false
  sag : Bool := false
  retained : Retained := {}
  slice : Nat := 0
  switching : Bool := false
  images : List (Nat × List (Nat × Core)) := []
deriving DecidableEq, Repr

/-- An L2 line (R196, R198, R215, R304): whether a way of its home slice holds it, dirty, its owner context, pinned, held by the
sync engine, whether that keeps it in its own SRAM, its way, its home slice, the reads from other bulkheads that count for R302
(bulkhead, TIME), the helpers that hold a replica. -/
structure Line where
  v : Bool := false
  sram : Bool := false
  dirty : Bool := false
  owner : Nat := 0
  pinned : Bool := false
  held : Bool := false
  way : Nat := 0
  home : Nat := 0
  readers : List (Nat × Nat) := []
  replicas : List Nat := []
deriving DecidableEq, Repr

/-- The run of a bank unit's move machine (R319), and since when its row request has waited (R327). -/
structure MoveRun where
  copy : Nat := 0
  acc : W32 := 0
  acc1 : W32 := 0
  fmaA : W32 := 0
  addA : W32 := 0
  addR : W32 := 0
  mulA : W32 := 0
  mulR : W32 := 0
  cmpA : W32 := 0
  lc : W32 := 0
  g0 : Bool := false
  g1 : Bool := false
  kidx : W32 := 0xFFFFFFFF#32
  row : Option (List Byte) := none
  kel : Nat := 0
  qel : Nat := 0
  oidx : Nat := 0
  out : List Byte := []
  pc : Nat := 0
  moves : Nat := 0
  waitSince : Option Nat := none
  promoted : Bool := false
deriving DecidableEq, Repr

/-- A bank unit (R317, R319): the accepted command (its engine context, number, context and partition), the physical
address of its record and the leaf's bits there, the request number at its acceptance (R213), its program, query and formats, the copies of the key range with their windows, the output range
and how much of it has been written (R318), the runs in progress (the next move is the first one's), the results of the finished
ones by copy, and the context that it took last. -/
structure BankUnit where
  busy : Bool := false
  eng : Nat := 0
  num : Nat := 0
  ctx : Nat := 0
  part : Nat := 0
  dup : Bool := false
  recPa : Nat := 0
  recHome : Nat := 0
  prog : List W16 := []
  query : List Byte := []
  qfmt : Fmt := .f32
  kfmt : Fmt := .f32
  keys : List (Nat × Nat) := []
  out : Nat := 0
  olen : Nat := 0
  runs : List MoveRun := []
  results : SMap (Option (List Byte) × Nat) := []
  turn : Nat := 3
  recHi : Nat := 0
  wrote : Nat := 0
  born : Nat := 0
deriving DecidableEq, Repr

/-- A virtual function (R376, R377, R385): whether firmware bound it and to which partition, VF_ERR, the generation of the
host's translations (R378), the consent mailbox with its slot and status, the attestation nonce and address, and the number
of its first launch queue. -/
structure Vf where
  bound : Bool := false
  part : Nat := 0
  err : Nat := 0
  gen : Nat := 0
  mailbox : List Word := [0, 0, 0]
  slot : Nat := 0
  status : Nat := 0
  nonce : List Byte := []
  reportTo : Word := 0
  queueBase : Nat := 0
deriving DecidableEq, Repr

/-- A flit (R381): its lane, type, SEQ, source and destination module, the partition of its sender, ADR, payload and CRC. -/
structure Flit where
  vl : Nat
  kind : Nat
  seq : Nat
  src : Nat
  dst : Nat
  part : Nat
  adr : Nat
  payload : List Byte
  crc : Word := 0
deriving DecidableEq, Repr

/-- A Scair port (R381, R383): the lanes whose sender the other side has stopped and the flits that wait for them, the SEQ of each lane
to send and to receive next, the replay buffer, what it has put on the link (the last 512 flits), the requests in its receive buffer and
whether it has sent XOFF for them. -/
structure Port where
  up : Bool := true
  xoff : List Nat := []
  stopped : List Flit := []
  sendSeq : SMap Nat := []
  recvSeq : SMap Nat := []
  replay : List Flit := []
  wire : List Flit := []
  recv : List PeerReq := []
  full : Bool := false
  lastSend : Nat := 0
  lastRecv : Nat := 0
deriving DecidableEq, Repr

/-- An entry of the peer window table (R382). -/
structure PeerWindow where
  src : Nat
  part : Nat
  base : Nat
  len : Nat
  lpart : Nat
  lctx : Nat
  vbase : Nat
deriving DecidableEq, Repr

/-- A software context's migration (R345, R346): the bulkhead it moves to, and the ranges (virtual address, bytes) that have
been pulled; outside: it comes from another module, which brings the bytes of its pages. -/
structure Migration where
  ctx : Nat
  dest : Nat
  pulled : List (Nat × Nat)
  outside : Bool := false
deriving DecidableEq, Repr

/-- An entry of an arrival log that has not been replayed (R343, R344): its context and kind, the core whose state it is
for, the scratchpad offset or the record, the value of an answer, the bytes of a write, its fill flag and its poisoned pieces; more: the
words that it completes after earlier writes of its command (R283). -/
structure Arrival where
  ctx : Nat
  kind : Nat
  core : Nat
  tgt : Nat
  abn : Nat := 0
  data : List Byte := []
  fill : Bool := false
  bad : List (Nat × Nat) := []
  more : List Nat := []
deriving DecidableEq, Repr

/-- A token bucket (R307, R308): tokens times 2,000, the cycles waited, and RLCFG as the last pick-up of the context in the bulkhead
loaded it (R367), none before one. -/
structure Bucket where
  tokens : Int := 0
  wait : Nat := 0
  cfg : Option Word := none
deriving DecidableEq, Repr

/-- A message that a write to MB7 raises (R379): its core, partition and vector, and the place in issue order and slot of the sysw. -/
structure Message where
  core : Nat
  part : Nat
  vec : Nat
  seq : Nat
  slot : Nat
deriving DecidableEq, Repr

/-- An event that may happen next, with its operands. -/
structure Pending where
  event : Instr
  args : EvArgs
deriving DecidableEq, Repr

/-- What takes the next turn of a round: a core's cycle, or a move of a bank unit. -/
inductive Agent where
  | core (c : Nat)
  | bank (ch : Nat)
deriving DecidableEq, Repr

/-- The machine. The fields from cur on are the model's own (log entry 1): the core under the step, its issue, the
operands of the event under the step, the asynchronous events that may happen next, the counters of free choices and free values, and the turns left.
image: the flash image that the boot ROM loaded (R384).
frames: which partition firmware gave a range of frames to (first page, last page, partition), as far as it has told (R298, R310). -/
structure State where
  mem : Memory := []
  poison : List Nat := []
  frames : List (Nat × Nat × Nat) := []
  epochs : SMap Nat := []
  cores : SMap Core := []
  bulks : SMap Bulkhead := []
  hub : SMap Word := []
  buctl : SMap Word := []
  engines : SMap EngCtx := []
  ready : SMap (List Ready) := []
  queues : SMap LaunchQueue := []
  replays : List Replay := []
  nodeOwner : List (Nat × Nat × Nat) := []
  groups : SMap Group := []
  contribs : List Contribution := []
  lines : SMap Line := []
  l2tree : SMap (List Nat) := []
  pins : List (Nat × Nat × Nat × Nat) := []
  redirects : List (Nat × Nat × Nat) := []
  fabric : List Req := []
  replies : List (Nat × Reply × Nat) := []
  nextReq : Nat := 1
  banks : SMap BankUnit := []
  vfs : SMap Vf := []
  ports : SMap Port := []
  peers : List PeerWindow := []
  buckets : SMap Bucket := []
  migrations : List Migration := []
  alogs : SMap Nat := []
  arrivals : List Arrival := []
  faultNotes : List FaultNote := []
  ctxFaults : List (Nat × Nat) := []
  msix : List (Nat × Nat) := []
  msixWait : List Message := []
  invalidations : SMap Word := []
  safePoints : SMap (List SafePoint) := []
  savedAt : List (Nat × Nat × Nat) := []
  counters : SMap Nat := []
  freezes : SMap Nat := []
  committed : SMap Nat := []
  measures : SMap (List Byte) := []
  lcState : Nat := 2
  bootOk : Bool := true
  image : Nat := 0
  time : Nat := 0
  cur : Nat := 0
  now : Now := {}
  ev : EvArgs := {}
  pending : List Pending := []
  choice : Nat := 0
  free : Nat := 0
  agenda : List Agent := []
deriving DecidableEq, Repr

/-- The machine right after a module reset: every table empty, so that every register reads its reset value (Ops),
no continuation on any core, time 0. -/
def State.reset : State := {}

end Sys2Proof.Machine
end

