-- ==== Sys2Proof/WellFormed.lean ====
section
/-! DEFINITION. What a well-formed instruction is: the limits of spec/03 R44 to R46 and of each entry that the
operand types of Syntax do not already enforce. Every limit carries the cause code of R56. -/

namespace Sys2Proof

def Fmt.code : Fmt → Nat
  | .f32 => 0 | .bf16 => 1 | .f16 => 2 | .e4m3 => 3 | .e5m2 => 4 | .mk8 => 5 | .i8 => 6 | .i16 => 7 | .i32 => 8 | .i4 => 9

/-- Element width in bits (R107). -/
def Fmt.width : Fmt → Nat
  | .f32 => 32 | .bf16 => 16 | .f16 => 16 | .e4m3 => 8 | .e5m2 => 8 | .mk8 => 8 | .i8 => 8 | .i16 => 16 | .i32 => 32 | .i4 => 4

/-- Elements of a vector register, N(F) of R107. -/
def Fmt.lanes (f : Fmt) : Nat := 2048 / f.width

/-- The set FA of R109. -/
def Fmt.isFA : Fmt → Bool
  | .f32 | .bf16 | .f16 => true
  | .e4m3 | .e5m2 | .mk8 | .i8 | .i16 | .i32 | .i4 => false
/-- The set IA of R109. -/
def Fmt.isIA : Fmt → Bool
  | .i8 | .i16 | .i32 => true
  | .f32 | .bf16 | .f16 | .e4m3 | .e5m2 | .mk8 | .i4 => false
/-- The set N8 of R109. -/
def Fmt.isN8 : Fmt → Bool
  | .e4m3 | .e5m2 | .mk8 | .i8 | .i4 => true
  | .f32 | .bf16 | .f16 | .i16 | .i32 => false
/-- The floating formats (R84, R87). -/
def Fmt.isFloat : Fmt → Bool
  | .f32 | .bf16 | .f16 | .e4m3 | .e5m2 | .mk8 => true
  | .i8 | .i16 | .i32 | .i4 => false

def Rnd.code : Rnd → Nat
  | .rne => 0 | .rtz => 1 | .rdn => 2 | .rup => 3 | .sto => 4
def Scope.code : Scope → Nat
  | .core => 0 | .bulk => 1 | .dev => 2 | .sys => 3
def TailMode.code : TailMode → Nat
  | .clamp => 0 | .ident => 1 | .zero => 2 | .const => 3
def RowStep.code : RowStep → Nat
  | .next => 0 | .hold => 1 | .rewind => 2
def TlSel.code : TlSel → Nat
  | .count => 0 | .err => 1 | .errc => 2
def Step.code : Step → Nat
  | .zero => 0 | .plusZ => 1 | .minusZ => 2 | .plus2Z => 3 | .plus4Z => 4 | .plus8Z => 5 | .bytes _ => 6

/-- The immediate m of R65, sign-extended to 64 bits. -/
def Imm.value : Imm → Word
  | .short i => i.signExtend 64
  | .ext w => w.signExtend 64

/-- The third source, rounding mode, source format and immediate of a VR syllable (R47). -/
def cOf (x : Option VExt) : VReg := match x with | some e => e.c | none => 0
def rndOf (x : Option VExt) : Rnd := match x with | some e => e.rnd | none => .rne
def sfOf (f : Fmt) (x : Option VExt) : Fmt := match x with | some e => e.sf | none => f
def immOf (x : Option VExt) : Nat := match x with | some e => e.imm.toNat | none => 0

/-- The ratio of the wider to the narrower of two formats (R115). -/
def widthRatio (f g : Fmt) : Nat := max f.width g.width / min f.width g.width

/-- The limits shared by the entries that say that SF equals F (R109, R111, R113, R120). -/
def vrCommon (f : Fmt) (x : Option VExt) (ok : Bool) (more : List (Bool × Nat)) : List (Bool × Nat) :=
  (!ok, 6) :: (sfOf f x != f, 6) :: more

/-- Whether the SF field is 0 (its code of f32). -/
def sfClear (x : Option VExt) : Bool := match x with | some e => e.sf == .f32 | none => true
/-- The limits shared by the entries that name F and not SF: SF is an unused field and must be 0 (R109, R114, R121;
DEDUCED, log entry 10). -/
def vrPlain (x : Option VExt) (ok : Bool) (more : List (Bool × Nat)) : List (Bool × Nat) :=
  (!ok, 6) :: (!sfClear x, 3) :: more

/-- The system-register numbers that the map of R352 assigns. -/
def sysAssigned (n : Nat) : Bool :=
  n ≤ 0x00A || (0x010 ≤ n && n ≤ 0x014) || (0x018 ≤ n && n ≤ 0x027) || (0x030 ≤ n && n ≤ 0x036) || (0x040 ≤ n && n ≤ 0x07F)

/-- The lowest-numbered cause among the conditions that hold (R56). -/
def lowestCause : List (Bool × Nat) → Option Nat
  | [] => none
  | (c, n) :: rest =>
    match c, lowestCause rest with
    | false, r => r
    | true, none => some n
    | true, some m => some (min n m)

/-- The conditions of R45 and R56 that an instruction of Syntax can still meet, each with its cause (log entries 10 and 14). -/
def limitsOf : Instr → List (Bool × Nat)
  | .nop => []
  | .idle => []
  | .add _ _ _ _ _ => []
  | .sub _ _ _ _ _ => []
  | .mul _ _ _ _ _ => []
  | .mulhi _ _ _ _ _ => []
  | .mulhz _ _ _ _ _ => []
  | .div _ _ _ _ _ => []
  | .divz _ _ _ _ _ => []
  | .rem _ _ _ _ _ => []
  | .remz _ _ _ _ _ => []
  | .and _ _ _ _ => []
  | .or _ _ _ _ => []
  | .xor _ _ _ _ => []
  | .andn _ _ _ _ => []
  | .shl _ _ _ _ _ => []
  | .shr _ _ _ _ _ => []
  | .sra _ _ _ _ _ => []
  | .rol _ _ _ _ _ => []
  | .min _ _ _ _ _ => []
  | .max _ _ _ _ _ => []
  | .minz _ _ _ _ _ => []
  | .maxz _ _ _ _ _ => []
  | .addi _ _ _ _ => []
  | .andi _ _ _ _ => []
  | .ori _ _ _ _ => []
  | .xori _ _ _ _ => []
  | .shli _ _ _ m => [(!(m.value.toNat < 64), 6)]
  | .shri _ _ _ m => [(!(m.value.toNat < 64), 6)]
  | .srai _ _ _ m => [(!(m.value.toNat < 64), 6)]
  | .addiW _ _ _ _ => []
  | .shliW _ _ _ i => [(!(i.toNat < 32), 6)]
  | .shriW _ _ _ i => [(!(i.toNat < 32), 6)]
  | .sraiW _ _ _ i => [(!(i.toNat < 32), 6)]
  | .cmpeq _ _ _ _ _ => []
  | .cmpne _ _ _ _ _ => []
  | .cmplt _ _ _ _ _ => []
  | .cmple _ _ _ _ _ => []
  | .cmpltz _ _ _ _ _ => []
  | .cmplez _ _ _ _ _ => []
  | .cmpeqW _ _ _ _ _ => []
  | .cmpneW _ _ _ _ _ => []
  | .cmpltW _ _ _ _ _ => []
  | .cmpleW _ _ _ _ _ => []
  | .cmpltzW _ _ _ _ _ => []
  | .cmplezW _ _ _ _ _ => []
  | .pand _ _ _ _ _ _ => []
  | .por _ _ _ _ _ _ => []
  | .pxor _ _ _ _ _ _ => []
  | .pnot _ _ _ _ => []
  | .pset _ _ _ => []
  | .pget _ _ => []
  | .clz _ _ _ _ => []
  | .ctz _ _ _ _ => []
  | .popc _ _ _ _ => []
  | .bext _ _ _ _ => []
  | .bins _ _ _ _ => []
  | .sext _ _ _ i => [(!(1 ≤ i.toNat && i.toNat ≤ 63), 6)]
  | .zext _ _ _ i => [(!(1 ≤ i.toNat && i.toNat ≤ 63), 6)]
  | .mov _ _ _ => []
  | .li _ _ _ => []
  | .lih _ _ _ _ => []
  | .sysr _ _ n => [(!sysAssigned n.toNat, 6)]
  | .sysw _ _ n => [(!sysAssigned n.toNat, 6)]
  | .sysx _ _ n => [(!sysAssigned n.toNat, 6)]
  | .b _ _ => []
  | .bl _ _ => []
  | .br _ _ => []
  | .call _ _ _ => []
  | .ret _ _ => []
  | .disp _ _ _ => []
  | .loop _ _ _ _ => []
  | .loopi _ _ _ _ => []
  | .yield _ => []
  | .susp _ => []
  | .tend _ => []
  | .halt _ => []
  | .iwait _ _ i => [(!(1 ≤ i.toNat && i.toNat ≤ 31), 6)]
  | .trap _ i => [(!(i.toNat < 64), 6)]
  | .brk _ i => [(!(i.toNat < 64), 6)]
  | .eret _ => []
  | .ldb _ _ _ _ _ => []
  | .ldh _ _ _ _ _ => []
  | .ldw _ _ _ _ _ => []
  | .ldd _ _ _ _ _ => []
  | .ldbz _ _ _ _ _ => []
  | .ldhz _ _ _ _ _ => []
  | .ldwz _ _ _ _ _ => []
  | .stb _ _ _ _ _ => []
  | .sth _ _ _ _ _ => []
  | .stw _ _ _ _ _ => []
  | .std _ _ _ _ _ => []
  | .vld _ _ _ _ _ => []
  | .vst _ _ _ _ _ => []
  | .vldb _ _ _ _ _ => []
  | .cbput _ _ _ => []
  | .cbget _ _ _ => []
  | .ldc _ _ _ _ _ => []
  | .stc _ _ _ _ _ => []
  | .cbadvp _ _ _ => []
  | .cbadvc _ _ _ => []
  | .cbcfg _ _ _ t => [(t.code == 6, 5)]
  | .wld4 _ _ _ _ _ => []
  | .wld8 _ _ _ _ _ => []
  | .ldfe _ _ _ _ _ => []
  | .stef _ _ _ _ _ => []
  | .ldff _ _ _ _ _ => []
  | .stff _ _ _ _ _ => []
  | .feset _ _ _ _ => []
  | .feclr _ _ _ _ => []
  | .ldacq _ _ _ _ _ _ => []
  | .strel _ _ _ _ _ _ => []
  | .fence _ _ => []
  | .amoaddW _ _ _ _ _ _ _ => []
  | .amoaddD _ _ _ _ _ _ _ => []
  | .amoandW _ _ _ _ _ _ _ => []
  | .amoandD _ _ _ _ _ _ _ => []
  | .amoorW _ _ _ _ _ _ _ => []
  | .amoorD _ _ _ _ _ _ _ => []
  | .amoxorW _ _ _ _ _ _ _ => []
  | .amoxorD _ _ _ _ _ _ _ => []
  | .amominW _ _ _ _ _ _ _ => []
  | .amominD _ _ _ _ _ _ _ => []
  | .amomaxW _ _ _ _ _ _ _ => []
  | .amomaxD _ _ _ _ _ _ _ => []
  | .amominzW _ _ _ _ _ _ _ => []
  | .amominzD _ _ _ _ _ _ _ => []
  | .amomaxzW _ _ _ _ _ _ _ => []
  | .amomaxzD _ _ _ _ _ _ _ => []
  | .amoswpW _ _ _ _ _ _ _ => []
  | .amoswpD _ _ _ _ _ _ _ => []
  | .amocasW _ _ _ _ _ _ _ => []
  | .amocasD _ _ _ _ _ _ _ => []
  | .amofaddW _ _ _ _ _ _ _ => []
  | .tktwait _ _ _ _ => []
  | .tktdone _ _ _ => []
  | .xlat _ d _ _ => [(d.toNat == 15, 7)]
  | .hinv _ d => [(d.toNat == 15, 7)]
  | .hget _ _ _ _ => []
  | .hchk _ _ _ => []
  | .scld _ _ _ _ _ => []
  | .scst _ _ _ _ _ => []
  | .scaddW _ _ _ _ _ => []
  | .scaddD _ _ _ _ _ => []
  | .wbinv _ _ _ => []
  | .pfl2 _ _ _ => []
  | .vadd _ _ _ _ f x => vrCommon f x (f.isFA || f.isIA) [(cOf x != 0, 3), (immOf x != 0, 3)]
  | .vsub _ _ _ _ f x => vrCommon f x (f.isFA || f.isIA) [(cOf x != 0, 3), (immOf x != 0, 3)]
  | .vmul _ _ _ _ f x => vrCommon f x (f.isFA || f.isIA) [(cOf x != 0, 3), (immOf x != 0, 3)]
  | .vfma _ _ _ _ f x => vrCommon f x (f.isFA || f.isIA) [(immOf x != 0, 3)]
  | .vfms _ _ _ _ f x => vrCommon f x (f.isFA || f.isIA) [(immOf x != 0, 3)]
  | .vabs _ _ _ b f x => vrCommon f x (f.isFA || f.isIA) [(b != 0, 3), (cOf x != 0, 3), (immOf x != 0, 3), (rndOf x != .rne, 3)]
  | .vneg _ _ _ b f x => vrCommon f x (f.isFA || f.isIA) [(b != 0, 3), (cOf x != 0, 3), (immOf x != 0, 3), (rndOf x != .rne, 3)]
  | .vmin _ _ _ _ f x => vrCommon f x (f.isFA || f.isIA) [(cOf x != 0, 3), (immOf x != 0, 3), (rndOf x != .rne, 3)]
  | .vmax _ _ _ _ f x => vrCommon f x (f.isFA || f.isIA) [(cOf x != 0, 3), (immOf x != 0, 3), (rndOf x != .rne, 3)]
  | .vand _ _ _ _ => []
  | .vor _ _ _ _ => []
  | .vxor _ _ _ _ => []
  | .vshl _ _ _ _ f => [(!f.isIA, 6)]
  | .vshr _ _ _ _ f => [(!f.isIA, 6)]
  | .vsra _ _ _ _ f => [(!f.isIA, 6)]
  | .vcmpeq _ _ _ _ f x => vrCommon f x (f.isFA || f.isIA) [(cOf x != 0, 3), (immOf x != 0, 3), (rndOf x != .rne, 3)]
  | .vcmplt _ _ _ _ f x => vrCommon f x (f.isFA || f.isIA) [(cOf x != 0, 3), (immOf x != 0, 3), (rndOf x != .rne, 3)]
  | .vcmple _ _ _ _ f x => vrCommon f x (f.isFA || f.isIA) [(cOf x != 0, 3), (immOf x != 0, 3), (rndOf x != .rne, 3)]
  | .vsel _ _ _ _ f x => vrPlain x (f != .i4) [(immOf x != 0, 3), (rndOf x != .rne, 3)]
  | .vmov _ _ _ => []
  | .vzero _ _ => []
  | .viota _ _ a b f x => vrPlain x (f.isFA || f.isIA) [(a != 0, 3), (b != 0, 3), (cOf x != 0, 3)]
  | .vcvt _ _ _ b f x => [(b != 0, 3), (cOf x != 0, 3), (immOf x / 16 != 0, 3), (!(immOf x % 8 < widthRatio f (sfOf f x)), 6), (immOf x / 8 % 2 == 1 && !f.isFloat, 6)]
  | .vpack _ _ _ _ f x => [(cOf x != 0, 3), (immOf x % 8 != 0 || immOf x / 16 != 0, 3), ((sfOf f x).width != 2 * f.width, 6), (immOf x / 8 % 2 == 1 && !f.isFloat, 6)]
  | .vunpk _ _ _ b f x => [(b != 0, 3), (cOf x != 0, 3), (immOf x / 2 % 4 != 0 || immOf x / 16 != 0, 3), (f.width != 2 * (sfOf f x).width, 6), (immOf x / 8 % 2 == 1 && !f.isFloat, 6)]
  | .vquant _ _ _ b f x => [(cOf x != 0, 3), (immOf x != 0, 3), (((sfOf f x) == .bf16 || (sfOf f x) == .f16) && b != 0, 3), (!f.isN8 || !(sfOf f x).isFA, 6)]
  | .vdequant _ _ _ b f x => [(b != 0, 3), (cOf x != 0, 3), (immOf x / (if f == .bf16 then 1 else 2) != 0, 3), (!(f == .f32 || f == .bf16) || !(sfOf f x).isN8, 6)]
  | .vtld _ _ _ => []
  | .vtcfg _ _ a lmode umode lo _ => [(a != 0 && lmode != .const && umode != .const, 3), (lo.toNat / 128 % 256 == 255, 6)]
  | .vtab _ _ _ b f x => [(cOf x != 0, 3), (immOf x != 0, 3), (!(f.isFA && (sfOf f x).isFA && f.width == (sfOf f x).width), 6), (b.toNat > 3, 7)]
  | .vredsum _ _ _ b f x => [(b != 0, 3), (cOf x != 0, 3), (immOf x != 0, 3), (!((f.isFA && (sfOf f x).isFA) || (f.isIA && ((sfOf f x).isIA || (sfOf f x) == .i4) && (sfOf f x).width ≤ f.width)), 6)]
  | .vredmax _ _ _ b f x => vrCommon f x (f.isFA || f.isIA) [(b != 0, 3), (cOf x != 0, 3), (immOf x != 0, 3), (rndOf x != .rne, 3)]
  | .vredmin _ _ _ b f x => vrCommon f x (f.isFA || f.isIA) [(b != 0, 3), (cOf x != 0, 3), (immOf x != 0, 3), (rndOf x != .rne, 3)]
  | .vredarg _ _ _ b f x => [(b != 0, 3), (cOf x != 0, 3), (immOf x / 2 != 0, 3), (rndOf x != .rne, 3), (f != .i32 || !((sfOf f x).isFA || (sfOf f x).isIA), 6)]
  | .vscan _ _ _ b f x => [(b != 0, 3), (cOf x != 0, 3), (immOf x != 0, 3), (!((f.isFA && (sfOf f x).isFA && f.width == (sfOf f x).width) || (f.isIA && (sfOf f x).isIA)), 6)]
  | .vbcast _ _ _ b f x => vrPlain x (f != .i4) [(b != 0, 3), (cOf x != 0, 3), (rndOf x != .rne, 3), (!(immOf x < f.lanes), 6)]
  | .vins _ _ _ b f x => vrPlain x (f != .i4) [(b != 0, 3), (cOf x != 0, 3), (rndOf x != .rne, 3), (!(immOf x < f.lanes), 6)]
  | .vext _ _ _ b f x => vrPlain x (f != .i4) [(b != 0, 3), (cOf x != 0, 3), (rndOf x != .rne, 3), (!(immOf x < f.lanes), 6)]
  | .vperm _ _ _ _ f x => vrPlain x (f != .i4) [(cOf x != 0, 3), (rndOf x != .rne, 3), (immOf x != 0, 3)]
  | .vslide _ _ _ _ f x => vrPlain x (f != .i4) [(cOf x != 0, 3), (rndOf x != .rne, 3), (!(immOf x ≤ f.lanes), 6)]
  | .vrev _ _ _ b f x => vrPlain x (f != .i4) [(b != 0, 3), (cOf x != 0, 3), (rndOf x != .rne, 3), (immOf x != 0, 3)]
  | .mpush _ m s => [(m == 0 && s, 3)]
  | .mstep _ m s => [(m == 0 && s, 3)]
  | .macc _ m s _ => [(m == 0 && s, 3)]
  | .mdrain _ m s _ => [(m == 0 && s, 3)]
  | .mclr _ m s => [(m == 0 && s, 3)]
  | .mfill _ m s _ => [(m == 0 && s, 3)]
  | .mcfg _ _ af acc _ df _ => [(!(af == .bf16 || af == .e4m3 || af == .e5m2 || af == .mk8 || af == .i8), 6), (df == .i4, 6), (!(acc.toNat < 48), 7)]
  | .mmode _ _ => []
  | .mrowReg _ _ => []
  | .mrowImm _ k => [(!(k.toNat ≤ 128), 6)]
  | .tbind _ _ h _ _ => [(h.toNat == 15, 7)]
  | .tunbind _ _ => []
  | .tpin _ _ => []
  | .tunpin _ _ => []
  | .tpf _ h _ => [(h.toNat == 15, 7)]
  | .tinvAddr _ h _ => [(h.toNat == 15, 7)]
  | .tinvBinding _ _ => []
  | .twst _ _ _ _ => []
  | .twstRow _ _ _ _ => []
  | .tstat _ _ _ => []
  | .cpy _ _ _ _ _ _ => []
  | .cpy2 _ _ _ => []
  | .gath _ _ _ _ _ _ => []
  | .scat _ _ _ _ _ _ => []
  | .kvw _ _ _ _ => []
  | .cpyr _ _ _ => []
  | .cred _ _ _ => []
  | .cgath _ _ _ => []
  | .bul _ _ _ _ _ => []
  | .tlwait _ _ _ _ => []
  | .tlget _ _ _ _ => []
  | .tlsig _ _ _ => []
  | .gjoin _ _ _ => []
  | .gleave _ _ => []
  | .gbar _ _ _ => []
  | .gwait _ _ _ _ => []
  | .tspawn _ _ => []
  | .tdec _ _ => []
  | .tarm _ _ _ => []
  | .moveNull _ _ => []
  | .moveRowk _ _ => []
  | .moveFmaA _ _ => []
  | .moveFmaT _ _ => []
  | .moveAcc _ _ => []
  | .moveOut _ _ => []
  | .moveLcSet _ _ => []
  | .moveLcT _ _ => []
  | .moveBr _ _ => []
  | .moveEnd _ _ => []
  | .moveAcc1 _ _ => []
  | .moveFmaT1 _ _ => []
  | .moveAddA _ _ => []
  | .moveAddT _ _ => []
  | .moveMulA _ _ => []
  | .moveMulT _ _ => []
  | .moveCmpA _ _ => []
  | .moveCmpT _ _ => []
  | .bundleDispatch => []
  | .bundleIssue => []
  | .syncMet => []
  | .resultLanding => []
  | .cbFire => []
  | .cbCountRise => []
  | .replyArrival => []
  | .segmentExpansionComplete => []
  | .segmentRefillComplete => []
  | .tableSwap => []
  | .xlatComplete => []
  | .pginvWrite => []
  | .invalidationComplete => []
  | .waymaskWrite => []
  | .felWrite => []
  | .mb7Write => []
  | .mailboxWrite => []
  | .registerWrite => []
  | .tileFillComplete => []
  | .replicaCopyComplete => []
  | .prefetchFillStart => []
  | .scrub => []
  | .uncorrectableError => []
  | .preemptionRequest => []
  | .preemption => []
  | .preemptionOverdue => []
  | .continuationPickup => []
  | .continuationKill => []
  | .readyAgeing => []
  | .timeSliceSwitch => []
  | .launchQueueTake => []
  | .graphReplayStart => []
  | .graphReplayComplete => []
  | .nodeDecrement => []
  | .nodeArm => []
  | .engineCommandStart => []
  | .commandRetire => []
  | .remoteWindowWrite => []
  | .collectiveResult => []
  | .migration => []
  | .migrationPagePull => []
  | .bankUnitAccept => []
  | .bankUnitResult => []
  | .bankRequestPromotion => []
  | .homeApply => []
  | .hotLineWithdraw => []
  | .switchCombine => []
  | .combineHoldExpiry => []
  | .combinedReplySplit => []
  | .sailWheelApply => []
  | .rateLimitedSend => []
  | .fabricLinkFailure => []
  | .supplySag => []
  | .timerMatch => []
  | .faultReport => []
  | .bhSchedStop => []
  | .bhPreempt => []
  | .bhQuiesceAbandon => []
  | .quiesceComplete => []
  | .sluiceClose => []
  | .sluiceCloseComplete => []
  | .retentionSave => []
  | .retentionSaveComplete => []
  | .clockGate => []
  | .clockStopped => []
  | .railOff => []
  | .railDown => []
  | .railOn => []
  | .railUp => []
  | .clockUngate => []
  | .pllLock => []
  | .bhWipe => []
  | .wipeComplete => []
  | .retentionRestore => []
  | .retentionRestoreComplete => []
  | .sluiceOpen => []
  | .sluiceOpenComplete => []
  | .bhSchedResume => []
  | .bhWakeWrite => []
  | .coreRestart => []
  | .pwrlimWrite => []
  | .ptabWrite => []
  | .contextDescriptorWrite => []
  | .bhReset => []
  | .gkeyDestroy => []
  | .lifecycleRequest => []
  | .moduleReset => []
  | .lifetimeCounterCommit => []
  | .vfWake => []
  | .vfHinv => []
  | .consentSubmit => []
  | .attestationRequest => []
  | .atsInvalidation => []
  | .vfFlr => []
  | .pfFlr => []
  | .peerRequest => []
  | .scairHeartbeat => []
  | .scairXoff => []
  | .scairXon => []
  | .scairReplayRequest => []
  | .scairLinkDown => []
  | .scairFlitCrcFailure => []
  | .orderlyPowerDown => []
  | .migrationBackgroundPush => []
  | .debugFreezeResume => []

/-- A well-formed instruction meets none of the conditions of R56. -/
def WellFormed (i : Instr) : Bool := lowestCause (limitsOf i) == none

end Sys2Proof
end

