-- ==== Sys2Proof/Machine/Formats.lean ====
section
/-! DEFINITION. Number formats, rounding and conversion (spec/05 R84 to R102), on exact numbers. Every rounding
returns the encoding and the kind of event of R103 (0 for none). -/

namespace Sys2Proof.Machine

def pow2 (n : Nat) : Nat := 2 ^ n

/-- Mantissa width, exponent width and bias of a float format (R84). -/
def floatShape (f : Fmt) : Nat × Nat × Nat :=
  match f with
  | .f32 => (23, 8, 127)
  | .bf16 => (7, 8, 127)
  | .f16 => (10, 5, 15)
  | .e4m3 => (3, 4, 7)
  | .e5m2 => (2, 5, 15)
  | .mk8 | .i8 | .i16 | .i32 | .i4 => (0, 0, 0)

/-- The magnitude code of the largest finite value (R84, R87). -/
def maxCode (f : Fmt) : Nat :=
  match f with
  | .f32 => 0x7F7FFFFF
  | .bf16 => 0x7F7F
  | .f16 => 0x7BFF
  | .e4m3 => 0x7E
  | .e5m2 => 0x7B
  | .mk8 => 0x7F
  | .i8 => 0x7F
  | .i16 => 0x7FFF
  | .i32 => 0x7FFFFFFF
  | .i4 => 7

/-- The canonical NaN, NaR for MK8 (R85, R87); an integer format has none and reads 0 (R96). -/
def canonicalNaN (f : Fmt) : Nat :=
  match f with
  | .f32 => 0x7FC00000
  | .bf16 => 0x7FC0
  | .f16 => 0x7E00
  | .e4m3 => 0x7F
  | .e5m2 => 0x7E
  | .mk8 => 0x80
  | .i8 | .i16 | .i32 | .i4 => 0

/-- The magnitude code of infinity, where the format has one (R85). -/
def infCode (f : Fmt) : Option Nat :=
  match f with
  | .f32 => some 0x7F800000
  | .bf16 => some 0x7F80
  | .f16 => some 0x7C00
  | .e5m2 => some 0x7C
  | .e4m3 | .mk8 | .i8 | .i16 | .i32 | .i4 => none

def signBit (f : Fmt) : Nat := pow2 (f.width - 1)

/-- Decodes an IEEE-style magnitude code (R84). -/
def decodeMagnitude (f : Fmt) (neg : Bool) (c : Nat) : FVal :=
  let (m, _, bias) := floatShape f
  let e := c / pow2 m
  let frac := c % pow2 m
  if e == 0 then .fin neg frac (1 - (bias : Int) - m)
  else .fin neg (pow2 m + frac) ((e : Int) - bias - m)

/-- The marker decoding of an MK8 magnitude code c ≠ 0 (R87): fraction width and exponent of its binade. -/
def mk8Shape (c : Nat) : Nat × Int :=
  let k := 6 - c.log2
  if k == 0 then (4, 3 + ((c / 16 % 4 : Nat) : Int))
  else if k == 1 then (3, -1 + ((c / 8 % 4 : Nat) : Int))
  else if k == 2 then (2, -5 + ((c / 4 % 4 : Nat) : Int))
  else if k == 3 then (1, -9 + ((c / 2 % 4 : Nat) : Int))
  else if k == 4 then (0, -13 + ((c % 4 : Nat) : Int))
  else if k == 5 then (0, -15 + ((c % 2 : Nat) : Int))
  else (0, -16)

def intVal (v : Int) : FVal := .fin (v < 0) v.natAbs 0

/-- decode of R84 to R89. -/
def decodeNum (f : Fmt) (code : Nat) : FVal :=
  match f with
  | .i8 => intVal (sxNat 8 code)
  | .i16 => intVal (sxNat 16 code)
  | .i32 => intVal (sxNat 32 code)
  | .i4 => intVal (sxNat 4 code)
  | .mk8 =>
    let c := code % 128
    let neg := code / 128 % 2 == 1
    if c == 0 then (if neg then .nan else .fin false 0 0)
    else
      let (w, e) := mk8Shape c
      .fin neg (pow2 w + c % pow2 w) (e - w)
  | .e4m3 =>
    let c := code % 128
    if c == 0x7F then .nan else decodeMagnitude .e4m3 (code / 128 % 2 == 1) c
  | .f32 | .bf16 | .f16 | .e5m2 =>
    let s := signBit f
    let c := code % s
    let neg := code / s % 2 == 1
    match infCode f with
    | some i => if c == i then .inf neg else if c > i then .nan else decodeMagnitude f neg c
    | none => decodeMagnitude f neg c

/-- The value of bit p of the code space below a magnitude: the code rounded down, and the rest of the value as a
fraction num / den of the step to the next code (R88, R91). The magnitude is mag * 2^exp, mag ≠ 0. -/
def codeBelow (f : Fmt) (mag : Nat) (exp : Int) : Nat × Nat × Nat :=
  let e : Int := (mag.log2 : Int) + exp
  -- the code is base + floor(value / 2^q - bias)
  let (base, q, less) : Int × Int × Nat :=
    match f with
    | .mk8 =>
      if e ≥ 3 then (0x40 + (e - 3) * 16, e - 4, 16)
      else if e ≥ -1 then (0x20 + (e + 1) * 8, e - 3, 8)
      else if e ≥ -5 then (0x10 + (e + 5) * 4, e - 2, 4)
      else if e ≥ -9 then (0x08 + (e + 9) * 2, e - 1, 2)
      else if e ≥ -13 then (0x04 + (e + 13), e, 1)
      else if e ≥ -15 then (0x02 + (e + 15), e, 1)
      else (0, -16, 0)
    | .i8 | .i16 | .i32 | .i4 => (0, 0, 0)
    | .f32 | .bf16 | .f16 | .e4m3 | .e5m2 =>
      let (m, _, bias) := floatShape f
      let emin : Int := 1 - (bias : Int)
      let ee := max e emin
      ((ee - emin) * (pow2 m : Nat), ee - m, 0)
  let sh : Int := exp - q
  let num := if sh ≥ 0 then mag * pow2 sh.toNat else mag
  let den := if sh ≥ 0 then 1 else pow2 (-sh).toNat
  (base.toNat + num / den - less, num % den, den)

/-- Which neighbour R91 takes for a magnitude between two codes: true is the larger magnitude. num / den is the
fraction of the step, r the random integer of R93. -/
def roundsAway (mode : Rnd) (neg : Bool) (low num den r : Nat) : Bool :=
  match mode with
  | .rne => 2 * num > den || (2 * num == den && low % 2 == 1)
  | .rtz => false
  | .rdn => neg
  | .rup => !neg
  | .sto => if neg then !(r * den < pow2 24 * (den - num)) else r * den < pow2 24 * num

/-- Whether R92 turns an overflow into an infinity (the IEEE rule); sto gives an infinity on both sides (DEDUCED, log entry 11). -/
def overflowToInf (mode : Rnd) (neg : Bool) : Bool :=
  match mode with
  | .rne | .sto => true
  | .rtz => false
  | .rdn => neg
  | .rup => !neg

/-- How a value beyond the finite range is treated: R92 itself, the sat of R95, or the overflow form of R95. -/
inductive Range where
  | plain | sat | overflow
deriving DecidableEq, Repr

/-- Signs a magnitude code; MK8 has no negative zero (R87). -/
def withSign (f : Fmt) (neg : Bool) (c : Nat) : Nat :=
  if neg && !(f == .mk8 && c == 0) then signBit f + c else c

/-- Rounds to an integer format and saturates (R91, R96, R98). -/
def roundInt (f : Fmt) (mode : Rnd) (r : Nat) (x : FVal) : Nat × Nat :=
  let w := f.width
  let put (neg : Bool) (n : Nat) : Nat := if neg then (pow2 w - n) % pow2 w else n
  match x with
  | .nan => (0, 1)
  | .inf neg => (put neg (if neg then pow2 (w - 1) else pow2 (w - 1) - 1), 5)
  | .fin neg mag exp =>
    if mag == 0 then (0, 0)
    else
      let (low, num, den) := codeBelow f mag exp
      let n := if num != 0 && roundsAway mode neg low num den r then low + 1 else low
      let lim := if neg then pow2 (w - 1) else pow2 (w - 1) - 1
      if n > lim then (put neg lim, 5) else if n == 0 then (0, 3) else (put neg n, 0)

/-- Rounds to a floating format (R91, R92, R95, R98, R99). Under sat every value beyond the finite range is a saturation,
whatever its rounded code (R96; DEDUCED, log entry 89). In the overflow form an overflow gives an infinity in every mode,
where the format has one (R95; DEDUCED, log entry 90). -/
def roundFloat (f : Fmt) (mode : Rnd) (r : Nat) (range : Range) (x : FVal) : Nat × Nat :=
  match x with
  | .nan => (canonicalNaN f, 0)
  | .inf neg =>
    match infCode f, range with
    | some i, .plain => (withSign f neg i, 0)
    | some i, .overflow => (withSign f neg i, 0)
    | some _, .sat => (withSign f neg (maxCode f), 5)
    | none, _ => (withSign f neg (maxCode f), 5)
  | .fin neg mag exp =>
    if mag == 0 then (withSign f neg 0, 0)
    else
      let (low, num, den) := codeBelow f mag exp
      let c := if num != 0 && roundsAway mode neg low num den r then low + 1 else low
      if c == 0 then (withSign f neg 0, 3)
      else if range == .sat && (low > maxCode f || (low == maxCode f && num != 0)) then (withSign f neg (maxCode f), 5)
      else if c ≤ maxCode f then (withSign f neg c, 0)
      else
        match range, f with
        | .overflow, .e4m3 => (canonicalNaN .e4m3, 2)
        | .overflow, .mk8 => (canonicalNaN .mk8, 2)
        | .overflow, _ => (withSign f neg ((infCode f).getD (maxCode f)), 2)
        | .plain, .e4m3 | .plain, .e5m2 | .plain, .mk8 => (withSign f neg (maxCode f), 5)
        | _, _ =>
          if overflowToInf mode neg then (withSign f neg ((infCode f).getD (maxCode f)), 2)
          else (withSign f neg (maxCode f), 2)

/-- round(fmt, x, mode) of R91 and R92. -/
def roundNum (f : Fmt) (mode : Rnd) (r : Nat) (x : FVal) : Nat × Nat :=
  if f.isFloat then roundFloat f mode r .plain x else roundInt f mode r x

/-- A conversion of one element (R95, R96); ov selects the overflow form. -/
def convertNum (dst src : Fmt) (mode : Rnd) (ov : Bool) (r : Nat) (code : Nat) : Nat × Nat :=
  let x := decodeNum src code
  if dst.isFloat then roundFloat dst mode r (if ov then .overflow else .sat) x else roundInt dst mode r x

def signed (neg : Bool) (n : Nat) : Int := if neg then -(n : Int) else n

/-- Exact sum (R99): the flag tells an invalid Inf - Inf (R103). An exact zero of opposite signs is +0, -0 under rdn. -/
def addNum (rdn : Bool) (x y : FVal) : FVal × Bool :=
  match x, y with
  | .nan, _ => (.nan, false)
  | _, .nan => (.nan, false)
  | .inf a, .inf b => if a == b then (.inf a, false) else (.nan, true)
  | .inf a, .fin _ _ _ => (.inf a, false)
  | .fin _ _ _, .inf b => (.inf b, false)
  | .fin a m e, .fin b n g =>
    let lo := min e g
    let v := signed a m * (pow2 (e - lo).toNat : Nat) + signed b n * (pow2 (g - lo).toNat : Nat)
    if v == 0 then (.fin (if a == b then a else rdn) 0 0, false)
    else (.fin (v < 0) v.natAbs lo, false)

/-- Exact product; the flag tells an invalid 0 × Inf. -/
def mulNum (x y : FVal) : FVal × Bool :=
  match x, y with
  | .nan, _ => (.nan, false)
  | _, .nan => (.nan, false)
  | .inf a, .inf b => (.inf (a != b), false)
  | .inf a, .fin b n _ => if n == 0 then (.nan, true) else (.inf (a != b), false)
  | .fin a m _, .inf b => if m == 0 then (.nan, true) else (.inf (a != b), false)
  | .fin a m e, .fin b n g => (.fin (a != b) (m * n) (e + g), false)

def negNum (x : FVal) : FVal :=
  match x with
  | .nan => .nan
  | .inf a => .inf (!a)
  | .fin a m e => .fin (!a) m e

/-- a × b + c in one exact step (R111). -/
def fmaNum (rdn : Bool) (a b c : FVal) : FVal × Bool :=
  let (p, bad) := mulNum a b
  let (s, bad2) := addNum rdn p c
  match c with
  | .nan => (.nan, false)
  | _ => (s, bad || bad2)

/-- x × 2^n exactly (block scales, R90). -/
def scaleNum (x : FVal) (n : Int) : FVal :=
  match x with
  | .nan => .nan
  | .inf a => .inf a
  | .fin a m e => .fin a m (e + n)

def isNaN (x : FVal) : Bool := match x with | .nan => true | _ => false
def isInf (x : FVal) : Bool := match x with | .inf _ => true | _ => false
def isZero (x : FVal) : Bool := match x with | .fin _ m _ => m == 0 | _ => false

/-- The order of the real line with infinities, zeros equal; NaN is never less. -/
def ltNum (x y : FVal) : Bool :=
  match x, y with
  | .nan, _ => false
  | _, .nan => false
  | .inf a, .inf b => a && !b
  | .inf a, .fin _ _ _ => a
  | .fin _ _ _, .inf b => !b
  | .fin a m e, .fin b n g =>
    let lo := min e g
    signed a m * (pow2 (e - lo).toNat : Nat) < signed b n * (pow2 (g - lo).toNat : Nat)

def eqNum (x y : FVal) : Bool := !isNaN x && !isNaN y && !ltNum x y && !ltNum y x

def isNeg (x : FVal) : Bool := match x with | .nan => false | .inf a => a | .fin a _ _ => a

/-- The ranking of vredmax, vredmin, vmin and vmax: as ltNum with -0 below +0 (R101, R111). -/
def ltRank (x y : FVal) : Bool := ltNum x y || (isZero x && isZero y && isNeg x && !isNeg y)

/-- The priorities of R103: invalid, overflow, saturation, underflow, incomplete. -/
def kindRank (k : Nat) : Nat :=
  match k with
  | 1 => 5 | 2 => 4 | 5 => 3 | 3 => 2 | 4 => 1
  | _ => 0
def worseKind (a b : Nat) : Nat := if kindRank b > kindRank a then b else a

/-- A lane result: the exact value rounded once, with its event; an invalid operation records kind 1 (R110, R103). -/
def laneRound (f : Fmt) (mode : Rnd) (r : Nat) (x : FVal × Bool) : Nat × Nat :=
  if x.2 then (canonicalNaN f, 1) else roundNum f mode r x.1

/-- round(f32, x + y, rne) on decoded values (R101, R102, R288). -/
def addF32 (x y : FVal) : FVal × Nat :=
  let (c, k) := laneRound .f32 .rne 0 (addNum false x y)
  (decodeNum .f32 c, k)

/-- The largest finite value of a block format (R118). -/
def blockMax (f : Fmt) : Nat :=
  match f with
  | .e4m3 => 448
  | .e5m2 => 57344
  | .mk8 => 124
  | .i8 => 127
  | .i4 => 7
  | .f32 | .bf16 | .f16 | .i16 | .i32 => 1

/-- The smallest t with mag * 2^exp ≤ mx * 2^t. -/
def ceilLog2Ratio (mag : Nat) (exp : Int) (mx : Nat) : Int :=
  let t : Int := (mag.log2 : Int) + exp - (mx.log2 : Int)
  let d := exp - t
  let le := if d ≥ 0 then mag * pow2 d.toNat ≤ mx else mag ≤ mx * pow2 (-d).toNat
  if le then t else t + 1

def maxMag (xs : List FVal) : Nat × Int :=
  xs.foldl (fun acc x =>
    match x with
    | .fin _ m e => if ltNum (.fin false acc.1 acc.2) (.fin false m e) then (m, e) else acc
    | _ => acc) (0, 0)

/-- The scale and the element codes of a block quantised from 128 values (R118), with the block's event. rs gives the
random integer of each element. -/
def quantBlock (f : Fmt) (mode : Rnd) (rs : Nat → Nat) (xs : List FVal) : Nat × List Nat × Nat :=
  if xs.any (fun x => isNaN x || isInf x) then (0xFF, xs.map (fun _ => 0), if xs.any isInf then 1 else 0)
  else
    let (m, e) := maxMag xs
    let scale : Int := if m == 0 then 127 else max 0 (min 254 (127 + ceilLog2Ratio m e (blockMax f)))
    let res := (xs.zipIdx).map (fun (x, i) =>
      let y := scaleNum x (127 - scale)
      if f.isFloat then roundFloat f mode (rs i) .sat y else roundInt f mode (rs i) y)
    (scale.toNat, res.map (·.1), res.foldl (fun k p => worseKind k p.2) 0)

/-- mix of R93. -/
def mix64 (z0 : Word) : Word :=
  let z1 := (z0 ^^^ (z0 >>> 30)) * 0xBF58476D1CE4E5B9#64
  let z2 := (z1 ^^^ (z1 >>> 27)) * 0x94D049BB133111EB#64
  z2 ^^^ (z2 >>> 31)

/-- The 24-bit random integer of R93. -/
def stoRandom (seed : Word) (adr : Nat) (lc : List W32) (idx sl el : Nat) : Nat :=
  let l (i : Nat) : Nat := (lc.getD i 0).toNat
  let h1 := mix64 (seed ^^^ BitVec.ofNat 64 adr)
  let h2 := mix64 (h1 ^^^ BitVec.ofNat 64 (l 0 + l 1 * 4294967296))
  let h3 := mix64 (h2 ^^^ BitVec.ofNat 64 (l 2 + l 3 * 4294967296))
  let h4 := mix64 (h3 ^^^ BitVec.ofNat 64 (idx + sl * 4294967296 + el * 1099511627776))
  h4.toNat / pow2 40

end Sys2Proof.Machine
end

