-- ==== Sys2Proof/Config.lean ====
section
/-! DEFINITION. What the spec leaves open and what an implementation fixes. The opaque constants are free values:
nothing can evaluate them, so a claim holds whatever they are. -/

namespace Sys2Proof.Config

/-- Which pending event, or the agent whose turn it is, comes next: the times outside a core are open (R282, R340 and
log entries 1 and 86). -/
opaque pick : Nat → Nat

/-- A fresh 64-bit value the spec leaves open, by the machine's counter of free values. -/
opaque freeWord : Nat → BitVec 64

/-- The element index EL of R93 for mfill, which no entry states: by the row index, the element's place and the column. -/
opaque fillElement : Nat → Nat → Nat → BitVec 16

/-- A byte that a peer module answers with (R382), by the counter of free values and the address, and whether its reply brings poison. -/
opaque peerByte : Nat → Nat → BitVec 8
opaque peerPoison : Nat → Bool
/-- The module's own number, and the CRC-64 over bits 1983:0 of a flit (R381): the spec gives no polynomial. -/
opaque moduleNumber : BitVec 12
opaque crc64 : Nat → BitVec 64
/-- The flits that the receive buffer of a lane holds before it sends XOFF (R381): enough for the round trip of the link. -/
opaque receiveFlits : Nat

/-- The true random source (R372, R374), by the counter of free values. -/
opaque randomBytes : Nat → List (BitVec 8)

/-- SHA-512 of R374, R384 and R385: the spec names the function and does not define it. -/
opaque sha512 : List (BitVec 8) → List (BitVec 8)

/-- Ed25519 verification with the key of an unrevoked fuse slot (R374, R384): signature, message. -/
opaque verify : List (BitVec 8) → List (BitVec 8) → Bool

/-- Ed25519 signing with the module's identity key (R385). -/
opaque sign : List (BitVec 8) → List (BitVec 8)

/-- The identity public key (R385). -/
opaque identityKey : List (BitVec 8)
/-- The image in the hub flash at a boot, by the counter of free values (R384): its bytes, public key, signature and security version. -/
opaque flashImage : Nat → List (BitVec 8)
opaque imageKey : Nat → List (BitVec 8)
opaque imageSignature : Nat → List (BitVec 8)
opaque imageVersion : Nat → BitVec 32
/-- Ed25519 verification (R384): public key, signature, message. -/
opaque ed25519 : List (BitVec 8) → List (BitVec 8) → List (BitVec 8) → Bool
/-- The fuses (R384): the digests of the unrevoked ones of the four key slots, and the least security version. -/
opaque fuseKeys : List (List (BitVec 8))
opaque fuseVersion : BitVec 32
/-- The temperature of the module's hottest sensor in whole degrees Celsius, by TIME (R386). -/
opaque hottest : Nat → Int
/-- Whether a partition owns every page from one to another (R204, R369), as firmware that maps them knows. -/
opaque ownsPages : Nat → Nat → Nat → Nat → Bool

/-- The host's ATS translation of an I/O virtual address for a partition's function (R378), by the generation of its
translations: none where it fails. -/
opaque hostTranslate : Nat → Nat → Nat → Option Nat

end Sys2Proof.Config
end

