-- ==== Sys2Proof/Machine/Store.lean ====
section
/-! DEFINITION. Tables, memory bytes, registers and units: the accessors that every operation is written with. -/

namespace Sys2Proof.Machine

/-! Sparse tables. -/

/-- What key k reads as; d for an unlisted key. -/
def mget {α : Type} (d : α) : SMap α → Nat → α
  | [], _ => d
  | (j, v) :: m, k => if j = k then v else mget d m k

def mfind {α : Type} : SMap α → Nat → Option α
  | [], _ => none
  | (j, v) :: m, k => if j = k then some v else mfind m k

def merase {α : Type} : SMap α → Nat → SMap α
  | [], _ => []
  | (j, v) :: m, k => if j = k then merase m k else (j, v) :: merase m k

/-- Writes key k, keeping the keys rising. -/
def mput {α : Type} : SMap α → Nat → α → SMap α
  | [], k, v => [(k, v)]
  | (j, w) :: m, k, v => if k < j then (k, v) :: (j, w) :: m else if j = k then (k, v) :: m else (j, w) :: mput m k v

/-- Writes key k; the value an unlisted key reads as removes the entry. -/
def mset {α : Type} [DecidableEq α] (d : α) (m : SMap α) (k : Nat) (v : α) : SMap α :=
  if v = d then merase m k else mput m k v

/-- Sets of numbers as rising lists (poison marks, full bits). -/
def sadd : List Nat → Nat → List Nat
  | [], k => [k]
  | j :: m, k => if k < j then k :: j :: m else if j = k then j :: m else j :: sadd m k
def sdel (m : List Nat) (k : Nat) : List Nat := m.filter (· != k)
def shas (m : List Nat) (k : Nat) : Bool := m.contains k

/-! Memory: an unlisted byte reads 0. -/

/-- One byte of memory. -/
def Memory.byte : Memory → Nat → Byte
  | [], _ => 0
  | (x, b) :: m, a => if x = a then b else Memory.byte m a

/-- n bytes from a list whose first entry is at a or above. -/
def Memory.fill : Nat → Nat → Memory → List Byte
  | 0, _, _ => []
  | n + 1, a, [] => 0 :: Memory.fill n (a + 1) []
  | n + 1, a, (x, b) :: m => if x = a then b :: Memory.fill n (a + 1) m else 0 :: Memory.fill n (a + 1) ((x, b) :: m)

/-- The n bytes from a on. -/
def Memory.read (m : Memory) (a n : Nat) : List Byte := Memory.fill n a (m.dropWhile (fun c => c.1 < a))

/-- The non-zero bytes of a range as cells. -/
def Memory.cells (a : Nat) : List Byte → Memory
  | [] => []
  | b :: bs => if b = 0 then Memory.cells (a + 1) bs else (a, b) :: Memory.cells (a + 1) bs

/-- Writes a range of bytes, keeping the canonical form. -/
def Memory.write (m : Memory) (a : Nat) (bs : List Byte) : Memory :=
  m.takeWhile (fun c => c.1 < a) ++ Memory.cells a bs ++ m.dropWhile (fun c => c.1 < a + bs.length)

/-- The canonical form: rising addresses, no entry that reads as an unlisted one. -/
def Memory.wfFrom : Nat → Memory → Bool
  | _, [] => true
  | lo, (x, b) :: m => lo ≤ x && b != 0 && Memory.wfFrom (x + 1) m
def Memory.wf (m : Memory) : Bool := Memory.wfFrom 0 m

/-! Bytes and numbers, least significant byte first (R3). -/

def bytesToNat : List Byte → Nat
  | [] => 0
  | b :: bs => b.toNat + 256 * bytesToNat bs
def natToBytes : Nat → Nat → List Byte
  | 0, _ => []
  | n + 1, v => BitVec.ofNat 8 v :: natToBytes n (v / 256)
def bytesToWord (bs : List Byte) : Word := BitVec.ofNat 64 (bytesToNat bs)
/-- Splits a list into pieces of n. -/
def chunks {α : Type} (n : Nat) : Nat → List α → List (List α)
  | 0, _ => []
  | k + 1, xs => xs.take n :: chunks n k (xs.drop n)
/-- Bits lo + n - 1 to lo. -/
def bits (v lo n : Nat) : Nat := v / 2 ^ lo % 2 ^ n
def wbits (w : Word) (lo n : Nat) : Nat := bits w.toNat lo n
def wbit (w : Word) (i : Nat) : Bool := bits w.toNat i 1 == 1
/-- w with bits lo + n - 1 to lo replaced by v. -/
def wput (w : Word) (lo n v : Nat) : Word :=
  BitVec.ofNat 64 (w.toNat - bits w.toNat lo n * 2 ^ lo + v % 2 ^ n * 2 ^ lo)
/-- The new value of a register whose writable bits are mask (R6). -/
def wmask (mask old new : Word) : Word := (old &&& ~~~mask) ||| (new &&& mask)
def b2n (b : Bool) : Nat := if b then 1 else 0
/-- Whether two ranges of n and m places overlap. -/
def overlaps (a n b m : Nat) : Bool := a < b + m && b < a + n
def alignDown (a n : Nat) : Nat := a - a % n
def listSet {α : Type} (xs : List α) (i : Nat) (v : α) : List α := xs.set i v

/-- The lanes of a vector value, w bits each, lane 0 first (R107). -/
def lanesOf (w : Nat) : Nat → Nat → List Nat
  | 0, _ => []
  | n + 1, v => v % 2 ^ w :: lanesOf w n (v / 2 ^ w)
def packLanes (w : Nat) : List Nat → Nat
  | [] => 0
  | x :: xs => x % 2 ^ w + 2 ^ w * packLanes w xs
def vecLanes (f : Fmt) (v : Vec) : List Nat := lanesOf f.width (2048 / f.width) v.toNat
def vecOf (f : Fmt) (xs : List Nat) : Vec := BitVec.ofNat 2048 (packLanes f.width xs)
def vecBytes (v : Vec) : List Byte := natToBytes 256 v.toNat
def bytesVec (bs : List Byte) : Vec := BitVec.ofNat 2048 (bytesToNat bs)

/-- The numbers below n whose bit is set in a mask. -/
def liveBits (mask n : Nat) : List Nat := (List.range n).filter (fun i => bits mask i 1 == 1)

/-! Pseudo-LRU trees over 2^d leaves, the nodes numbered from 1 and the leaves from 2^d (R150, R304). -/

/-- The leaves below node i with d levels to go. -/
def leavesBelow (i d : Nat) : List Nat := (List.range (2 ^ d)).map (· + i * 2 ^ d)
/-- The walk of a tree from node i, d levels above the leaves: the leaf it ends at, less base. -/
def treeWalk (base : Nat) (tree : List Nat) (cand : Nat → Bool) : Nat → Nat → Nat
  | 0, i => i - base
  | d + 1, i =>
    let bit := b2n (tree.contains i)
    if (leavesBelow (2 * i + bit) d).any (fun l => cand (l - base)) then treeWalk base tree cand d (2 * i + bit)
    else treeWalk base tree cand d (2 * i + 1 - bit)
/-- Points every node above a leaf away from it. -/
def touchFrom (tree : List Nat) : Nat → Nat → List Nat
  | 0, _ => tree
  | n + 1, j => if j ≤ 1 then tree
    else touchFrom (if j % 2 == 0 then sadd tree (j / 2) else sdel tree (j / 2)) n (j / 2)

/-! Cores. -/

def core0 : Core := {}
/-- The management core is core 256 (R352, R354). -/
def mgmtCore : Nat := 256
def isMgmt (c : Nat) : Bool := c == mgmtCore
def bulkOf (c : Nat) : Nat := c / 8

def State.core (s : State) (c : Nat) : Core := mget core0 s.cores c
def State.setCore (s : State) (c : Nat) (k : Core) : State := { s with cores := mput s.cores c k }
def State.modCore (s : State) (c : Nat) (f : Core → Core) : State := s.setCore c (f (s.core c))
/-- The core under the step. -/
def State.me (s : State) : Core := s.core s.cur
def State.setMe (s : State) (k : Core) : State := s.setCore s.cur k
def State.modMe (s : State) (f : Core → Core) : State := s.setMe (f s.me)

/-- s registers: s0 reads 0 and discards writes (R14). -/
def Core.rs (k : Core) (r : SReg) : Word := if r = 0 then 0 else mget 0 k.s r.toNat
def Core.ws (k : Core) (r : SReg) (v : Word) : Core := if r = 0 then k else { k with s := mset 0 k.s r.toNat v }
/-- p registers: p0 reads 1 and discards writes (R14). -/
def Core.rp (k : Core) (r : PReg) : Bool := if r = 0 then true else k.p.getLsbD r.toNat
def setPred (p : BitVec 8) (r : PReg) (b : Bool) : BitVec 8 :=
  if r = 0 then p
  else if b then p ||| BitVec.ofNat 8 (2 ^ r.toNat) else p &&& ~~~(BitVec.ofNat 8 (2 ^ r.toNat))
def Core.wp (k : Core) (r : PReg) (b : Bool) : Core := { k with p := setPred k.p r b }
def Core.rv (k : Core) (r : VReg) : Vec := mget 0 k.v r.toNat
def Core.wv (k : Core) (r : VReg) (x : Vec) : Core := { k with v := mset 0 k.v r.toNat x }

/-- h15 names the scratchpad (R209); on the management core h14 names the management space and h13 the hub space
(R354, R363). -/
def State.handle (s : State) (c : Nat) (h : Nat) : Handle :=
  if h == 15 then { state := 2, limit := 0x100000 }
  else if isMgmt c && h == 14 then { state := 2, limit := 0x200000 }
  else if isMgmt c && h == 13 then { state := 2, limit := 0x400000 }
  else mget {} (s.core c).h h
def Core.setHandle (k : Core) (h : Nat) (v : Handle) : Core := { k with h := mput k.h h v }

def Core.cbReg (k : Core) (n : Nat) : Cb := mget {} k.cb n
def Core.setCb (k : Core) (n : Nat) (b : Cb) : Core := { k with cb := mput k.cb n b }
def Core.slot (k : Core) (i : Nat) : SlotSt := k.slots.getD i {}
def Core.setSlot (k : Core) (i : Nat) (v : SlotSt) : Core := { k with slots := listSet k.slots i v }
def Core.modSlot (k : Core) (i : Nat) (f : SlotSt → SlotSt) : Core := k.setSlot i (f (k.slot i))
def Core.loop (k : Core) (i : Nat) : Loop := k.loops.getD i {}
def Core.setLoop (k : Core) (i : Nat) (v : Loop) : Core := { k with loops := listSet k.loops i v }
def Core.lcs (k : Core) : List W32 := k.loops.map (·.count)
def Core.table (k : Core) (t : Nat) : Table := mget {} k.tables t
def Core.tile (k : Core) (g : Nat) : TileSlot := mget {} k.tiles g
def Core.setTile (k : Core) (g : Nat) (t : TileSlot) : Core := { k with tiles := mput k.tiles g t }
def Core.bind (k : Core) (t : Nat) : Binding := mget {} k.tb t
def Core.setBind (k : Core) (t : Nat) (b : Binding) : Core := { k with tb := mput k.tb t b }
def Core.array (k : Core) (a : Nat) : ArraySt := mget {} k.mx.arrays a
def Core.setArray (k : Core) (a : Nat) (x : ArraySt) : Core := { k with mx := { k.mx with arrays := mput k.mx.arrays a x } }
/-- A row of an accumulator tile, 128 FP32 words; an unlisted row is +0 (R359). -/
def zeroRow : List W32 := List.replicate 128 0
def Core.accRow (k : Core) (t r : Nat) : List W32 := mget zeroRow k.at_ (t * 128 + r)
def Core.setAccRow (k : Core) (t r : Nat) (x : List W32) : Core := { k with at_ := mset zeroRow k.at_ (t * 128 + r) x }

/-! Other units. -/

def State.bulk (s : State) (b : Nat) : Bulkhead := mget {} s.bulks b
def State.setBulk (s : State) (b : Nat) (x : Bulkhead) : State := { s with bulks := mput s.bulks b x }
def State.modBulk (s : State) (b : Nat) (f : Bulkhead → Bulkhead) : State := s.setBulk b (f (s.bulk b))
def State.eng (s : State) (e : Nat) : EngCtx := mget {} s.engines e
def State.setEng (s : State) (e : Nat) (x : EngCtx) : State := { s with engines := mput s.engines e x }
def State.readyOf (s : State) (b : Nat) : List Ready := mget [] s.ready b
def State.setReady (s : State) (b : Nat) (x : List Ready) : State := { s with ready := mput s.ready b x }
def State.line (s : State) (n : Nat) : Line := mget {} s.lines n
def State.setLine (s : State) (n : Nat) (x : Line) : State := { s with lines := mset {} s.lines n x }
def State.bank (s : State) (ch : Nat) : BankUnit := mget {} s.banks ch
def State.setBank (s : State) (ch : Nat) (x : BankUnit) : State := { s with banks := mput s.banks ch x }
def State.vf (s : State) (f : Nat) : Vf := mget {} s.vfs f
def State.setVf (s : State) (f : Nat) (x : Vf) : State := { s with vfs := mput s.vfs f x }
def State.port (s : State) (p : Nat) : Port := mget {} s.ports p
def State.setPort (s : State) (p : Nat) (x : Port) : State := { s with ports := mput s.ports p x }
def State.queue (s : State) (q : Nat) : LaunchQueue := mget {} s.queues q
def State.setQueue (s : State) (q : Nat) (x : LaunchQueue) : State := { s with queues := mput s.queues q x }
def State.group (s : State) (key : Nat) : Option Group := mfind s.groups key
def State.setGroup (s : State) (key : Nat) (g : Group) : State := { s with groups := mput s.groups key g }
def State.dropGroup (s : State) (key : Nat) : State := { s with groups := merase s.groups key }

/-- Puts an event among those that may happen next. -/
def State.pend (s : State) (i : Instr) (a : EvArgs) : State := { s with pending := s.pending ++ [{ event := i, args := a }] }
def State.pendOnce (s : State) (i : Instr) (a : EvArgs) : State :=
  if s.pending.contains { event := i, args := a } then s else s.pend i a
def State.unpend (s : State) (i : Instr) (a : EvArgs) : State := { s with pending := s.pending.erase { event := i, args := a } }

/-- Reports to the management core (R341). -/
def State.report (s : State) (reason source ctx info : Nat) (adr data : Nat := 0) : State :=
  s.pend .faultReport { note := { reason := reason, source := source, ctx := ctx, info := info, adr := adr, data := data } }

/-- A lifetime counter: saturating at 2^64 - 1 (R386); key is the hub offset divided by 8. -/
def State.count (s : State) (off by_ : Nat) : State :=
  { s with counters := mset 0 s.counters off (min (mget 0 s.counters off + by_) (2 ^ 64 - 1)) }

/-- A fresh free value: the counter steps, so two uses are not related. -/
def State.fresh (s : State) : Word × State := (Config.freeWord s.free, { s with free := s.free + 1 })

end Sys2Proof.Machine
end

