-- ==== Sys2Proof/Machine/Memory.lean ====
section
/-! DEFINITION. The physical address space, poison, page tables, permissions and homes (spec/12, spec/18 R298,
spec/23 R363 to R372). -/

namespace Sys2Proof.Machine

/-! The hub space (R363). -/

/-- What a hub register reads after a module reset (R364 to R374); an unlisted one 0. -/
def hubReset (s : State) (off : Nat) : Word :=
  if 0x800 ≤ off ∧ off < 0xC00 then
    (match off % 32 with
     | 0 => 0xC350
     | 8 => 0x2004
     | 16 => 0x2710
     | _ => 0)
  else if off == 0x1000 then (if s.bootOk then 4 else 0)
  else if off == 0x1008 then BitVec.ofNat 64 s.lcState
  else if 0x200000 ≤ off ∧ off < 0x400000 then
    (match off % 0x200 with
     | 0x18 => 0xFFFF
     | 0x20 => 0x10000000000
     | _ => 0)
  else 0
def State.hubReg (s : State) (off : Nat) : Word := mget (hubReset s off) s.hub off
def State.setHub (s : State) (off : Nat) (v : Word) : State := { s with hub := mput s.hub off v }

/-- A field of a context's descriptor (R367). -/
def State.ctxd (s : State) (x off : Nat) : Word := s.hubReg (0x200000 + 0x200 * x + off)
def State.setCtxd (s : State) (x off : Nat) (v : Word) : State := s.setHub (0x200000 + 0x200 * x + off) v
def State.ctxPart (s : State) (x : Nat) : Nat := wbits (s.ctxd x 0) 0 5
def State.ctxValid (s : State) (x : Nat) : Bool := wbit (s.ctxd x 0) 63
def State.ctxDebug (s : State) (x : Nat) : Bool := wbit (s.ctxd x 0) 8

/-- PTABp of R364. -/
def State.ptab (s : State) (p : Nat) : Word := s.hubReg (8 * p)
def State.partValid (s : State) (p : Nat) : Bool := wbit (s.ptab p) 63
def State.partFirst (s : State) (p : Nat) : Nat := wbits (s.ptab p) 0 5
def State.partShape (s : State) (p : Nat) : Nat := wbits (s.ptab p) 8 3
/-- The bulkheads of a partition; an entry that is not valid names none. -/
def State.partCount (s : State) (p : Nat) : Nat := if s.partValid p then 2 ^ s.partShape p else 0
def State.partHas (s : State) (p b : Nat) : Bool := s.partFirst p ≤ b && b < s.partFirst p + s.partCount p
/-- Virtual bulkhead i of a partition (R364). -/
def State.physBulk (s : State) (p i : Nat) : Nat := s.partFirst p + i
/-- The partition that a bulkhead belongs to. -/
def State.bulkPart (s : State) (b : Nat) : Option Nat := (List.range 32).find? (fun p => s.partHas p b)

/-- Windows SLWINw of bulkhead b (R311). -/
def State.slwin (s : State) (b w : Nat) : Word × Word :=
  (s.hubReg (0x10000 + 0x200 * b + 16 * w), s.hubReg (0x10000 + 0x200 * b + 16 * w + 8))
/-- The windows that have been written, with their bulkheads, in the order of their registers. -/
def State.windows (s : State) : List (Nat × Word × Word) :=
  s.hub.filterMap (fun (off, w0) =>
    if 0x10000 ≤ off && off < 0x14000 && off % 0x200 < 0x100 && off % 16 == 0 then some ((off - 0x10000) / 0x200, w0, s.hubReg (off + 8)) else none)
/-- Whether a window names a partition and its range holds a page. -/
def windowNames (w0 w1 : Word) (part page : Nat) : Bool := wbits w0 58 5 == part && wbits w0 12 40 ≤ page && page ≤ wbits w1 12 40
/-- An open window of bulkhead b that covers a page for a partition; perm is bit 0 read, 1 write, 2 atomic (R309). -/
def State.windowCovers (s : State) (b part page perm : Nat) : Bool :=
  s.windows.any (fun (c, w0, w1) => c == b && wbit w0 63 && windowNames w0 w1 part page && (perm == 8 || wbit w0 (55 + perm)))

/-! The physical address space (R200). -/

def regionOf (pa : Nat) : Region :=
  if pa < 0x8000000000 then .hbm
  else if 0x10000000000 ≤ pa ∧ pa < 0x20000000000 then .granary
  else if 0x20000000000 ≤ pa ∧ pa < 0x20010000000 then .aperture
  else if 0x8000000000000 ≤ pa ∧ pa < 0xC000000000000 then .host
  else if 0xC000000000000 ≤ pa ∧ pa < 0x10000000000000 then .peer
  else .reserved

/-- The 64-byte granules that a range touches, and those it covers whole (R217). -/
def granules (a n : Nat) : List Nat :=
  if n == 0 then [] else (List.range ((a + n - 1) / 64 - a / 64 + 1)).map (· + a / 64)
def wholeGranules (a n : Nat) : List Nat := (granules a n).filter (fun g => a ≤ 64 * g && 64 * g + 64 ≤ a + n)
def anyMarked (marks : List Nat) (a n : Nat) : Bool := (granules a n).any (fun g => shas marks g)
def clearMarks (marks : List Nat) (a n : Nat) : List Nat := (wholeGranules a n).foldl sdel marks
def addMarks (marks : List Nat) (a n : Nat) : List Nat := (granules a n).foldl sadd marks

/-- The partition that owns a frame, whose hash its lines have (R298, R310): the one that firmware gave it to, otherwise that of a
bulkhead whose window, open or closed since, lends it to the accessing partition, otherwise the accessing partition (DEDUCED, log
entry 16). -/
def State.frameOwner (s : State) (part pa : Nat) : Nat :=
  match s.frames.find? (fun (lo, hi, _) => lo ≤ pa / 4096 && pa / 4096 ≤ hi) with
  | some (_, _, p) => p
  | none =>
    let lent := s.windows.filter (fun (b, w0, w1) => wbits w0 55 3 != 0 && windowNames w0 w1 part (pa / 4096) && !s.partHas part b)
    match (lent.filter (fun (_, w0, _) => wbit w0 63) ++ lent).head? with
    | some (b, _, _) => (s.bulkPart b).getD part
    | none => part

/-- The epoch of a partition's granary key (R372). -/
def State.keyEpoch (s : State) (p : Nat) : Nat := wbits (s.hubReg (0x40000 + 8 * p)) 0 8
/-- A granary range written under another epoch reads as poison (R372). -/
def State.staleEpoch (s : State) (part pa n : Nat) : Bool :=
  regionOf pa == .granary && (List.range (n / 4096 + 2)).any (fun i =>
    let g := pa / 4096 + i
    g * 4096 < pa + n && mget 0 s.epochs g != s.keyEpoch (s.frameOwner part (g * 4096)))

/-- Reads memory: the bytes, and whether poison came with them (R217). -/
def State.physRead (s : State) (part pa n : Nat) : List Byte × Bool :=
  (s.mem.read pa n, anyMarked s.poison pa n || s.staleEpoch part pa n)

/-- Writes memory; a whole granule clears its poison, a whole granary granule takes the current epoch (R217, R372). -/
def State.physWrite (s : State) (part pa : Nat) (bs : List Byte) : State :=
  let n := bs.length
  let eps := if regionOf pa == .granary then
      (List.range (n / 4096 + 1)).foldl (fun e i =>
        let g := (pa + 4095) / 4096 + i
        if g * 4096 + 4096 ≤ pa + n then mset 0 e g (s.keyEpoch (s.frameOwner part (g * 4096))) else e) s.epochs
    else s.epochs
  { s with mem := s.mem.write pa bs, poison := clearMarks s.poison pa n, epochs := eps }

/-- A write that came in pieces has covered the 4 KiB granule at an address (R372). -/
def State.setEpoch (s : State) (part pa : Nat) : State :=
  { s with epochs := mset 0 s.epochs (pa / 4096) (s.keyEpoch (s.frameOwner part pa)) }
/-- The hub offset of the lifetime counters of the stack that a frame lies in (R386). The granary's stacks are taken in address order. -/
def stackCounter (pa : Nat) : Nat :=
  match regionOf pa with
  | .granary => 0x30880 + 16 * (pa / 2 ^ 38 % 4)
  | .hbm | .aperture | .host | .peer | .reserved => 0x30800 + 16 * bits pa 36 3
/-- Poison that a read delivers is counted where it is stored (R386). -/
def State.deliver (s : State) (part pa n : Nat) : State := if (s.physRead part pa n).2 then s.count (stackCounter pa + 8) 1 else s

/-- Marks the granules of a range as poison. -/
def State.physPoison (s : State) (pa n : Nat) : State := { s with poison := addMarks s.poison pa n }

/-! Page tables (R203 to R206). -/

/-- log2 of a page size by its code (R205). -/
def pageLog (size : Nat) : Nat := [12, 14, 16, 18, 20, 21, 22, 24, 26, 28, 30, 32].getD size 12
def pageBytes (size : Nat) : Nat := 2 ^ pageLog size
/-- The sizes a leaf may have at a level (R205). -/
def sizeAllowed (level size : Nat) : Bool :=
  match level with
  | 0 => size ≤ 4
  | 1 => 5 ≤ size && size ≤ 9
  | 2 => size == 10 || size == 11
  | _ => false

/-- What one entry gives (R204, R206): the next table, a leaf, or a fault cause of R249. R206 lists no entry with V 1 and LEAF 0 at level 0
and does not rank a malformed entry that is foreign as well: both are malformed here (DESIGN CHOICE, log entry 119). -/
def walkEntry (part level lo hi : Nat) : Except Nat (Nat ⊕ Leaf) :=
  if bits lo 0 1 == 0 then .error 1
  else if bits lo 2 6 != 0 || bits lo 52 12 != 0 then .error 2
  else if bits lo 1 1 == 0 then
    if bits lo 8 4 != 0 || bits lo 12 1 != 0 || hi != 0 || level == 0 then .error 2
    else if regionOf (bits lo 12 40 * 4096) != .hbm then .error 2
    else .ok (.inl (bits lo 12 40 * 4096))
  else
    let size := bits lo 8 4
    let frame := bits lo 12 40 * 4096
    if bits hi 15 17 != 0 || bits hi 48 16 != 0 then .error 2
    else if level ≥ 3 || !sizeAllowed level size || frame % pageBytes size != 0 then .error 2
    else if bits hi 35 2 == 3 || (bits hi 35 2 == 2 && bits hi 37 1 == 1) || (bits hi 37 1 == 1 && bits hi 38 5 != 0) then .error 2
    else if regionOf frame == .reserved || regionOf (frame + pageBytes size - 1) == .reserved then .error 2
    else if bits hi 43 5 != part then .error 3
    else .ok (.inr { frame := frame, size := size, hi := hi })

/-- The walk from a table with n levels left (R203, R206); cause 5 is a poisoned walk. -/
def State.walkFrom (s : State) (part va : Nat) : Nat → Nat → Except Nat Leaf
  | 0, _ => .error 2
  | n + 1, table =>
    let (bs, bad) := s.physRead part (table + 16 * bits va (12 + 9 * n) 9) 16
    if bad then .error 5
    else
      match walkEntry part n (bytesToNat (bs.take 8)) (bytesToNat (bs.drop 8)) with
      | .error c => .error c
      | .ok (.inr l) => .ok l
      | .ok (.inl t) => s.walkFrom part va n t

/-- The address of the poisoned entry that such a walk meets, if it meets one. -/
def State.poisonEntry (s : State) (part va : Nat) : Nat → Nat → Option Nat
  | 0, _ => none
  | n + 1, table =>
    let a := table + 16 * bits va (12 + 9 * n) 9
    let (bs, bad) := s.physRead part a 16
    if bad then some a
    else match walkEntry part n (bytesToNat (bs.take 8)) (bytesToNat (bs.drop 8)) with
      | .ok (.inl t) => s.poisonEntry part va n t
      | .ok (.inr _) | .error _ => none

def Leaf.cache (l : Leaf) : Nat := bits l.hi 35 2
def Leaf.spread (l : Leaf) : Bool := bits l.hi 37 1 == 1
def Leaf.homeb (l : Leaf) : Nat := bits l.hi 38 5
def Leaf.bytes (l : Leaf) : Nat := pageBytes l.size
/-- The physical address of a virtual address on the leaf's page. -/
def Leaf.pa (l : Leaf) (va : Nat) : Nat := l.frame + va % l.bytes

/-- The bits of PERM for an agent: read, write (R207). -/
def permBits (a : MemAgent) : Nat × Nat :=
  match a with
  | .core => (0, 1)
  | .fill => (2, 2)
  | .twst => (3, 3)
  | .copy => (4, 5)
  | .coll => (6, 7)
  | .bank => (8, 9)
  | .host => (10, 11)
  | .peer => (12, 13)
  | .code => (14, 14)

/-- The first refusal of R208, by the causes of R330; none grants the access. An atomic needs both bits (R207). -/
def permRefusal (a : MemAgent) (write atomic ronly : Bool) (hi : Nat) : Option Nat :=
  let (r, w) := permBits a
  let bit (i : Nat) : Bool := bits hi i 1 == 1
  let granted := if atomic then bit r && bit w else if write then bit w else bit r
  if !granted then some 1
  else if (write || atomic) && ronly then some 3
  else if (write || atomic) && bit 33 then some 2
  else if (write || atomic) && bit 32 && a == .core then some 4
  else if (write || atomic) && bit 34 && a != .copy && a != .coll then some 5
  else none

/-! Homes (R196, R298). -/

/-- The fold of R298 over the k-bit chunks of the 44 bits of L. -/
def foldLine (k l : Nat) : Nat → Nat
  | 0 => 0
  | n + 1 => if k == 0 then 0 else Nat.xor (l % 2 ^ k) (foldLine k (l / 2 ^ k) n)

/-- The physical home bulkhead and slice of a line (R298). A HOMEB beyond the bulkheads of the frame's owner counts modulo their number, so
that no home lies outside its partition (R2; DESIGN CHOICE, log entry 95). -/
def State.homeOf (s : State) (part : Nat) (spread : Bool) (homeb pa : Nat) : Nat × Nat :=
  let owner := s.frameOwner part pa
  let l := pa / 256 % 2 ^ 44
  if spread then
    let i := foldLine (3 + s.partShape owner) l 44
    (s.physBulk owner (i / 8), i % 8)
  else (s.physBulk owner (homeb % max 1 (s.partCount owner)), foldLine 3 l 44)
def State.leafHome (s : State) (part : Nat) (hi pa : Nat) : Nat × Nat :=
  s.homeOf part (bits hi 37 1 == 1) (bits hi 38 5) pa

/-- Whether a walk of a partition ends in a frame of another one that no open window of the frame's home covers (R310). -/
def State.foreignFrame (s : State) (part va : Nat) (l : Leaf) : Bool :=
  let pa := l.pa va
  match regionOf pa with
  | .hbm | .granary => s.frameOwner part pa != part && !s.windowCovers (s.leafHome part l.hi pa).1 part (pa / 4096) 8
  | .aperture | .host | .peer | .reserved => false

/-- The walk of a virtual address of a partition from a top table (R203), which like every other must lie in HBM (R200). -/
def State.walkRoot (s : State) (part root va : Nat) : Except Nat Leaf :=
  if regionOf root != .hbm then .error 2
  else match s.walkFrom part va 5 root with
    | .ok l => if s.foreignFrame part va l then .error 3 else .ok l
    | .error c => .error c
/-- The top table that a VROOT names. -/
def rootTable (v : Word) : Nat := wbits v 13 39 * 8192
/-- The partition that an access of a context counts for: a core's, as its pick-up loaded it with the top table, otherwise the
descriptor's (R367). -/
def State.partAt (s : State) (x : Nat) (root : Option (Nat × Nat)) : Nat := match root with | some (_, p) => p | none => s.ctxPart x
/-- The walk in a context, from the top table and with the partition of a core, or by its descriptor. -/
def State.walk (s : State) (x va : Nat) (root : Option (Nat × Nat) := none) : Except Nat Leaf :=
  s.walkRoot (s.partAt x root) ((root.map (·.1)).getD (rootTable (s.ctxd x 8))) va

/-- The table entry that poisons a walk is poison delivered (R386). -/
def State.countWalk (s : State) (x va : Nat) (root : Option (Nat × Nat) := none) : State :=
  let part := s.partAt x root
  match s.poisonEntry part va 5 ((root.map (·.1)).getD (rootTable (s.ctxd x 8))) with
  | some a => s.deliver part a 16
  | none => s

/-- The status of an access outside its core: done, poison (or refused by a sluice), bulkhead down. -/
def stGood : Nat := 0
def stPoison : Nat := 1
def stDown : Nat := 2

/-- Whether a bulkhead answers requests: its sluice is neither closing nor closed (R311, R357). -/
def State.bulkUp (s : State) (b : Nat) : Bool := !(s.bulk b).close && !(s.bulk b).closed && !(s.bulk b).rstBusy

/-- What the sluice of the home does with a request of a partition (R309, R311); perm 0 read, 1 write, 2 atomic. -/
def State.sluice (s : State) (b part pa perm : Nat) : Nat :=
  if !s.bulkUp b then stDown
  else if s.partHas part b || s.windowCovers b part (pa / 4096) perm then stGood
  else stPoison

/-- The last 512 flits of a list with one more. -/
def keep512 (fs : List Flit) (f : Flit) : List Flit := (fs ++ [f]).drop (fs.length - 511)
/-- Bits 1983:0 of a flit (R381). -/
def Flit.body (f : Flit) : Nat :=
  bytesToNat f.payload * 2 ^ 128 + f.dst % 2 ^ 12 * 2 ^ 116 + f.src % 2 ^ 12 * 2 ^ 104 + f.part % 2 ^ 5 * 2 ^ 99 + f.vl % 4 * 2 ^ 94
    + f.kind % 2 ^ 6 * 2 ^ 88 + f.seq % 2 ^ 24 * 2 ^ 64 + f.adr % 2 ^ 64
/-- A port puts a flit on the link; it stays in the replay buffer of 512. -/
def Port.emit (q : Port) (time : Nat) (f : Flit) : Port :=
  { q with replay := keep512 q.replay f, wire := keep512 q.wire f, lastSend := time }
/-- One flit of a message: it takes the lane's next SEQ, and waits while the lane is stopped. -/
def Port.send (q : Port) (time : Nat) (f : Flit) : Port :=
  let n := mget 0 q.sendSeq f.vl
  let g : Flit := { f with seq := n }
  let h : Flit := { g with crc := Config.crc64 g.body }
  let q1 := { q with sendSeq := mset 0 q.sendSeq f.vl ((n + 1) % 2 ^ 24) }
  if q.xoff.contains f.vl then { q1 with stopped := q1.stopped ++ [h] } else q1.emit time h
/-- Bytes of a fixed number: cut or filled with zeros. -/
def bytesTo (n : Nat) (bs : List Byte) : List Byte := (bs ++ List.replicate n 0).take n
/-- The flits that a message of n bytes occupies. -/
def flitsOf (n : Nat) : Nat := max 1 ((n + 231) / 232)
/-- A port sends a message on a lane (R381), in as many flits of 232 bytes as it needs. The spec numbers the types of control flits
alone (DESIGN CHOICE, log entry 110). -/
def State.sendFlit (s : State) (p vl kind dst part adr : Nat) (data : List Byte) : State :=
  s.setPort p ((List.range (flitsOf data.length)).foldl (fun (q : Port) i =>
    q.send s.time { vl := vl, kind := kind, seq := 0, src := Config.moduleNumber.toNat, dst := dst, part := part, adr := adr,
                    payload := bytesTo 232 (data.drop (232 * i)) }) (s.port p))

/-- A peer module's number, its port, and its route (R382): whether the module is reachable. -/
def peerModule (pa : Nat) : Nat := pa / 2 ^ 38 % 4096
def State.peerPort (s : State) (pa : Nat) : Nat := wbits (s.hubReg (0x50000 + 8 * peerModule pa)) 0 4
def State.peerUp (s : State) (pa : Nat) : Bool :=
  wbit (s.hubReg (0x50000 + 8 * peerModule pa)) 63 && (s.port (s.peerPort pa)).up

/-- Where host memory of a partition lies (R378): none when the host does not translate the address. -/
def State.hostAddr (s : State) (part pa : Nat) : Option Nat :=
  match s.vfs.find? (fun f => f.2.bound && f.2.part == part) with
  | some (_, f) => (Config.hostTranslate part f.gen (pa % 2 ^ 50)).map (fun x => 0x8000000000000 + x % 2 ^ 50)
  | none => none

/-! Token buckets (R307, R308). -/

/-- The key of a token bucket: context and bulkhead. -/
def bucketKey (x b : Nat) : Nat := x * 64 + b
def State.bucket (s : State) (x b : Nat) : Bucket := mget {} s.buckets (bucketKey x b)
def State.setBucket (s : State) (x b : Nat) (k : Bucket) : State := { s with buckets := mput s.buckets (bucketKey x b) k }
/-- RLCFG of a context at a bulkhead: as the last pick-up of the context there loaded it (R367), before one the descriptor's. -/
def State.limiter (s : State) (x b : Nat) : Word := (s.bucket x b).cfg.getD (s.ctxd x 0x20)
/-- The rate at which a context may send, in beats per microsecond; 0 for no limit. -/
def State.rate (s : State) (x b : Nat) : Nat := wbits (s.limiter x b) 0 32
/-- Beats of a message: a header and the data. -/
def beatsOf (n : Nat) : Nat := 1 + (n + 255) / 256
/-- Takes beats from a bucket, down to the lowest balance. -/
def State.charge (s : State) (x b beats : Nat) : State :=
  if s.rate x b == 0 then s
  else
    let k := s.bucket x b
    s.setBucket x b { k with tokens := max (-(2 ^ 31 * 2000)) (k.tokens - 2000 * beats) }
/-- Whether a bucket holds a cost (R307). -/
def State.affords (s : State) (x b cost : Nat) : Bool := s.rate x b == 0 || cost == 0 || (2000 * cost : Int) ≤ (s.bucket x b).tokens
/-- The beats that a bucket pays now for requests that leave one after the other, reads of one beat and then writes of two, of which some
beats are paid already: as many whole requests as its tokens reach (R307; log entry 97). -/
def State.instalment (s : State) (x b reads cost paid : Nat) : Nat :=
  let have_ := ((s.bucket x b).tokens / 2000).toNat
  let r := min have_ (reads - paid)
  if r < reads - paid then r else r + 2 * min ((have_ - r) / 2) ((cost - max paid reads) / 2)
/-- A write-back is charged to the line's owner. -/
def State.chargeLine (s : State) (l : Line) : State := if l.dirty then s.charge l.owner (l.home / 8) 2 else s

/-! Lines of the L2 slices (R196, R215, R302 to R305). -/

/-- The lines that a range touches. -/
def linesOf (pa n : Nat) : List Nat := (List.range ((pa % 256 + n + 255) / 256)).map (· + pa / 256)
/-- The set of a slice that a line lies in: the spec names 512 sets and gives no index (DESIGN CHOICE, log entry 24). -/
def setOf (line : Nat) : Nat := line / 8 % 512
def setKey (slice n : Nat) : Nat := slice * 512 + setOf n
/-- The CACHE field of a leaf: 0 cached, 1 uncached, 2 pinned (R204). -/
def cacheOf (hi : Nat) : Nat := bits hi 35 2

/-- Withdraws the replicas of a line and its redirect entries (R303); the messages are charged to context x (R308). -/
def dropCopies (s : State) (x n : Nat) : State :=
  let l := s.line n
  let gone (e : Nat × Nat × Nat) : Bool := e.2.1 == n
  let s1 := if l.replicas.isEmpty && l.readers.isEmpty then s else s.setLine n { l with replicas := [], readers := [] }
  ({ s1 with redirects := s1.redirects.filter (fun e => !gone e) } : State).charge x (l.home / 8)
    (l.replicas.length + (s.redirects.filter gone).length)

/-- Takes a line out of its way (R303, R304): its copies are withdrawn and it is written back if dirty. -/
def State.evict (s : State) (n : Nat) : State :=
  let s1 := dropCopies s (s.line n).owner n
  let l := s1.line n
  (s1.chargeLine l).setLine n (if l.sram then { l with v := false, dirty := false, way := 0 } else {})

/-- The WAYMASK that an access goes by (R304, R367). -/
def State.waysOf (s : State) (x : Nat) (ways : Option Nat) : Nat := ways.getD (wbits (s.ctxd x 0x18) 0 16)
/-- The lines that ways of a slice hold in the set of a line. -/
def State.occupants (s : State) (slice n : Nat) : List (Nat × Line) :=
  s.lines.filter (fun (a, l) => l.v && l.home == slice && setOf a == setOf n && a != n)

/-- The lines of a line's set, beside itself, that are pinned or held in ways of a slice, or will be when they come back (R304). -/
def State.fixedIn (s : State) (slice n : Nat) : Nat :=
  (s.lines.filter (fun (a, l) => (l.pinned || l.held) && !l.sram && l.home == slice && setOf a == setOf n && a != n)).length

/-- Brings a line into a way of its home slice for a context (R304): a free way that it may use, otherwise the pseudo-LRU victim
among those that hold no pinned or held line. forced: without regard to the context's mask; ways: the mask of the core that sent the
access, otherwise the descriptor's counts (R367). Without such a way nothing changes. -/
def State.allocate (s : State) (x slice n : Nat) (forced : Bool) (ways : Option Nat := none) : State :=
  let l := s.line n
  let key := setKey slice n
  let used (t : State) (w : Nat) : State := { t with l2tree := mput t.l2tree key (touchFrom (mget [] t.l2tree key) 4 (16 + w)) }
  if l.v then used s l.way
  else
    let others := s.occupants slice n
    let open_ := if forced then List.range 16 else liveBits (s.waysOf x ways) 16
    let cand (w : Nat) : Bool := open_.contains w && !others.any (fun (_, y) => y.way == w && (y.pinned || y.held))
    if !open_.any cand then s
    else
      let w := match open_.find? (fun w => !others.any (fun (_, y) => y.way == w)) with
        | some w => w
        | none => treeWalk 16 (mget [] s.l2tree key) cand 4 1
      let s1 := match others.find? (fun (_, y) => y.way == w) with
        | some (a, _) => s.evict a
        | none => s
      used (s1.setLine n { s1.line n with v := true, way := w, home := slice, owner := x }) w

/-- Brings a line into a way; a fill from memory is charged to the context (R308). -/
def State.install (s : State) (x slice n : Nat) (forced : Bool) (ways : Option Nat := none) : State :=
  let t := s.allocate x slice n forced ways
  if !(s.line n).v && (t.line n).v then t.charge x (slice / 8) 2 else t

/-- A read reaches the home of a line (R304, R305): a miss is filled from memory into a way, unless the page is uncached; the fill
is charged (R308). A pinned line that wbinv has dropped comes back without regard to the mask (R198). -/
def State.fetchLine (s : State) (x hi slice n : Nat) (ways : Option Nat := none) : State :=
  if cacheOf hi == 1 || (s.line n).sram then s else s.install x slice n (s.line n).pinned ways

/-- A write reaches the home of a line (R215, R304, R305): the line is dirty and the context its owner; through an uncached page, or
where the context's mask allows no way, memory is written as well, and the context owns the line if it is there. A line in the sync
engine's own SRAM stays there. A dirty line may be evicted at any later time. -/
def State.touchLine (s : State) (x hi slice n : Nat) (ways : Option Nat := none) : State :=
  let through := cacheOf hi == 1 || (s.waysOf x ways == 0 && !(s.line n).pinned)
  let s1 := if through || (s.line n).sram then s else s.allocate x slice n (s.line n).pinned ways
  let l := s1.line n
  let here := l.v || l.sram
  let l1 : Line := { l with readers := [], owner := if here then x else l.owner }
  if through || !here then (if l = l1 then s1 else s1.setLine n l1)
  else (s1.setLine n { l1 with dirty := true, owner := x }).pendOnce .hotLineWithdraw { unit := n, flag := true }

/-- The sync engine holds a line once an atomic has addressed it (R220). It takes a way without regard to any mask, or stays in the
sync engine's own SRAM where 12 ways of its set hold pinned and held lines (R304). The context owns it where this installs it (R215). -/
def State.hold (s : State) (x slice n : Nat) : State :=
  let l := s.line n
  let s1 := if l.held || (l.pinned && l.v) then s
    else if s.fixedIn slice n < 12 then s.install x slice n true
    else s.setLine n { l with v := false, way := 0, sram := true, home := slice, owner := if l.v then l.owner else x }
  (s1.setLine n { s1.line n with held := true, readers := [] }).pendOnce .hotLineWithdraw { unit := n, flag := true }

/-- Whether now-serving has reached a ticket (R246). -/
def ticketReached (serving ticket : Word) : Bool := (serving - ticket).toNat < 2 ^ 63
/-- Re-tests the waits that are parked on words of a range as a write to it is applied (R246): those whose ticket the word has
reached are served, whatever is written there before their replies leave. adr is where memory holds the word at pa. -/
def State.retest (s : State) (pa n : Nat) (adr : Nat → Nat := id) : State :=
  let served (r : Req) : Bool := r.parked && r.op == .tktWait && r.answered.isNone && !r.served && overlaps (alignDown r.pa 8) 8 pa n
    && ticketReached (bytesToWord (s.mem.read (adr r.pa) 8)) (bytesToWord r.data)
  (s.fabric.filter served).foldl (fun (t : State) r => t.pendOnce .homeApply { unit := r.id })
    { s with fabric := s.fabric.map (fun r => if served r then { r with served := true } else r) }

/-- The hops between two bulkheads of the mesh (R295). -/
def hops (a b : Nat) : Nat := (max (a / 4) (b / 4) - min (a / 4) (b / 4)) + (max (a % 4) (b % 4) - min (a % 4) (b % 4))
/-- The nearest of some bulkheads to a bulkhead; ties go to the first. -/
def nearest (b : Nat) (xs : List Nat) : Nat := xs.foldl (fun m x => if hops x b < hops m b then x else m) (xs.headD b)
/-- The helpers of a hot line (R302): of the partition's bulkheads, the nearest ones to any sender. -/
def helpersOf (s : State) (part most : Nat) (senders : List Nat) : List Nat :=
  let dist (x : Nat) : Nat := senders.foldl (fun m b => min m (hops x b)) 64
  let all := (List.range (s.partCount part)).map (s.physBulk part)
  ((List.range 11).flatMap (fun d => all.filter (fun x => dist x == d))).take most

/-- The helper that a read of a line meets through a redirect entry of its bulkhead, while its replica stands (R302, R303). -/
def State.helperAt (s : State) (b n : Nat) : Option Nat :=
  match s.redirects.find? (fun e => e.1 == b && e.2.1 == n) with
  | some (_, _, h) => if (s.line n).replicas.contains h then some h else none
  | none => none

/-- Counts the reads of a line from another bulkhead; when THR of them come within 1,024 fabric cycles (512 of TIME), the
line is replicated and each sender gets a redirect entry, of which an interface holds 64 (R302). The line must be in a way, cached, clean,
not pinned and not held, and replicas stay within the partition of its home (R309). The copies are charged (R308). -/
def State.countHot (s : State) (x part hi source home n : Nat) : State :=
  let l := s.line n
  let cfg := s.hubReg (0x808 + 32 * part)
  let thr := wbits cfg 8 8
  let most := min 4 (wbits cfg 0 3)
  if source == home || !l.v || cacheOf hi != 0 || l.dirty || l.pinned || l.held || thr == 0 || !s.partHas part home || (s.helperAt source n).isSome then s
  else
    let reads := l.readers.filter (fun e => s.time ≤ e.2 + 512) ++ [(source, s.time)]
    if reads.length < thr || most == 0 then s.setLine n { l with readers := reads }
    else
      let senders := (reads.map (·.1)).eraseDups
      let hs := helpersOf s part most senders
      let s1 := (s.setLine n { l with readers := [], replicas := hs }).charge x home (2 * hs.length)
      senders.foldl (fun (t : State) b =>
        let others := t.redirects.filter (fun e => !(e.1 == b && e.2.1 == n))
        let mine := others.filter (fun e => e.1 == b)
        let kept := if mine.length ≥ 64 then (match mine.head? with | some old => others.erase old | none => others) else others
        { t with redirects := kept ++ [(b, n, nearest b hs)] }) s1

/-- What a read of a range by a party of a bulkhead does at its home, beside giving the bytes. -/
def State.readsLines (s : State) (x part hi source pa n : Nat) (ways : Option Nat := none) : State :=
  match regionOf pa with
  | .hbm | .granary => (linesOf pa n).foldl (fun (t : State) a =>
      let (b, sl) := t.leafHome part hi (256 * a)
      if (t.helperAt source a).isSome then t else (t.fetchLine x hi (b * 8 + sl) a ways).countHot x part hi source b a) (s.deliver part pa n)
  | .aperture | .host | .peer | .reserved => s

/-- A read applied at its home (R220): bytes and status. Peer memory answers with free values (log entry 17). -/
def State.homeRead (s : State) (part home pa n : Nat) : List Byte × Nat × State :=
  match regionOf pa with
  | .hbm | .granary =>
    match s.sluice home part pa 0 with
    | 0 => let (bs, bad) := s.physRead part pa n; (bs, if bad then stPoison else stGood, s)
    | st => (List.replicate n 0, st, s)
  | .host =>
    match s.hostAddr part pa with
    | some a => (s.mem.read a n, stGood, s)
    | none => (List.replicate n 0, stPoison, s)
  | .peer =>
    if s.peerUp pa then
      ((List.range n).map (fun i => Config.peerByte s.free (pa + i)), stGood, { s with free := s.free + 1 })
    else (List.replicate n 0, stDown, s)
  | .aperture | .reserved => (List.replicate n 0, stPoison, s)

/-- What a write of context x does at the home of its lines: copies are withdrawn first (R303), then the bytes are written, then
parked waits are tested again (R246). -/
def State.writesLines (s : State) (x part hi pa : Nat) (bs : List Byte) (ways : Option Nat := none) : State :=
  let s1 := (linesOf pa bs.length).foldl (fun (t : State) a => dropCopies t x a) s
  let s2 := (linesOf pa bs.length).foldl (fun (t : State) a =>
    let (b, sl) := t.leafHome part hi (256 * a)
    t.touchLine x hi (b * 8 + sl) a ways) s1
  (s2.physWrite part pa bs).retest pa bs.length

/-- A write applied at its home (R220); atomic selects the window permission A. -/
def State.homeWrite (s : State) (x part home hi pa : Nat) (bs : List Byte) (atomic : Bool) (ways : Option Nat := none) : Nat × State :=
  match regionOf pa with
  | .hbm | .granary =>
    match s.sluice home part pa (if atomic then 2 else 1) with
    | 0 => (stGood, s.writesLines x part hi pa bs ways)
    | st => (st, s)
  | .host =>
    match s.hostAddr part pa with
    | some a => (stGood, ({ s with mem := s.mem.write a bs } : State).retest pa bs.length (fun q => a + q - pa))
    | none => (stPoison, s)
  | .peer =>
    if s.peerUp pa then
      (stGood, s.sendFlit (s.peerPort pa) 0 2 (peerModule pa) part (pa % 2 ^ 38) bs)
    else (stDown, s)
  | .aperture | .reserved => (stPoison, s)

/-! Accesses by virtual address that are not a core's issue: records, save areas, nodes, engine transfers. -/

/-- Translates and checks one access that lies in one page: the physical address and the leaf, or (1 permission,
2 translation) with the trap cause (R206, R208). An aperture takes only the writes of engines (R200). -/
def State.translate (s : State) (x va : Nat) (a : MemAgent) (write : Bool) (root : Option (Nat × Nat) := none) : Except (Nat × Nat) (Nat × Leaf) :=
  match s.walk x va root with
  | .error c => .error (2, c)
  | .ok l =>
    match permRefusal a write false false l.hi with
    | some c => .error (1, c)
    | none =>
      if regionOf (l.pa va) == .aperture && !(write && (a == .copy || a == .coll)) then .error (1, 1) else .ok (l.pa va, l)

/-- The bulkhead that an access to a line goes to: the home, or for a read from bulkhead src the helper that a redirect entry there
names (R302). -/
def State.metAt (s : State) (src : Option Nat) (part hi n : Nat) : Nat :=
  (src.bind (fun b => s.helperAt b n)).getD (s.leafHome part hi (256 * n)).1
/-- What the sluices before a range's lines answer (R309): the first that does not admit the access. -/
def State.rangeSluice (s : State) (part hi pa n perm : Nat) (src : Option Nat := none) : Nat :=
  match regionOf pa with
  | .hbm | .granary => (((linesOf pa n).map (fun a => s.sluice (s.metAt src part hi a) part (256 * a) perm)).find? (· != stGood)).getD stGood
  | .aperture | .host | .peer | .reserved => stGood

/-- Reads n bytes of a context, all in one page, from bulkhead src where one is given; the error of R282 (1 permission, 2 translation,
3 poison, 5 down). -/
def State.vread (s : State) (x va n : Nat) (a : MemAgent) (root : Option (Nat × Nat) := none) (src : Option Nat := none) : Except Nat (List Byte) :=
  match s.translate x va a false root with
  | .error (e, _) => .error e
  | .ok (pa, l) =>
    let part := s.partAt x root
    let met := s.rangeSluice part l.hi pa n 0 src
    let (bs, st1, _) := s.homeRead part (s.metAt src part l.hi (pa / 256)) pa n
    let st := if met == stGood then st1 else met
    if st == stGood then .ok bs else if st == stDown then .error 5
    else if regionOf pa == .host then .error 2 else .error 3

/-- Writes bytes of a context, all in one page. -/
def State.vwrite (s : State) (x va : Nat) (bs : List Byte) (a : MemAgent) (root : Option (Nat × Nat) := none) : Except Nat State :=
  match s.translate x va a true root with
  | .error (e, _) => .error e
  | .ok (pa, l) =>
    let part := s.partAt x root
    let met := s.rangeSluice part l.hi pa bs.length 1
    let (st1, s') := s.homeWrite x part (s.leafHome part l.hi pa).1 l.hi pa bs false
    let st := if met == stGood then st1 else met
    if st == stGood then .ok s' else if st == stDown then .error 5 else if regionOf pa == .host then .error 2 else .error 1

def State.vreadWord (s : State) (x va : Nat) (a : MemAgent) (src : Option Nat := none) : Except Nat Word :=
  match s.vread x va 8 a none src with
  | .error e => .error e
  | .ok bs => .ok (bytesToWord bs)
def State.vwriteWord (s : State) (x va : Nat) (w : Word) (a : MemAgent) : Except Nat State :=
  s.vwrite x va (natToBytes 8 w.toNat) a
/-! Pages of a migrating context (R346). -/

/-- Whether a page that the source of a migration holds has not been pulled yet. -/
def State.unpulled (s : State) (x va : Nat) (root : Option (Nat × Nat) := none) : Bool :=
  s.migrations.any (fun m => m.ctx == x && !m.pulled.any (fun (a, n) => a ≤ va && va < a + n))
    && (match s.walk x va root with | .ok _ => true | .error _ => false)
/-- The address of the entry that a walk from a table with n levels left ends in (R203), if it ends in a leaf. -/
def State.entryFrom (s : State) (part va : Nat) : Nat → Nat → Option Nat
  | 0, _ => none
  | n + 1, table =>
    let a := table + 16 * bits va (12 + 9 * n) 9
    match walkEntry part n (bytesToNat (s.mem.read a 8)) (bytesToNat (s.mem.read (a + 8) 8)) with
    | .error _ => none
    | .ok (.inr _) => some a
    | .ok (.inl t) => s.entryFrom part va n t
/-- A page of a migrating context is pulled: the destination maps it, and the source no longer does. A compressed page that an agent
without the codec asks for arrives decompressed, with CMP cleared (R346): memory holds the same bytes, which every read found
decompressed (R207). A page from another module comes with its bytes, and until then it is not there. -/
def pullPage (s : State) (x page : Nat) (plain : Bool) (data : List Byte := []) : State :=
  let part := s.ctxPart x
  match s.walk x (page * 4096) with
  | .ok l =>
    let a := alignDown (page * 4096) l.bytes
    if s.migrations.any (fun m => m.ctx == x && m.outside) && data.isEmpty then s
    else
      let s0 := if data.isEmpty then s else s.physWrite part l.frame (data.take l.bytes)
      let s1 : State := { s0 with migrations := s.migrations.map (fun m => if m.ctx == x then { m with pulled := (a, l.bytes) :: m.pulled } else m) }
      match (if plain && bits l.hi 34 1 == 1 then s.entryFrom part (page * 4096) 5 (rootTable (s.ctxd x 8)) else none) with
      | some e => s1.physWrite part (e + 8) (natToBytes 8 (l.hi - 2 ^ 34))
      | none => s1
  | .error _ => s
/-- The access of a scheduler finds a page that has not been pulled: it is pulled first (R346). -/
def State.pullNow (s : State) (x va : Nat) (root : Option (Nat × Nat) := none) : State :=
  if s.unpulled x va root then pullPage s x (va / 4096) true else s

/-- The refusal of an access by a sluice is reported (R309): report 6 names the home. -/
def State.refusal (s : State) (x va n : Nat) (a : MemAgent) (write : Bool) (root : Option (Nat × Nat) := none)
    (src : Option Nat := none) : State :=
  match s.translate x va a write root with
  | .error _ => s
  | .ok (pa, l) =>
    let part := s.partAt x root
    let home (i : Nat) : Nat := s.metAt src part l.hi i
    match regionOf pa with
    | .hbm | .granary => (match (linesOf pa n).find? (fun i => s.sluice (home i) part (256 * i) (b2n write) == stPoison) with
      | some i => s.report 6 (home i) x pa
      | none => s)
    | .aperture | .host | .peer | .reserved => s
/-- What a read by a scheduler or a fetch from bulkhead b does at the homes of its lines, beside giving the bytes (R302, R304), or the
report of its refusal (R309), or the count of a poisoned walk (R386); a page that a migration has still to pull is pulled (R346). -/
def State.reading (s0 : State) (x va n : Nat) (a : MemAgent) (b : Nat) (root : Option (Nat × Nat) := none) : State :=
  let s := s0.pullNow x va root
  match s.translate x va a false root with
  | .error _ => s.countWalk x va root
  | .ok (pa, l) =>
    if s.rangeSluice (s.partAt x root) l.hi pa n 0 (some b) == stGood then s.readsLines x (s.partAt x root) l.hi b pa n
    else s.refusal x va n a false root (some b)
/-- A write whose failure is only recorded elsewhere. -/
def State.vwriteTry (s0 : State) (x va : Nat) (w : Word) (a : MemAgent) : State :=
  let s := s0.pullNow x va
  match s.vwriteWord x va w a with
  | .ok s' => s'
  | .error _ => s.refusal x va 8 a true

/-! The scratchpad of a core (R193). -/

def Core.scratchRead (k : Core) (off n : Nat) : List Byte := k.scratch.read off n
def Core.scratchPoisoned (k : Core) (off n : Nat) : Bool := anyMarked k.marks off n
def Core.scratchWrite (k : Core) (off : Nat) (bs : List Byte) : Core :=
  { k with scratch := k.scratch.write off bs, marks := clearMarks k.marks off bs.length, downs := clearMarks k.downs off bs.length }
/-- Marks of poisoned pieces at an offset. -/
def markPieces (marks : List Nat) (off : Nat) (bad : List (Nat × Nat)) : List Nat :=
  bad.foldl (fun m (o, n) => addMarks m (off + o) n) marks
/-- The bank an offset lies in (R193). -/
def bankOf (off : Nat) : Nat := off / 0x8000

/-- The words that a range covers whole. -/
def wholeWords (off n : Nat) : List Nat := ((List.range (n / 8 + 1)).map (· + (off + 7) / 8)).filter (fun w => 8 * w + 8 ≤ off + n)
/-- A write to the steep bank at an offset of the window's bank (R201); with the fill flag, words written in full are
full; bad are the poisoned pieces (R217), more the words that it completes after earlier writes of its command (R283). -/
def Core.steepWrite (k : Core) (off : Nat) (data : List Byte) (fill : Bool) (bad : List (Nat × Nat)) (more : List Nat := []) : Core :=
  { k with
    steep := k.steep.write off data
    steepMarks := markPieces (clearMarks k.steepMarks off data.length) off bad
    steepFull := if fill then (wholeWords off data.length ++ more).foldl sadd k.steepFull else k.steepFull }
/-- A write to the live bank with the same meaning. -/
def Core.liveWrite (k : Core) (off : Nat) (data : List Byte) (fill : Bool) (bad : List (Nat × Nat)) (more : List Nat := []) : Core :=
  let j := k.scratchWrite off data
  { j with marks := markPieces j.marks off bad, full := if fill then (wholeWords off data.length ++ more).foldl sadd k.full else k.full }

/-- Swaps the steep bank with the live bank of the window, contents, full/empty bits and marks (R202, R269). -/
def Core.swapWindow (k : Core) : Core :=
  let bank := wbits (mget 0 k.sys 0x30) 0 5
  let base := bank * 0x8000
  let inBank (a n : Nat) : Bool := decide (base ≤ a * n) && decide (a * n < base + 0x8000)
  { k with
    scratch := k.scratch.write base (k.steep.read 0 0x8000)
    steep := (k.scratch.filter (fun c => inBank c.1 1)).map (fun c => (c.1 - base, c.2))
    full := (k.steepFull.map (· + base / 8)).foldl sadd (k.full.filter (fun w => !inBank w 8))
    steepFull := (k.full.filter (fun w => inBank w 8)).map (· - base / 8)
    marks := (k.steepMarks.map (· + base / 64)).foldl sadd (k.marks.filter (fun g => !inBank g 64))
    steepMarks := (k.marks.filter (fun g => inBank g 64)).map (· - base / 64) }

end Sys2Proof.Machine
end

