-- ==== Sys2Proof/Machine/Regs.lean ====
section
/-! DEFINITION. The system registers (spec/21 R351 to R353 and the rules R352 names): reading one, and a write by the
access type of each field, with its side effects. -/

namespace Sys2Proof.Machine

/-- The reset value of a register kept in Core.sys (R38, R306, R308; the others 0). -/
def sysReset (n : Nat) : Word :=
  if n == 0x12 then 0x1800 else if n == 0x33 then 0xFFFF else if n == 0x34 then 0x10000000000 else 0
def Core.sysReg (k : Core) (n : Nat) : Word := mget (sysReset n) k.sys n
def Core.setSys (k : Core) (n : Nat) (v : Word) : Core := { k with sys := mset (sysReset n) k.sys n v }

/-- The partition and the context a core runs; the management core runs none. -/
def Core.ctxOf (k : Core) : Nat := match k.running with | some r => r.ctx | none => 0
def Core.partOf (k : Core) : Nat := match k.running with | some r => r.part | none => 0

/-- What sysr returns (R72, R352). -/
def readSys (s : State) (c n : Nat) : Word :=
  let k := s.core c
  if n == 0x10 then BitVec.ofNat 64 s.time
  else if n == 0x11 then BitVec.ofNat 64 (s.time / 256 * 65536 + c % 256 * 256 + s.time % 256)
  else if n == 0x14 then s.hubReg (0x800 + 32 * k.partOf)
  else if n == 0x36 then s.hubReg (0x808 + 32 * k.partOf)
  else if n == 0x32 then mget 0 s.invalidations k.ctxOf
  else if n == 0x35 then
    let b := s.bucket k.ctxOf (bulkOf c)
    BitVec.ofNat 64 (b.wait % 2 ^ 32 * 2 ^ 32 + ((b.tokens / 2000) % (2 ^ 32 : Int)).toNat)
  else if 0x40 ≤ n ∧ n ≤ 0x4F then mget 0 k.tlctx (n - 0x40)
  else k.sysReg n

/-- The writable bits of a register for a program (R6, R38, R60, R105, R194, R201, R258, R273, R329, R341, R353). -/
def sysMask (n : Nat) : Word :=
  if n == 0x000 then 0xFE00FFFFFFFFFFFF
  else if n == 0x001 then 0xFFFFFFFFFFFFFFFF
  else if n == 0x002 then 0x0000F0FFFFFFFFFF
  else if n == 0x003 then 0x4000000000000000
  else if n == 0x004 then 0x0000FFFFFFFFFFFF
  else if n == 0x006 then 0x0000FFFFFFFFFFF0
  else if n == 0x007 then 0xFFFFFFFFFFFFFFFF
  else if n == 0x008 then 0xFFF0000000000000
  else if n == 0x00A then 0xFFFFFFFFFFFFFFFF
  else if n == 0x013 then 0xFFFFFFFFFFFFFFFF
  else if 0x018 ≤ n ∧ n ≤ 0x01F then 0x00000000FFFFFFFF
  else if 0x020 ≤ n ∧ n ≤ 0x027 then 0xFFFFFFFFFFFFFFFF
  else if n == 0x030 then 0x000000000000011F
  else if 0x060 ≤ n ∧ n ≤ 0x07F then 0x000000000000003F
  else 0

/-- The page range of PGINV or HINV (R213): first byte and length, none with ALL. A SIZE of 12 to 15 counts as 4 KiB, and a VPN that is not a
multiple of the size gives the range from VPN on: the spec says neither (DESIGN CHOICE, log entry 118). -/
def invRange (v : Word) : Option (Nat × Nat) :=
  if wbit v 62 then none else some (wbits v 0 45 * 4096, pageBytes (wbits v 56 4))

/-- The page of a handle in virtual space. -/
def Handle.pageBase (h : Handle) : Nat := alignDown h.vbase.toNat (pageBytes h.size.toNat)

/-- Unlocks the pinned lines of a page that no other pinned page holds; they are written back (R198), which is charged to their
owner (R308). -/
def State.unpinPage (s : State) (frame n : Nat) (others : List (Nat × Nat)) : State :=
  let hit (a : Nat) (l : Line) : Bool := l.pinned && frame ≤ a * 256 && a * 256 < frame + n && !others.any (fun (g, m) => overlaps (a * 256) 256 g m)
  let t := s.lines.foldl (fun (t : State) (a, l) => if hit a l then t.chargeLine l else t) s
  { t with lines := t.lines.filterMap (fun (a, l) =>
      if hit a l then (let l' : Line := if l.v then { l with pinned := false, dirty := false } else {}; if l' = {} then none else some (a, l'))
      else some (a, l)) }
/-- Translations of pinned pages end: the lines of a page whose last one it is are unlocked (R198). -/
def State.dropPins (s : State) (gone : Nat × Nat × Nat × Nat → Bool) : State :=
  let rest := s.pins.filter (fun p => !gone p)
  (s.pins.filter gone).foldl (fun (t : State) (_, _, f, n) => t.unpinPage f n (rest.map (fun (_, _, g, m) => (g, m)))) { s with pins := rest }

/-- Whether a range of virtual addresses meets the range of an invalidation, none for every page. -/
def rangeHits (range : Option (Nat × Nat)) (a n : Nat) : Bool := match range with | none => true | some (b, m) => overlaps a n b m
/-- The context whose pages the handles of a core name. -/
def Core.handleCtx (k : Core) : Nat := match k.running with | some r => r.ctx | none => k.lastCtx
/-- Invalidates the handles and cached translations of one core that overlap a range (R213), those of one context or of all. -/
def Core.invalidate (k : Core) (x : Option Nat) (range : Option (Nat × Nat)) : Core :=
  let mine (y : Nat) : Bool := x.isNone || x == some y
  { k with
    h := k.h.map (fun (i, h) =>
      if mine k.handleCtx && h.state == 2 && i < 15 && rangeHits range h.pageBase (pageBytes h.size.toNat)
      then (i, { h with state := 3, cause := 6, gen := h.gen + 1 }) else (i, h))
    xcache := k.xcache.filter (fun (y, va, n) => !(mine y && rangeHits range va n)) }

/-- Invalidates pages of a context, or of every context, in every core of a partition (R213). -/
def invalidatePages (s : State) (p : Nat) (x : Option Nat) (range : Option (Nat × Nat)) : State :=
  ({ s with cores := s.cores.map (fun e : Nat × Core => if s.partHas p (bulkOf e.1) then (e.1, Core.invalidate e.2 x range) else e) } : State).dropPins
    (fun (y, va, _, n) => s.ctxPart y == p && (x.isNone || x == some y) && rangeHits range va n)

/-- Starts a page invalidation in partition p (R213), from PGINV of context x or from HINV of function f (key 4,096 + f):
every core of the partition at once, then BUSY until the accesses under the old translations are performed. -/
def invalidateFrom (s : State) (key p : Nat) (v : Word) : State :=
  if wbit (mget 0 s.invalidations key) 63 then s
  else
    let s1 := invalidatePages s p (if key < 4096 then some key else none) (invRange v)
    { s1 with invalidations := mput s1.invalidations key (wput (v &&& 0x4F001FFFFFFFFFFF#64) 63 1 1), nextReq := s.nextReq + 1 }.pendOnce
      .invalidationComplete { unit := key, aux := s.nextReq + 1 }
def startInvalidation (s : State) (x p : Nat) (v : Word) : State := invalidateFrom s x p v

/-- The write-backs that clearing bits of WAYMASK starts (R306): the context's dirty lines in the removed ways. -/
def wayWriteback (s : State) (x removed : Nat) : State :=
  let t := s.lines.foldl (fun (t : State) (_, l) => if l.v && l.owner == x && bits removed l.way 1 == 1 then t.chargeLine l else t) s
  { t with lines := t.lines.filterMap (fun (a, l) =>
      if l.v && l.dirty && l.owner == x && bits removed l.way 1 == 1 then
        (let l' := { l with dirty := false }; if l' = {} then none else some (a, l'))
      else some (a, l)) }

/-- A write to WAYMASK of a context (R306): firmware writes any value of the descriptor, a program can only clear bits of its core's copy,
which is then the descriptor's value too (R367). -/
def writeWaymask (s : State) (x : Nat) (v : Word) (copy : Option Word) : State :=
  let old := wbits (copy.getD (s.ctxd x 0x18)) 0 16
  let new := if copy.isNone then wbits v 0 16 else Nat.land old (wbits v 0 16)
  let s1 := wayWriteback s x (Nat.land old (Nat.xor 0xFFFF new))
  s1.setCtxd x 0x18 (BitVec.ofNat 64 new)

/-- What FEL holds for a value: an empty one reads 0 (R105), a value whose VALID is 0 with it (DEDUCED, log entry 101). -/
def felValue (v : Word) : Word := if wbit v 63 then v &&& sysMask 0 else 0
/-- A write to FEL (R104, R105): events of operations issued before it are discarded when they land; no later event
replaces a record written with VALID 1, whose place counts as the first (DESIGN CHOICE, log entry 104). -/
def writeFel (s : State) (c : Nat) (v : Word) (seq : Nat) : State :=
  s.modCore c (fun k => { k.setSys 0 (felValue v) with felSeq := seq, felHold := 0 })

/-- Whether a core still has accesses on their way (R275). What waits at a sync engine stays there. -/
def State.outstanding (s : State) (c : Nat) : Bool := s.fabric.any (fun r => r.core == c && !(r.parked && regionOf r.pa != .peer))

/-- A write to MB7 by a core (R353, R379): the register takes the value; the message of vector 2 to 63 waits for the accesses before
place seq in issue order. -/
def writeMb7 (s : State) (c : Nat) (v : Word) (seq slot : Nat) : State :=
  let s1 := s.modCore c (fun k => k.setSys 0x27 v)
  if wbits v 0 6 ≥ 2 && (s.core c).running.isSome then
    { s1 with msixWait := s1.msixWait ++ [{ core := c, part := (s.core c).partOf, vec := wbits v 0 6, seq := seq, slot := slot }] }
  else s1

/-- A write to IRQ: the W1C bits (R341). -/
def writeIrq (k : Core) (v : Word) : Core := k.setSys 9 (k.sysReg 9 &&& ~~~(v &&& 0x1E#64))
def Core.setIrq (k : Core) (bit : Nat) : Core := k.setSys 9 (k.sysReg 9 ||| BitVec.ofNat 64 (2 ^ bit))

/-- A write to BANKFn (R194): a reserved format code leaves FMT unchanged. -/
def writeBankf (k : Core) (n : Nat) (v : Word) : Core :=
  let fmt := if wbits v 0 4 > 9 then wbits (k.sysReg n) 0 4 else wbits v 0 4
  k.setSys n (BitVec.ofNat 64 (wbits v 4 2 * 16 + fmt))

/-- The landing of a program's write of register n (R351): field by field, with its side effect. -/
def writeSys (s : State) (c n : Nat) (v : Word) (seq : Nat) (slot : Nat := 0) : State :=
  let k := s.core c
  if n == 0x000 then writeFel s c v seq
  else if n == 0x006 then
    let v' := v &&& sysMask 6
    let s1 := s.modCore c (fun k => k.setSys 6 v')
    if k.running.isSome && !isMgmt c then s1.setCtxd k.ctxOf 0x10 v' else s1
  else if n == 0x008 then s.setCore c (k.setSys 8 (v &&& sysMask 8))
  else if n == 0x009 then s.setCore c (writeIrq k v)
  else if n == 0x00A then
    let s1 := s.setCore c (k.setSys 0xA v)
    if v != 0 && v.toNat ≤ s.time then s1.pendOnce .timerMatch { unit := c } else s1
  else if n == 0x027 then writeMb7 s c v seq slot
  else if n == 0x032 then startInvalidation s k.ctxOf k.partOf v
  else if n == 0x033 then
    let s1 := writeWaymask s k.ctxOf v (some (k.sysReg 0x33))
    s1.modCore c (fun k => k.setSys 0x33 (s1.ctxd k.ctxOf 0x18))
  else if 0x060 ≤ n ∧ n ≤ 0x07F then s.setCore c (writeBankf k n v)
  else s.setCore c (k.setSys n (wmask (sysMask n) (k.sysReg n) v))

end Sys2Proof.Machine
end

