-- ==== Sys2Proof/Machine/Flags.lean ====
section
/-! DEFINITION. Predicates and events: the compares (spec/04 R69), guards (spec/03 R43) and the first-event log
(spec/05 R103 to R105). -/

namespace Sys2Proof.Machine

/-- Whether a guard lets its operation take effect (R43). -/
def Core.guardHolds (k : Core) (g : Guard) : Bool :=
  if g.getLsbD 3 then !k.rp (g.setWidth 3) else k.rp (g.setWidth 3)

/-- The second operand of a compare (R69). -/
def Core.cmpOperand (k : Core) (o : CmpOpnd) : Word :=
  match o with
  | .reg b => k.rs b
  | .imm i => i.signExtend 64
  | .ext w => w.signExtend 64

/-- The .w form of an operand: bits 31:0, sign-extended, so that signed and unsigned orders are those of 32 bits. -/
def lowWord (a : Word) : Word := (a.setWidth 32).signExtend 64

/-- The six relations of R69. -/
def relEq (a b : Word) : Bool := a == b
def relNe (a b : Word) : Bool := a != b
def relLt (a b : Word) : Bool := decide (a.toInt < b.toInt)
def relLe (a b : Word) : Bool := decide (a.toInt ≤ b.toInt)
def relLtz (a b : Word) : Bool := decide (a.toNat < b.toNat)
def relLez (a b : Word) : Bool := decide (a.toNat ≤ b.toNat)

/-- An FEL record (R105). -/
def felWord (kind slot adr : Nat) : Word := BitVec.ofNat 64 (2 ^ 63 + kind * 2 ^ 60 + slot * 2 ^ 57 + adr % 2 ^ 48)

/-- Joins an event to a log (R104): the log, and the place in issue order of the operation it records. Events of operations issued before
the last write to FEL are discarded. 'Before' goes by issue order, the order in which bundles are dispatched and their slots listed, also
where a slot has slipped or a frozen program goes on after its handler (DEDUCED, log entry 104). -/
def joinEvent (fel : Word) (hold since : Nat) (kind slot adr seq : Nat) : Word × Nat :=
  if kind == 0 || seq < since then (fel, hold)
  else if !wbit fel 63 || seq < hold then (felWord kind slot adr, seq)
  else (fel, hold)

/-- Records the event of a landed result in FEL, and in the shadow when its operation came before the mark (R338). -/
def Core.recordEvent (k : Core) (f : Flight) : Core :=
  if f.kind == 0 then k
  else
    let (w, h) := joinEvent (k.sysReg 0) k.felHold k.felSeq f.kind f.slot f.adr f.seq
    let k1 := { k.setSys 0 w with felHold := h }
    if k.mark.armed && f.seq < k.mark.seq then
      let (w', h') := joinEvent k.mark.shadow.fel k.mark.shadow.felHold k.mark.shadow.felSeq f.kind f.slot f.adr f.seq
      { k1 with mark := { k1.mark with shadow := { k1.mark.shadow with fel := w', felHold := h' } } }
    else k1

end Sys2Proof.Machine
end

