-- ==== Sys2Proof/Decode.lean ====
section
/-! DEFINITION. The decoder of syllables (spec/03 R40 to R60) and of moves (spec/20 R320), total and rejecting by the
cause codes of R56, and after it the encoder written from the same tables. -/

namespace Sys2Proof

/-- The fields common to every syllable (R42), its 19 operand bits and its extension word (0 when X = 0). -/
structure Raw where
  opc : Nat
  x : Bool
  g : BitVec 4
  ops : Nat
  ext : Nat
deriving DecidableEq, Repr

def Raw.ofWords (w ext : Nat) : Raw :=
  { opc := w / 16777216 % 256, x := w / 8388608 % 2 == 1, g := BitVec.ofNat 4 (w / 524288), ops := w % 524288,
    ext := if w / 8388608 % 2 == 1 then ext % 4294967296 else 0 }

/-- The first word of a syllable. -/
def Raw.word (r : Raw) : Nat := r.opc * 16777216 + r.x.toNat * 8388608 + r.g.toNat * 524288 + r.ops

/-- The n operand bits from bit lo on. -/
def Raw.f (r : Raw) (n lo : Nat) : BitVec n := BitVec.ofNat n (r.ops / 2 ^ lo)
def Raw.n (r : Raw) (n lo : Nat) : Nat := r.ops / 2 ^ lo % 2 ^ n
def Raw.nz (r : Raw) (n lo : Nat) : Bool := r.ops / 2 ^ lo % 2 ^ n != 0
def Raw.b (r : Raw) (lo : Nat) : Bool := r.ops / 2 ^ lo % 2 == 1
/-- The n extension bits from bit lo on. -/
def Raw.e (r : Raw) (n lo : Nat) : BitVec n := BitVec.ofNat n (r.ext / 2 ^ lo)
def Raw.extN (r : Raw) (n lo : Nat) : Nat := r.ext / 2 ^ lo % 2 ^ n

def Fmt.ofCode (n : Nat) : Fmt :=
  match n with
  | 0 => .f32 | 1 => .bf16 | 2 => .f16 | 3 => .e4m3 | 4 => .e5m2 | 5 => .mk8 | 6 => .i8 | 7 => .i16 | 8 => .i32 | 9 => .i4
  | _ => .f32
def Rnd.ofCode (n : Nat) : Rnd :=
  match n with
  | 0 => .rne | 1 => .rtz | 2 => .rdn | 3 => .rup | 4 => .sto
  | _ => .rne
def Scope.ofCode (n : Nat) : Scope :=
  match n with
  | 0 => .core | 1 => .bulk | 2 => .dev
  | _ => .sys
def TailMode.ofCode (n : Nat) : TailMode :=
  match n with
  | 0 => .clamp | 1 => .ident | 2 => .zero
  | _ => .const
def RowStep.ofCode (n : Nat) : RowStep :=
  match n with
  | 0 => .next | 1 => .hold
  | _ => .rewind
def TlSel.ofCode (n : Nat) : TlSel :=
  match n with
  | 0 => .count | 1 => .err
  | _ => .errc

/-- The operands of R47 that come from the extension word when X = 1. -/
def Raw.imm (r : Raw) : Imm := if r.x then .ext (r.e 32 0) else .short (r.f 7 0)
def Raw.cmp (r : Raw) : CmpOpnd :=
  if r.x then .ext (r.e 32 0) else if r.b 0 then .imm (r.f 6 4) else .reg (r.f 6 4)
def Raw.count (r : Raw) : Count := if r.x then .ext (r.e 32 0) else .short (r.f 6 11)
def Raw.extOpt (r : Raw) : Option W32 := if r.x then some (r.e 32 0) else none
def Raw.extOpt8 (r : Raw) : Option (BitVec 8) := if r.x then some (r.e 8 0) else none
def Raw.step (r : Raw) : Step :=
  match r.n 3 0 with
  | 0 => .zero | 1 => .plusZ | 2 => .minusZ | 3 => .plus2Z | 4 => .plus4Z | 5 => .plus8Z
  | 6 => .bytes (r.e 32 0)
  | _ => .zero
def Raw.vext (r : Raw) : Option VExt :=
  if r.x then some { rnd := Rnd.ofCode (r.extN 3 29), c := r.e 5 24, sf := Fmt.ofCode (r.extN 4 20), imm := r.e 20 0 } else none

/-- What is wrong with a syllable: its lowest cause (R56), and the operation that its opcode names, if it names one; the
registers of that operation still count for the other slots of the bundle (R57, R58). -/
abbrev Flaw := Nat × Option Instr

/-- An instruction, unless a condition on its bits or a limit of its entry holds; then the lowest cause (R56). -/
def accept (bits : List (Bool × Nat)) (i : Instr) : Except Flaw Instr :=
  match lowestCause (bits ++ limitsOf i) with
  | some c => .error (c, some i)
  | none => .ok i

/-- The five opcode spaces besides that of BR (R50 to R55). -/
inductive Space where
  | scalar | load | vector | matrix | engine | branch
deriving DecidableEq, Repr

/-- The opcode space of a slot (R13, R51 to R55). -/
def Space.ofSlot (slot : Nat) : Space :=
  match slot with
  | 0 => .scalar | 1 => .scalar | 2 => .load | 3 => .load | 4 => .vector | 5 => .matrix | 6 => .engine
  | _ => .branch

/-- The opcode map of SA and SB (R51). -/
def decodeScalar (r : Raw) : Except Flaw Instr :=
  match r.opc with
  | 0 => accept [(r.x || r.g != 0 || r.ops != 0, 3)] .nop
  | 0x01 => accept [(r.x, 4)] (.add r.g (r.f 6 13) (r.f 6 7) (r.f 6 1) (r.b 0))
  | 0x02 => accept [(r.x, 4)] (.sub r.g (r.f 6 13) (r.f 6 7) (r.f 6 1) (r.b 0))
  | 0x03 => accept [(r.x, 4)] (.mul r.g (r.f 6 13) (r.f 6 7) (r.f 6 1) (r.b 0))
  | 0x04 => accept [(r.x, 4)] (.mulhi r.g (r.f 6 13) (r.f 6 7) (r.f 6 1) (r.b 0))
  | 0x05 => accept [(r.x, 4)] (.mulhz r.g (r.f 6 13) (r.f 6 7) (r.f 6 1) (r.b 0))
  | 0x06 => accept [(r.x, 4)] (.div r.g (r.f 6 13) (r.f 6 7) (r.f 6 1) (r.b 0))
  | 0x07 => accept [(r.x, 4)] (.divz r.g (r.f 6 13) (r.f 6 7) (r.f 6 1) (r.b 0))
  | 0x08 => accept [(r.x, 4)] (.rem r.g (r.f 6 13) (r.f 6 7) (r.f 6 1) (r.b 0))
  | 0x09 => accept [(r.x, 4)] (.remz r.g (r.f 6 13) (r.f 6 7) (r.f 6 1) (r.b 0))
  | 0x0A => accept [(r.x, 4), (r.nz 1 0, 3)] (.and r.g (r.f 6 13) (r.f 6 7) (r.f 6 1))
  | 0x0B => accept [(r.x, 4), (r.nz 1 0, 3)] (.or r.g (r.f 6 13) (r.f 6 7) (r.f 6 1))
  | 0x0C => accept [(r.x, 4), (r.nz 1 0, 3)] (.xor r.g (r.f 6 13) (r.f 6 7) (r.f 6 1))
  | 0x0D => accept [(r.x, 4), (r.nz 1 0, 3)] (.andn r.g (r.f 6 13) (r.f 6 7) (r.f 6 1))
  | 0x0E => accept [(r.x, 4)] (.shl r.g (r.f 6 13) (r.f 6 7) (r.f 6 1) (r.b 0))
  | 0x0F => accept [(r.x, 4)] (.shr r.g (r.f 6 13) (r.f 6 7) (r.f 6 1) (r.b 0))
  | 0x10 => accept [(r.x, 4)] (.sra r.g (r.f 6 13) (r.f 6 7) (r.f 6 1) (r.b 0))
  | 0x11 => accept [(r.x, 4)] (.rol r.g (r.f 6 13) (r.f 6 7) (r.f 6 1) (r.b 0))
  | 0x12 => accept [(r.x, 4)] (.min r.g (r.f 6 13) (r.f 6 7) (r.f 6 1) (r.b 0))
  | 0x13 => accept [(r.x, 4)] (.max r.g (r.f 6 13) (r.f 6 7) (r.f 6 1) (r.b 0))
  | 0x14 => accept [(r.x, 4)] (.minz r.g (r.f 6 13) (r.f 6 7) (r.f 6 1) (r.b 0))
  | 0x15 => accept [(r.x, 4)] (.maxz r.g (r.f 6 13) (r.f 6 7) (r.f 6 1) (r.b 0))
  | 0x20 => accept [(r.x && r.nz 7 0, 3)] (.addi r.g (r.f 6 13) (r.f 6 7) r.imm)
  | 0x21 => accept [(r.x && r.nz 7 0, 3)] (.andi r.g (r.f 6 13) (r.f 6 7) r.imm)
  | 0x22 => accept [(r.x && r.nz 7 0, 3)] (.ori r.g (r.f 6 13) (r.f 6 7) r.imm)
  | 0x23 => accept [(r.x && r.nz 7 0, 3)] (.xori r.g (r.f 6 13) (r.f 6 7) r.imm)
  | 0x24 => accept [(r.x && r.nz 7 0, 3)] (.shli r.g (r.f 6 13) (r.f 6 7) r.imm)
  | 0x25 => accept [(r.x && r.nz 7 0, 3)] (.shri r.g (r.f 6 13) (r.f 6 7) r.imm)
  | 0x26 => accept [(r.x && r.nz 7 0, 3)] (.srai r.g (r.f 6 13) (r.f 6 7) r.imm)
  | 0x28 => accept [(r.x && r.nz 7 0, 3)] (.addiW r.g (r.f 6 13) (r.f 6 7) r.imm)
  | 0x2C => accept [(r.x, 4), (r.x && r.nz 7 0, 3)] (.shliW r.g (r.f 6 13) (r.f 6 7) (r.f 7 0))
  | 0x2D => accept [(r.x, 4), (r.x && r.nz 7 0, 3)] (.shriW r.g (r.f 6 13) (r.f 6 7) (r.f 7 0))
  | 0x2E => accept [(r.x, 4), (r.x && r.nz 7 0, 3)] (.sraiW r.g (r.f 6 13) (r.f 6 7) (r.f 7 0))
  | 0x40 => accept [(r.x && !r.b 0, 3), (r.x && r.nz 6 4, 3)] (.cmpeq r.g (r.f 3 16) (r.f 3 1) (r.f 6 10) r.cmp)
  | 0x41 => accept [(r.x && !r.b 0, 3), (r.x && r.nz 6 4, 3)] (.cmpne r.g (r.f 3 16) (r.f 3 1) (r.f 6 10) r.cmp)
  | 0x42 => accept [(r.x && !r.b 0, 3), (r.x && r.nz 6 4, 3)] (.cmplt r.g (r.f 3 16) (r.f 3 1) (r.f 6 10) r.cmp)
  | 0x43 => accept [(r.x && !r.b 0, 3), (r.x && r.nz 6 4, 3)] (.cmple r.g (r.f 3 16) (r.f 3 1) (r.f 6 10) r.cmp)
  | 0x44 => accept [(r.x && !r.b 0, 3), (r.x && r.nz 6 4, 3)] (.cmpltz r.g (r.f 3 16) (r.f 3 1) (r.f 6 10) r.cmp)
  | 0x45 => accept [(r.x && !r.b 0, 3), (r.x && r.nz 6 4, 3)] (.cmplez r.g (r.f 3 16) (r.f 3 1) (r.f 6 10) r.cmp)
  | 0x48 => accept [(r.x && !r.b 0, 3), (r.x && r.nz 6 4, 3)] (.cmpeqW r.g (r.f 3 16) (r.f 3 1) (r.f 6 10) r.cmp)
  | 0x49 => accept [(r.x && !r.b 0, 3), (r.x && r.nz 6 4, 3)] (.cmpneW r.g (r.f 3 16) (r.f 3 1) (r.f 6 10) r.cmp)
  | 0x4A => accept [(r.x && !r.b 0, 3), (r.x && r.nz 6 4, 3)] (.cmpltW r.g (r.f 3 16) (r.f 3 1) (r.f 6 10) r.cmp)
  | 0x4B => accept [(r.x && !r.b 0, 3), (r.x && r.nz 6 4, 3)] (.cmpleW r.g (r.f 3 16) (r.f 3 1) (r.f 6 10) r.cmp)
  | 0x4C => accept [(r.x && !r.b 0, 3), (r.x && r.nz 6 4, 3)] (.cmpltzW r.g (r.f 3 16) (r.f 3 1) (r.f 6 10) r.cmp)
  | 0x4D => accept [(r.x && !r.b 0, 3), (r.x && r.nz 6 4, 3)] (.cmplezW r.g (r.f 3 16) (r.f 3 1) (r.f 6 10) r.cmp)
  | 0x50 => accept [(r.x, 4), (r.nz 8 0, 3)] (.pand r.g (r.f 3 16) (r.f 3 13) (r.f 3 10) (r.b 9) (r.b 8))
  | 0x51 => accept [(r.x, 4), (r.nz 8 0, 3)] (.por r.g (r.f 3 16) (r.f 3 13) (r.f 3 10) (r.b 9) (r.b 8))
  | 0x52 => accept [(r.x, 4), (r.nz 8 0, 3)] (.pxor r.g (r.f 3 16) (r.f 3 13) (r.f 3 10) (r.b 9) (r.b 8))
  | 0x53 => accept [(r.x, 4), (r.nz 9 0, 3), (r.nz 3 10, 3)] (.pnot r.g (r.f 3 16) (r.f 3 13) (r.b 9))
  | 0x54 => accept [(r.x, 4), (r.nz 6 13, 3), (r.nz 1 0, 3)] (.pset r.g (r.f 6 7) (r.f 6 1))
  | 0x55 => accept [(r.x, 4), (r.nz 13 0, 3)] (.pget r.g (r.f 6 13))
  | 0x60 => accept [(r.x, 4), (r.nz 6 1, 3)] (.clz r.g (r.f 6 13) (r.f 6 7) (r.b 0))
  | 0x61 => accept [(r.x, 4), (r.nz 6 1, 3)] (.ctz r.g (r.f 6 13) (r.f 6 7) (r.b 0))
  | 0x62 => accept [(r.x, 4), (r.nz 6 1, 3)] (.popc r.g (r.f 6 13) (r.f 6 7) (r.b 0))
  | 0x63 => accept [(r.x, 4), (r.nz 1 0, 3)] (.bext r.g (r.f 6 13) (r.f 6 7) (r.f 6 1))
  | 0x64 => accept [(r.x, 4), (r.nz 1 0, 3)] (.bins r.g (r.f 6 13) (r.f 6 7) (r.f 6 1))
  | 0x65 => accept [(r.x, 4), (r.x && r.nz 7 0, 3)] (.sext r.g (r.f 6 13) (r.f 6 7) (r.f 7 0))
  | 0x66 => accept [(r.x, 4), (r.x && r.nz 7 0, 3)] (.zext r.g (r.f 6 13) (r.f 6 7) (r.f 7 0))
  | 0x70 => accept [(r.x, 4), (r.nz 7 0, 3)] (.mov r.g (r.f 6 13) (r.f 6 7))
  | 0x71 => accept [(r.x && r.nz 7 0, 3), (r.nz 6 7, 3)] (.li r.g (r.f 6 13) r.imm)
  | 0x72 => accept [(r.x && r.nz 7 0, 3)] (.lih r.g (r.f 6 13) (r.f 6 7) r.imm)
  | 0x78 => accept [(r.x, 4)] (.sysr r.g (r.f 6 13) (r.f 13 0))
  | 0x79 => accept [(r.x, 4)] (.sysw r.g (r.f 6 13) (r.f 13 0))
  | 0x7A => accept [(r.x, 4)] (.sysx r.g (r.f 6 13) (r.f 13 0))
  | _ => .error (1, none)

/-- The opcode map of LA and LB (R52). -/
def decodeLoad (r : Raw) : Except Flaw Instr :=
  match r.opc with
  | 0 => accept [(r.x || r.g != 0 || r.ops != 0, 3)] .idle
  | 0x01 => accept [(r.x && r.n 3 0 != 6, 4), (!r.x && r.n 3 0 == 6, 5), (r.n 3 0 == 7, 6)] (.ldb r.g (r.f 6 13) (r.f 4 9) (r.f 6 3) r.step)
  | 0x02 => accept [(r.x && r.n 3 0 != 6, 4), (!r.x && r.n 3 0 == 6, 5), (r.n 3 0 == 7, 6)] (.ldh r.g (r.f 6 13) (r.f 4 9) (r.f 6 3) r.step)
  | 0x03 => accept [(r.x && r.n 3 0 != 6, 4), (!r.x && r.n 3 0 == 6, 5), (r.n 3 0 == 7, 6)] (.ldw r.g (r.f 6 13) (r.f 4 9) (r.f 6 3) r.step)
  | 0x04 => accept [(r.x && r.n 3 0 != 6, 4), (!r.x && r.n 3 0 == 6, 5), (r.n 3 0 == 7, 6)] (.ldd r.g (r.f 6 13) (r.f 4 9) (r.f 6 3) r.step)
  | 0x05 => accept [(r.x && r.n 3 0 != 6, 4), (!r.x && r.n 3 0 == 6, 5), (r.n 3 0 == 7, 6)] (.ldbz r.g (r.f 6 13) (r.f 4 9) (r.f 6 3) r.step)
  | 0x06 => accept [(r.x && r.n 3 0 != 6, 4), (!r.x && r.n 3 0 == 6, 5), (r.n 3 0 == 7, 6)] (.ldhz r.g (r.f 6 13) (r.f 4 9) (r.f 6 3) r.step)
  | 0x07 => accept [(r.x && r.n 3 0 != 6, 4), (!r.x && r.n 3 0 == 6, 5), (r.n 3 0 == 7, 6)] (.ldwz r.g (r.f 6 13) (r.f 4 9) (r.f 6 3) r.step)
  | 0x08 => accept [(r.x && r.n 3 0 != 6, 4), (!r.x && r.n 3 0 == 6, 5), (r.n 3 0 == 7, 6)] (.stb r.g (r.f 6 13) (r.f 4 9) (r.f 6 3) r.step)
  | 0x09 => accept [(r.x && r.n 3 0 != 6, 4), (!r.x && r.n 3 0 == 6, 5), (r.n 3 0 == 7, 6)] (.sth r.g (r.f 6 13) (r.f 4 9) (r.f 6 3) r.step)
  | 0x0A => accept [(r.x && r.n 3 0 != 6, 4), (!r.x && r.n 3 0 == 6, 5), (r.n 3 0 == 7, 6)] (.stw r.g (r.f 6 13) (r.f 4 9) (r.f 6 3) r.step)
  | 0x0B => accept [(r.x && r.n 3 0 != 6, 4), (!r.x && r.n 3 0 == 6, 5), (r.n 3 0 == 7, 6)] (.std r.g (r.f 6 13) (r.f 4 9) (r.f 6 3) r.step)
  | 0x0C => accept [(r.x && r.n 3 0 != 6, 4), (!r.x && r.n 3 0 == 6, 5), (r.n 3 0 == 7, 6), (r.nz 1 18, 3)] (.vld r.g (r.f 5 13) (r.f 4 9) (r.f 6 3) r.step)
  | 0x0D => accept [(r.x && r.n 3 0 != 6, 4), (!r.x && r.n 3 0 == 6, 5), (r.n 3 0 == 7, 6), (r.nz 1 18, 3)] (.vst r.g (r.f 5 13) (r.f 4 9) (r.f 6 3) r.step)
  | 0x0E => accept [(r.x && r.n 3 0 != 6, 4), (!r.x && r.n 3 0 == 6, 5), (r.n 3 0 == 7, 6), (r.nz 1 18, 3)] (.vldb r.g (r.f 5 13) (r.f 4 9) (r.f 6 3) r.step)
  | 0x40 => accept [(r.x && r.n 3 0 != 6, 4), (!r.x && r.n 3 0 == 6, 5), (r.nz 3 0, 3), (r.nz 4 9, 3), (r.nz 1 18, 3), (r.nz 1 8, 7)] (.cbput r.g (r.f 5 13) (r.f 5 3))
  | 0x41 => accept [(r.x && r.n 3 0 != 6, 4), (!r.x && r.n 3 0 == 6, 5), (r.nz 3 0, 3), (r.nz 4 9, 3), (r.nz 1 18, 3), (r.nz 1 8, 7)] (.cbget r.g (r.f 5 13) (r.f 5 3))
  | 0x42 => accept [(r.x && r.n 3 0 != 6, 4), (!r.x && r.n 3 0 == 6, 5), (r.n 3 0 == 7, 6), (r.nz 1 18, 3)] (.ldc r.g (r.f 5 13) (r.f 4 9) (r.f 6 3) r.step)
  | 0x43 => accept [(r.x && r.n 3 0 != 6, 4), (!r.x && r.n 3 0 == 6, 5), (r.n 3 0 == 7, 6), (r.nz 1 18, 3)] (.stc r.g (r.f 5 13) (r.f 4 9) (r.f 6 3) r.step)
  | 0x44 => accept [(r.x, 4), (r.nz 3 0, 3), (r.nz 4 9, 3), (r.nz 1 18, 3)] (.cbadvp r.g (r.f 5 13) (r.f 6 3))
  | 0x45 => accept [(r.x, 4), (r.nz 3 0, 3), (r.nz 4 9, 3), (r.nz 1 18, 3)] (.cbadvc r.g (r.f 5 13) (r.f 6 3))
  | 0x46 => accept [(r.x, 4), (!r.x && r.n 3 0 == 6, 5), (r.n 3 0 == 7, 6), (r.nz 1 18, 3), (r.n 4 9 != 15, 6)] (.cbcfg r.g (r.f 5 13) (r.f 6 3) r.step)
  | 0x48 => accept [(r.x && r.n 3 0 != 6, 4), (!r.x && r.n 3 0 == 6, 5), (r.n 3 0 == 7, 6), (r.nz 1 18, 3)] (.wld4 r.g (r.f 5 13) (r.f 4 9) (r.f 6 3) r.step)
  | 0x49 => accept [(r.x && r.n 3 0 != 6, 4), (!r.x && r.n 3 0 == 6, 5), (r.n 3 0 == 7, 6), (r.nz 1 18, 3)] (.wld8 r.g (r.f 5 13) (r.f 4 9) (r.f 6 3) r.step)
  | 0x60 => accept [(r.x && r.n 3 0 != 6, 4), (!r.x && r.n 3 0 == 6, 5), (r.n 3 0 == 7, 6)] (.ldfe r.g (r.f 6 13) (r.f 4 9) (r.f 6 3) r.step)
  | 0x61 => accept [(r.x && r.n 3 0 != 6, 4), (!r.x && r.n 3 0 == 6, 5), (r.n 3 0 == 7, 6)] (.stef r.g (r.f 6 13) (r.f 4 9) (r.f 6 3) r.step)
  | 0x62 => accept [(r.x && r.n 3 0 != 6, 4), (!r.x && r.n 3 0 == 6, 5), (r.n 3 0 == 7, 6)] (.ldff r.g (r.f 6 13) (r.f 4 9) (r.f 6 3) r.step)
  | 0x63 => accept [(r.x && r.n 3 0 != 6, 4), (!r.x && r.n 3 0 == 6, 5), (r.n 3 0 == 7, 6)] (.stff r.g (r.f 6 13) (r.f 4 9) (r.f 6 3) r.step)
  | 0x64 => accept [(r.x && r.n 3 0 != 6, 4), (!r.x && r.n 3 0 == 6, 5), (r.n 3 0 == 7, 6), (r.nz 6 13, 3)] (.feset r.g (r.f 4 9) (r.f 6 3) r.step)
  | 0x65 => accept [(r.x && r.n 3 0 != 6, 4), (!r.x && r.n 3 0 == 6, 5), (r.n 3 0 == 7, 6), (r.nz 6 13, 3)] (.feclr r.g (r.f 4 9) (r.f 6 3) r.step)
  | 0x68 => accept [(r.nz 1 0, 3)] (.ldacq r.g (r.f 6 13) (r.f 4 9) (r.f 6 3) (Scope.ofCode (r.n 2 1)) r.extOpt)
  | 0x69 => accept [(r.nz 1 0, 3)] (.strel r.g (r.f 6 13) (r.f 4 9) (r.f 6 3) (Scope.ofCode (r.n 2 1)) r.extOpt)
  | 0x6C => accept [(r.x, 4), (r.nz 1 0, 3), (r.nz 16 3, 3)] (.fence r.g (Scope.ofCode (r.n 2 1)))
  | 0x80 => accept [] (.amoaddW r.g (r.f 6 13) (r.f 4 9) (r.f 6 3) (Scope.ofCode (r.n 2 1)) (r.b 0) r.extOpt)
  | 0x81 => accept [] (.amoaddD r.g (r.f 6 13) (r.f 4 9) (r.f 6 3) (Scope.ofCode (r.n 2 1)) (r.b 0) r.extOpt)
  | 0x82 => accept [] (.amoandW r.g (r.f 6 13) (r.f 4 9) (r.f 6 3) (Scope.ofCode (r.n 2 1)) (r.b 0) r.extOpt)
  | 0x83 => accept [] (.amoandD r.g (r.f 6 13) (r.f 4 9) (r.f 6 3) (Scope.ofCode (r.n 2 1)) (r.b 0) r.extOpt)
  | 0x84 => accept [] (.amoorW r.g (r.f 6 13) (r.f 4 9) (r.f 6 3) (Scope.ofCode (r.n 2 1)) (r.b 0) r.extOpt)
  | 0x85 => accept [] (.amoorD r.g (r.f 6 13) (r.f 4 9) (r.f 6 3) (Scope.ofCode (r.n 2 1)) (r.b 0) r.extOpt)
  | 0x86 => accept [] (.amoxorW r.g (r.f 6 13) (r.f 4 9) (r.f 6 3) (Scope.ofCode (r.n 2 1)) (r.b 0) r.extOpt)
  | 0x87 => accept [] (.amoxorD r.g (r.f 6 13) (r.f 4 9) (r.f 6 3) (Scope.ofCode (r.n 2 1)) (r.b 0) r.extOpt)
  | 0x88 => accept [] (.amominW r.g (r.f 6 13) (r.f 4 9) (r.f 6 3) (Scope.ofCode (r.n 2 1)) (r.b 0) r.extOpt)
  | 0x89 => accept [] (.amominD r.g (r.f 6 13) (r.f 4 9) (r.f 6 3) (Scope.ofCode (r.n 2 1)) (r.b 0) r.extOpt)
  | 0x8A => accept [] (.amomaxW r.g (r.f 6 13) (r.f 4 9) (r.f 6 3) (Scope.ofCode (r.n 2 1)) (r.b 0) r.extOpt)
  | 0x8B => accept [] (.amomaxD r.g (r.f 6 13) (r.f 4 9) (r.f 6 3) (Scope.ofCode (r.n 2 1)) (r.b 0) r.extOpt)
  | 0x8C => accept [] (.amominzW r.g (r.f 6 13) (r.f 4 9) (r.f 6 3) (Scope.ofCode (r.n 2 1)) (r.b 0) r.extOpt)
  | 0x8D => accept [] (.amominzD r.g (r.f 6 13) (r.f 4 9) (r.f 6 3) (Scope.ofCode (r.n 2 1)) (r.b 0) r.extOpt)
  | 0x8E => accept [] (.amomaxzW r.g (r.f 6 13) (r.f 4 9) (r.f 6 3) (Scope.ofCode (r.n 2 1)) (r.b 0) r.extOpt)
  | 0x8F => accept [] (.amomaxzD r.g (r.f 6 13) (r.f 4 9) (r.f 6 3) (Scope.ofCode (r.n 2 1)) (r.b 0) r.extOpt)
  | 0x90 => accept [] (.amoswpW r.g (r.f 6 13) (r.f 4 9) (r.f 6 3) (Scope.ofCode (r.n 2 1)) (r.b 0) r.extOpt)
  | 0x91 => accept [] (.amoswpD r.g (r.f 6 13) (r.f 4 9) (r.f 6 3) (Scope.ofCode (r.n 2 1)) (r.b 0) r.extOpt)
  | 0x92 => accept [(r.nz 1 13, 7)] (.amocasW r.g (r.f 5 14) (r.f 4 9) (r.f 6 3) (Scope.ofCode (r.n 2 1)) (r.b 0) r.extOpt)
  | 0x93 => accept [(r.nz 1 13, 7)] (.amocasD r.g (r.f 5 14) (r.f 4 9) (r.f 6 3) (Scope.ofCode (r.n 2 1)) (r.b 0) r.extOpt)
  | 0x94 => accept [] (.amofaddW r.g (r.f 6 13) (r.f 4 9) (r.f 6 3) (Scope.ofCode (r.n 2 1)) (r.b 0) r.extOpt)
  | 0xA0 => accept [(r.x, 4), (r.nz 1 0, 3), (r.n 2 1 != 2, 6)] (.tktwait r.g (r.f 6 13) (r.f 4 9) (r.f 6 3))
  | 0xA1 => accept [(r.x, 4), (r.nz 1 0, 3), (r.nz 6 13, 3), (r.n 2 1 != 2, 6)] (.tktdone r.g (r.f 4 9) (r.f 6 3))
  | 0xC0 => accept [(r.x, 4), (r.x && r.nz 7 0, 3), (r.nz 2 17, 3), (r.nz 6 1, 6)] (.xlat r.g (r.f 4 13) (r.f 6 7) (r.b 0))
  | 0xC1 => accept [(r.x, 4), (r.nz 2 17, 3), (r.nz 13 0, 3)] (.hinv r.g (r.f 4 13))
  | 0xC2 => accept [(r.x, 4), (r.x && r.nz 7 0, 3), (r.nz 2 11, 3), (r.nz 5 2, 6)] (.hget r.g (r.f 6 13) (r.f 4 7) (r.f 2 0))
  | 0xC3 => accept [(r.x, 4), (r.nz 2 11, 3), (r.nz 7 0, 3)] (.hchk r.g (r.f 6 13) (r.f 4 7))
  | 0xD0 => accept [(r.x, 4), (r.nz 1 0, 3)] (.scld r.g (r.f 6 13) (r.f 4 9) (r.f 6 3) (Scope.ofCode (r.n 2 1)))
  | 0xD1 => accept [(r.x, 4), (r.nz 1 0, 3)] (.scst r.g (r.f 6 13) (r.f 4 9) (r.f 6 3) (Scope.ofCode (r.n 2 1)))
  | 0xD2 => accept [(r.x, 4), (r.nz 1 0, 3)] (.scaddW r.g (r.f 6 13) (r.f 4 9) (r.f 6 3) (Scope.ofCode (r.n 2 1)))
  | 0xD3 => accept [(r.x, 4), (r.nz 1 0, 3)] (.scaddD r.g (r.f 6 13) (r.f 4 9) (r.f 6 3) (Scope.ofCode (r.n 2 1)))
  | 0xE0 => accept [(r.x, 4), (r.nz 6 13, 3), (r.nz 3 0, 3)] (.wbinv r.g (r.f 4 9) (r.f 6 3))
  | 0xE1 => accept [(r.x, 4), (r.nz 6 13, 3), (r.nz 3 0, 3)] (.pfl2 r.g (r.f 4 9) (r.f 6 3))
  | _ => .error (1, none)

/-- The opcode map of VX (R53). For the causes of an X of 1 where the entry takes none: log entry 14. -/
def decodeVector (r : Raw) : Except Flaw Instr :=
  match r.opc with
  | 0 => accept [(r.x || r.g != 0 || r.ops != 0, 3)] .idle
  | 0x01 => accept [(r.n 4 0 > 9, 6), (r.x && r.extN 4 20 > 9, 6), (r.x && r.extN 3 29 > 4, 6)] (.vadd r.g (r.f 5 14) (r.f 5 9) (r.f 5 4) (Fmt.ofCode (r.n 4 0)) r.vext)
  | 0x02 => accept [(r.n 4 0 > 9, 6), (r.x && r.extN 4 20 > 9, 6), (r.x && r.extN 3 29 > 4, 6)] (.vsub r.g (r.f 5 14) (r.f 5 9) (r.f 5 4) (Fmt.ofCode (r.n 4 0)) r.vext)
  | 0x03 => accept [(r.n 4 0 > 9, 6), (r.x && r.extN 4 20 > 9, 6), (r.x && r.extN 3 29 > 4, 6)] (.vmul r.g (r.f 5 14) (r.f 5 9) (r.f 5 4) (Fmt.ofCode (r.n 4 0)) r.vext)
  | 0x04 => accept [(r.n 4 0 > 9, 6), (r.x && r.extN 4 20 > 9, 6), (r.x && r.extN 3 29 > 4, 6)] (.vfma r.g (r.f 5 14) (r.f 5 9) (r.f 5 4) (Fmt.ofCode (r.n 4 0)) r.vext)
  | 0x05 => accept [(r.n 4 0 > 9, 6), (r.x && r.extN 4 20 > 9, 6), (r.x && r.extN 3 29 > 4, 6)] (.vfms r.g (r.f 5 14) (r.f 5 9) (r.f 5 4) (Fmt.ofCode (r.n 4 0)) r.vext)
  | 0x06 => accept [(r.n 4 0 > 9, 6), (r.x && r.extN 4 20 > 9, 6), (r.x && r.extN 3 29 != 0, 3)] (.vabs r.g (r.f 5 14) (r.f 5 9) (r.f 5 4) (Fmt.ofCode (r.n 4 0)) r.vext)
  | 0x07 => accept [(r.n 4 0 > 9, 6), (r.x && r.extN 4 20 > 9, 6), (r.x && r.extN 3 29 != 0, 3)] (.vneg r.g (r.f 5 14) (r.f 5 9) (r.f 5 4) (Fmt.ofCode (r.n 4 0)) r.vext)
  | 0x08 => accept [(r.n 4 0 > 9, 6), (r.x && r.extN 4 20 > 9, 6), (r.x && r.extN 3 29 != 0, 3)] (.vmin r.g (r.f 5 14) (r.f 5 9) (r.f 5 4) (Fmt.ofCode (r.n 4 0)) r.vext)
  | 0x09 => accept [(r.n 4 0 > 9, 6), (r.x && r.extN 4 20 > 9, 6), (r.x && r.extN 3 29 != 0, 3)] (.vmax r.g (r.f 5 14) (r.f 5 9) (r.f 5 4) (Fmt.ofCode (r.n 4 0)) r.vext)
  | 0x10 => accept [(r.x, 4), (r.x && r.ext != 0, 3), (r.nz 4 0, 3)] (.vand r.g (r.f 5 14) (r.f 5 9) (r.f 5 4))
  | 0x11 => accept [(r.x, 4), (r.x && r.ext != 0, 3), (r.nz 4 0, 3)] (.vor r.g (r.f 5 14) (r.f 5 9) (r.f 5 4))
  | 0x12 => accept [(r.x, 4), (r.x && r.ext != 0, 3), (r.nz 4 0, 3)] (.vxor r.g (r.f 5 14) (r.f 5 9) (r.f 5 4))
  | 0x13 => accept [(r.x, 4), (r.x && r.ext != 0, 3), (r.n 4 0 > 9, 6)] (.vshl r.g (r.f 5 14) (r.f 5 9) (r.f 5 4) (Fmt.ofCode (r.n 4 0)))
  | 0x14 => accept [(r.x, 4), (r.x && r.ext != 0, 3), (r.n 4 0 > 9, 6)] (.vshr r.g (r.f 5 14) (r.f 5 9) (r.f 5 4) (Fmt.ofCode (r.n 4 0)))
  | 0x15 => accept [(r.x, 4), (r.x && r.ext != 0, 3), (r.n 4 0 > 9, 6)] (.vsra r.g (r.f 5 14) (r.f 5 9) (r.f 5 4) (Fmt.ofCode (r.n 4 0)))
  | 0x20 => accept [(r.n 4 0 > 9, 6), (r.x && r.extN 4 20 > 9, 6), (r.x && r.extN 3 29 != 0, 3)] (.vcmpeq r.g (r.f 5 14) (r.f 5 9) (r.f 5 4) (Fmt.ofCode (r.n 4 0)) r.vext)
  | 0x21 => accept [(r.n 4 0 > 9, 6), (r.x && r.extN 4 20 > 9, 6), (r.x && r.extN 3 29 != 0, 3)] (.vcmplt r.g (r.f 5 14) (r.f 5 9) (r.f 5 4) (Fmt.ofCode (r.n 4 0)) r.vext)
  | 0x22 => accept [(r.n 4 0 > 9, 6), (r.x && r.extN 4 20 > 9, 6), (r.x && r.extN 3 29 != 0, 3)] (.vcmple r.g (r.f 5 14) (r.f 5 9) (r.f 5 4) (Fmt.ofCode (r.n 4 0)) r.vext)
  | 0x23 => accept [(r.n 4 0 > 9, 6), (r.x && r.extN 4 20 != 0, 3), (r.x && r.extN 3 29 != 0, 3)] (.vsel r.g (r.f 5 14) (r.f 5 9) (r.f 5 4) (Fmt.ofCode (r.n 4 0)) r.vext)
  | 0x30 => accept [(r.x, 4), (r.x && r.ext != 0, 3), (r.nz 9 0, 3)] (.vmov r.g (r.f 5 14) (r.f 5 9))
  | 0x31 => accept [(r.x, 4), (r.x && r.ext != 0, 3), (r.nz 14 0, 3)] (.vzero r.g (r.f 5 14))
  | 0x32 => accept [(r.n 4 0 > 9, 6), (r.x && r.extN 4 20 != 0, 3), (r.x && r.extN 3 29 > 4, 6)] (.viota r.g (r.f 5 14) (r.f 5 9) (r.f 5 4) (Fmt.ofCode (r.n 4 0)) r.vext)
  | 0x60 => accept [(r.n 4 0 > 9, 6), (r.x && r.extN 4 20 > 9, 6), (r.x && r.extN 3 29 > 4, 6)] (.vcvt r.g (r.f 5 14) (r.f 5 9) (r.f 5 4) (Fmt.ofCode (r.n 4 0)) r.vext)
  | 0x61 => accept [(r.n 4 0 > 9, 6), (r.x && r.extN 4 20 > 9, 6), (r.x && r.extN 3 29 > 4, 6)] (.vpack r.g (r.f 5 14) (r.f 5 9) (r.f 5 4) (Fmt.ofCode (r.n 4 0)) r.vext)
  | 0x62 => accept [(r.n 4 0 > 9, 6), (r.x && r.extN 4 20 > 9, 6), (r.x && r.extN 3 29 > 4, 6)] (.vunpk r.g (r.f 5 14) (r.f 5 9) (r.f 5 4) (Fmt.ofCode (r.n 4 0)) r.vext)
  | 0x63 => accept [(r.n 4 0 > 9, 6), (r.x && r.extN 4 20 > 9, 6), (r.x && r.extN 3 29 > 4, 6)] (.vquant r.g (r.f 5 14) (r.f 5 9) (r.f 5 4) (Fmt.ofCode (r.n 4 0)) r.vext)
  | 0x64 => accept [(r.n 4 0 > 9, 6), (r.x && r.extN 4 20 > 9, 6), (r.x && r.extN 3 29 > 4, 6)] (.vdequant r.g (r.f 5 14) (r.f 5 9) (r.f 5 4) (Fmt.ofCode (r.n 4 0)) r.vext)
  | 0x80 => accept [(r.x, 4), (r.x && r.ext != 0, 3), (r.nz 9 0, 3), (r.nz 3 16, 7)] (.vtld r.g (r.f 2 14) (r.f 5 9))
  | 0x81 => accept [(!r.x, 5), (r.nz 4 0, 3), (r.nz 1 8, 3), (r.extN 12 20 != 0, 3), (r.nz 3 16, 7)] (.vtcfg r.g (r.f 2 14) (r.f 5 9) (TailMode.ofCode (r.n 2 4)) (TailMode.ofCode (r.n 2 6)) (r.e 16 0) (r.e 4 16))
  | 0x82 => accept [(r.n 4 0 > 9, 6), (r.x && r.extN 4 20 > 9, 6), (r.x && r.extN 3 29 > 4, 6)] (.vtab r.g (r.f 5 14) (r.f 5 9) (r.f 5 4) (Fmt.ofCode (r.n 4 0)) r.vext)
  | 0xA0 => accept [(r.n 4 0 > 9, 6), (r.x && r.extN 4 20 > 9, 6), (r.x && r.extN 3 29 > 4, 6)] (.vredsum r.g (r.f 5 14) (r.f 5 9) (r.f 5 4) (Fmt.ofCode (r.n 4 0)) r.vext)
  | 0xA1 => accept [(r.n 4 0 > 9, 6), (r.x && r.extN 4 20 > 9, 6), (r.x && r.extN 3 29 != 0, 3)] (.vredmax r.g (r.f 5 14) (r.f 5 9) (r.f 5 4) (Fmt.ofCode (r.n 4 0)) r.vext)
  | 0xA2 => accept [(r.n 4 0 > 9, 6), (r.x && r.extN 4 20 > 9, 6), (r.x && r.extN 3 29 != 0, 3)] (.vredmin r.g (r.f 5 14) (r.f 5 9) (r.f 5 4) (Fmt.ofCode (r.n 4 0)) r.vext)
  | 0xA3 => accept [(r.n 4 0 > 9, 6), (r.x && r.extN 4 20 > 9, 6), (r.x && r.extN 3 29 != 0, 3)] (.vredarg r.g (r.f 5 14) (r.f 5 9) (r.f 5 4) (Fmt.ofCode (r.n 4 0)) r.vext)
  | 0xA4 => accept [(r.n 4 0 > 9, 6), (r.x && r.extN 4 20 > 9, 6), (r.x && r.extN 3 29 > 4, 6)] (.vscan r.g (r.f 5 14) (r.f 5 9) (r.f 5 4) (Fmt.ofCode (r.n 4 0)) r.vext)
  | 0xB0 => accept [(r.n 4 0 > 9, 6), (r.x && r.extN 4 20 != 0, 3), (r.x && r.extN 3 29 != 0, 3)] (.vbcast r.g (r.f 5 14) (r.f 5 9) (r.f 5 4) (Fmt.ofCode (r.n 4 0)) r.vext)
  | 0xB1 => accept [(r.n 4 0 > 9, 6), (r.x && r.extN 4 20 != 0, 3), (r.x && r.extN 3 29 != 0, 3)] (.vins r.g (r.f 5 14) (r.f 5 9) (r.f 5 4) (Fmt.ofCode (r.n 4 0)) r.vext)
  | 0xB2 => accept [(r.n 4 0 > 9, 6), (r.x && r.extN 4 20 != 0, 3), (r.x && r.extN 3 29 != 0, 3)] (.vext r.g (r.f 5 14) (r.f 5 9) (r.f 5 4) (Fmt.ofCode (r.n 4 0)) r.vext)
  | 0xB3 => accept [(r.n 4 0 > 9, 6), (r.x && r.extN 4 20 != 0, 3), (r.x && r.extN 3 29 != 0, 3)] (.vperm r.g (r.f 5 14) (r.f 5 9) (r.f 5 4) (Fmt.ofCode (r.n 4 0)) r.vext)
  | 0xB4 => accept [(r.n 4 0 > 9, 6), (r.x && r.extN 4 20 != 0, 3), (r.x && r.extN 3 29 != 0, 3)] (.vslide r.g (r.f 5 14) (r.f 5 9) (r.f 5 4) (Fmt.ofCode (r.n 4 0)) r.vext)
  | 0xB5 => accept [(r.n 4 0 > 9, 6), (r.x && r.extN 4 20 != 0, 3), (r.x && r.extN 3 29 != 0, 3)] (.vrev r.g (r.f 5 14) (r.f 5 9) (r.f 5 4) (Fmt.ofCode (r.n 4 0)) r.vext)
  | _ => .error (1, none)

/-- The opcode map of MX (R54). -/
def decodeMatrix (r : Raw) : Except Flaw Instr :=
  match r.opc with
  | 0 => accept [(r.x || r.g != 0 || r.ops != 0, 3)] .idle
  | 0x01 => accept [(r.x, 4), (r.nz 8 0, 3), (r.nz 2 8, 3)] (.mpush r.g (r.f 8 11) (r.b 10))
  | 0x02 => accept [(r.x, 4), (r.nz 8 0, 3), (r.nz 2 8, 3)] (.mstep r.g (r.f 8 11) (r.b 10))
  | 0x03 => accept [(r.x, 4), (r.nz 8 0, 3), (r.n 2 8 == 3, 6)] (.macc r.g (r.f 8 11) (r.b 10) (RowStep.ofCode (r.n 2 8)))
  | 0x04 => accept [(r.x, 4), (r.nz 8 0, 3), (r.n 2 8 == 3, 6)] (.mdrain r.g (r.f 8 11) (r.b 10) (RowStep.ofCode (r.n 2 8)))
  | 0x05 => accept [(r.x, 4), (r.nz 8 0, 3), (r.nz 2 8, 3)] (.mclr r.g (r.f 8 11) (r.b 10))
  | 0x06 => accept [(r.x, 4), (r.nz 8 0, 3), (r.n 2 8 == 3, 6)] (.mfill r.g (r.f 8 11) (r.b 10) (RowStep.ofCode (r.n 2 8)))
  | 0x20 => accept [(!r.x, 5), (r.nz 4 0, 3), (r.extN 20 0 != 0, 3), (r.n 4 10 > 9, 6), (r.extN 4 23 > 8, 6), (r.extN 3 20 > 4, 6)] (.mcfg r.g (r.f 5 14) (Fmt.ofCode (r.n 4 10)) (r.f 6 4) (r.e 5 27) (Fmt.ofCode (r.extN 4 23)) (Rnd.ofCode (r.extN 3 20)))
  | 0x21 => accept [(r.x, 4), (r.nz 11 0, 3), (r.nz 7 12, 3)] (.mmode r.g (r.b 11))
  | 0x22 => if r.b 10 then accept [(r.x, 4), (r.nz 10 0, 3)] (.mrowImm r.g (r.f 8 11)) else accept [(r.x, 4), (r.nz 10 0, 3), (r.nz 2 17, 3)] (.mrowReg r.g (r.f 6 11))
  | 0x40 => accept [(r.x, 4), (r.nz 4 1, 6)] (.tbind r.g (r.f 4 15) (r.f 4 11) (r.f 6 5) (r.b 0))
  | 0x41 => accept [(r.x, 4), (r.nz 15 0, 3)] (.tunbind r.g (r.f 4 15))
  | 0x42 => accept [(r.x, 4), (r.nz 15 0, 3)] (.tpin r.g (r.f 4 15))
  | 0x43 => accept [(r.x, 4), (r.nz 15 0, 3)] (.tunpin r.g (r.f 4 15))
  | 0x44 => accept [(r.x, 4), (r.nz 4 15, 3), (r.nz 5 0, 3)] (.tpf r.g (r.f 4 11) (r.f 6 5))
  | 0x45 => if r.n 5 0 == 1 then accept [(r.x, 4), (r.nz 10 5, 3)] (.tinvBinding r.g (r.f 4 15)) else accept [(r.x, 4), (r.n 5 0 == 0 && r.nz 4 15, 3), (r.n 5 0 > 1, 6)] (.tinvAddr r.g (r.f 4 11) (r.f 6 5))
  | 0x46 => if r.n 5 0 == 1 then accept [(!r.x, 5), (r.nz 4 11, 3), (r.extN 27 5 != 0, 3)] (.twstRow r.g (r.f 4 15) (r.f 6 5) (r.e 5 0)) else accept [(r.n 5 0 > 1, 6), (!r.x, 5), (r.nz 4 11, 3), (r.extN 24 8 != 0, 3)] (.twst r.g (r.f 4 15) (r.f 6 5) (r.e 8 0))
  | 0x47 => accept [(r.x, 4), (r.nz 4 11, 3), (r.nz 5 0, 3)] (.tstat r.g (r.f 4 15) (r.f 6 5))
  | _ => .error (1, none)

/-- The opcode map of EN (R55). -/
def decodeEngine (r : Raw) : Except Flaw Instr :=
  match r.opc with
  | 0 => accept [(r.x || r.g != 0 || r.ops != 0, 3)] .idle
  | 0x01 => accept [(r.nz 2 1, 6)] (.cpy r.g (r.f 4 15) (r.f 6 9) (r.f 6 3) (r.b 0) r.extOpt)
  | 0x02 => accept [(r.x, 4), (r.nz 9 0, 3)] (.cpy2 r.g (r.f 4 15) (r.f 6 9))
  | 0x03 => accept [] (.gath r.g (r.f 4 15) (r.f 6 9) (r.f 6 3) (r.f 3 0) r.extOpt)
  | 0x04 => accept [] (.scat r.g (r.f 4 15) (r.f 6 9) (r.f 6 3) (r.f 3 0) r.extOpt)
  | 0x05 => accept [(r.nz 9 0, 3)] (.kvw r.g (r.f 4 15) (r.f 6 9) r.extOpt)
  | 0x06 => accept [(r.x, 4), (r.nz 9 0, 3)] (.cpyr r.g (r.f 4 15) (r.f 6 9))
  | 0x40 => accept [(r.x, 4), (r.nz 9 0, 3)] (.cred r.g (r.f 4 15) (r.f 6 9))
  | 0x41 => accept [(r.x, 4), (r.nz 9 0, 3)] (.cgath r.g (r.f 4 15) (r.f 6 9))
  | 0x60 => accept [(r.x, 4), (r.nz 6 3, 3)] (.tlwait r.g (r.f 4 15) (r.f 6 9) (r.f 3 0))
  | 0x61 => accept [(r.x, 4), (r.nz 6 3, 3), (r.n 3 0 > 2, 6)] (.tlget r.g (r.f 4 15) (r.f 6 9) (TlSel.ofCode (r.n 3 0)))
  | 0x62 => accept [(r.x, 4), (r.nz 9 0, 3)] (.tlsig r.g (r.f 4 15) (r.f 6 9))
  | 0x80 => accept [(r.x, 4), (r.nz 4 15, 3), (r.nz 3 0, 3)] (.gjoin r.g (r.f 6 9) (r.f 6 3))
  | 0x81 => accept [(r.x, 4), (r.nz 4 15, 3), (r.nz 9 0, 3)] (.gleave r.g (r.f 6 9))
  | 0x82 => accept [(r.x, 4), (r.nz 4 15, 3), (r.nz 6 3, 3)] (.gbar r.g (r.f 6 9) (r.f 3 0))
  | 0x83 => accept [(r.x, 4), (r.nz 4 15, 3)] (.gwait r.g (r.f 6 3) (r.f 3 0) (r.f 6 9))
  | 0x88 => accept [(r.x, 4), (r.nz 4 15, 3), (r.nz 9 0, 3)] (.tspawn r.g (r.f 6 9))
  | 0x89 => accept [(r.x, 4), (r.nz 4 15, 3), (r.nz 9 0, 3)] (.tdec r.g (r.f 6 9))
  | 0x8A => accept [(r.x, 4), (r.nz 4 15, 3), (r.nz 3 0, 3)] (.tarm r.g (r.f 6 9) (r.f 6 3))
  | 0xA0 => accept [(r.nz 2 1, 6), (r.nz 6 3, 3), (r.x && r.extN 24 8 != 0, 3)] (.bul r.g (r.f 4 15) (r.f 6 9) (r.b 0) (r.extOpt8))
  | _ => .error (1, none)

/-- The opcode map of BR (R55). -/
def decodeBranch (r : Raw) : Except Flaw Instr :=
  match r.opc with
  | 0 => accept [(r.x || r.g != 0 || r.ops != 0, 3)] .nop
  | 0x01 => accept [(r.x, 4)] (.b r.g (r.f 19 0))
  | 0x02 => accept [(r.x, 4)] (.bl r.g (r.f 19 0))
  | 0x03 => accept [(r.x, 4), (r.nz 6 13, 3), (r.nz 7 0, 3)] (.br r.g (r.f 6 7))
  | 0x04 => accept [(r.x, 4), (r.nz 7 0, 3)] (.call r.g (r.f 6 13) (r.f 6 7))
  | 0x05 => accept [(r.x, 4), (r.nz 6 13, 3), (r.nz 7 0, 3)] (.ret r.g (r.f 6 7))
  | 0x06 => accept [(r.x, 4), (r.nz 6 13, 3), (r.nz 1 0, 3)] (.disp r.g (r.f 6 7) (r.f 6 1))
  | 0x20 => accept [(r.x, 4)] (.loop r.g (r.f 2 17) (r.f 6 11) (r.f 11 0))
  | 0x21 => accept [(r.x && r.nz 6 11, 3)] (.loopi r.g (r.f 2 17) r.count (r.f 11 0))
  | 0x30 => accept [(r.x, 4), (r.nz 19 0, 3)] (.yield r.g)
  | 0x31 => accept [(r.x, 4), (r.nz 19 0, 3)] (.susp r.g)
  | 0x32 => accept [(r.x, 4), (r.nz 19 0, 3)] (.tend r.g)
  | 0x33 => accept [(r.x, 4), (r.nz 19 0, 3)] (.halt r.g)
  | 0x40 => accept [(r.x, 4), (r.x && r.nz 7 0, 3), (r.nz 6 7, 3)] (.iwait r.g (r.f 6 13) (r.f 7 0))
  | 0x41 => accept [(r.x, 4), (r.x && r.nz 7 0, 3), (r.nz 12 7, 3)] (.trap r.g (r.f 7 0))
  | 0x42 => accept [(r.x, 4), (r.x && r.nz 7 0, 3), (r.nz 12 7, 3)] (.brk r.g (r.f 7 0))
  | 0x43 => accept [(r.x, 4), (r.nz 19 0, 3)] (.eret r.g)
  | _ => .error (1, none)

/-- The decoder of one syllable in a slot (R50 to R56): the opcodes of the system registers exist in SA only. -/
def decodeRaw (s : Space) (r : Raw) : Except Flaw Instr :=
  match s with
  | .scalar => decodeScalar r
  | .load => decodeLoad r
  | .vector => decodeVector r
  | .matrix => decodeMatrix r
  | .engine => decodeEngine r
  | .branch => decodeBranch r

/-- The instruction that a syllable word and its extension word give in a slot, or what is wrong with them (R56). -/
def readSyllable (slot : Nat) (w ext : Nat) : Except Flaw Instr :=
  let r := Raw.ofWords w ext
  if slot == 1 && (r.opc == 0x78 || r.opc == 0x79 || r.opc == 0x7A) then .error (2, none)
  else decodeRaw (Space.ofSlot slot) r
/-- The instruction, or its cause. -/
def decodeSyllable (slot : Nat) (w ext : Nat) : Except Nat Instr :=
  match readSyllable slot w ext with
  | .ok i => .ok i
  | .error e => .error e.1
/-- The operation that a syllable names, legal or not. -/
def operationOf (slot : Nat) (w ext : Nat) : Option Instr :=
  match readSyllable slot w ext with
  | .ok i => some i
  | .error e => e.2

/-- The source port of a move (R321), with the word that follows it. -/
def moveSource (code : Nat) (next : W16) : Option MoveSrc :=
  match code with
  | 0 => some .zero | 1 => some .kel | 2 => some .qel | 3 => some .acc | 4 => some .lc | 5 => some .acc1
  | 6 => some .addR | 7 => some .mulR | 8 => some .kidx | 9 => some .oidx
  | 63 => some (.imm next)
  | _ => none

/-- A move with its source and guard, by destination port (R322). -/
def moveTo (dst : Nat) (src : MoveSrc) (g : BitVec 2) : Option Instr :=
  match dst with
  | 0 => some (.moveNull src g)
  | 1 => some (.moveRowk src g)
  | 2 => some (.moveFmaA src g)
  | 3 => some (.moveFmaT src g)
  | 4 => some (.moveAcc src g)
  | 5 => some (.moveOut src g)
  | 6 => some (.moveLcSet src g)
  | 7 => some (.moveLcT src g)
  | 8 => some (.moveBr src g)
  | 9 => some (.moveEnd src g)
  | 10 => some (.moveAcc1 src g)
  | 11 => some (.moveFmaT1 src g)
  | 12 => some (.moveAddA src g)
  | 13 => some (.moveAddT src g)
  | 14 => some (.moveMulA src g)
  | 15 => some (.moveMulT src g)
  | 16 => some (.moveCmpA src g)
  | 17 => some (.moveCmpT src g)
  | _ => none

/-- The decoder of a move word (R320); none is the illegal move of R323. -/
def decodeMove (w next : Nat) : Option Instr :=
  if w % 4 != 0 then none
  else match moveSource (w / 1024 % 64) (BitVec.ofNat 16 next) with
    | none => none
    | some src => moveTo (w / 16 % 64) src (BitVec.ofNat 2 (w / 4))

/-- The words of instructions laid out as the table numbers them: a 16-bit row is a move, a longer one a syllable
with its extension word. A syllable is read in the first slot of SA, LA, VX, MX, EN, BR that accepts it: the opcode
spaces overlap (R50), and the table does not name the slot (DESIGN CHOICE, log entry 8). -/
def decodeTableWord (nbits w : Nat) : Option Instr :=
  if nbits == 16 then decodeMove (w % 65536) 0
  else
    let r := Raw.ofWords (w % 4294967296) (w / 4294967296)
    let try_ (s : Space) : Option Instr := match decodeRaw s r with | .ok i => some i | .error _ => none
    try_ .scalar <|> try_ .load <|> try_ .vector <|> try_ .matrix <|> try_ .engine <|> try_ .branch

/-- The slot in which decodeTableWord reads a word. -/
def tableSlot (w : Nat) : Nat :=
  let r := Raw.ofWords (w % 4294967296) (w / 4294967296)
  let ok (s : Space) : Bool := match decodeRaw s r with | .ok _ => true | .error _ => false
  if ok .scalar then 0 else if ok .load then 2 else if ok .vector then 4 else if ok .matrix then 5
  else if ok .engine then 6 else 7

/-! The encoder: the operand fields of each format (R44), each argument below its field's size. -/

def packSR (d a b k : Nat) : Nat := d * 8192 + a * 128 + b * 2 + k
def packSI (d a i : Nat) : Nat := d * 8192 + a * 128 + i
def packPC (q a b q2 k : Nat) : Nat := q * 65536 + a * 1024 + b * 16 + q2 * 2 + k
def packPL (q pa pb na nb : Nat) : Nat := q * 65536 + pa * 8192 + pb * 1024 + na * 512 + nb * 256
def packLP (l c e : Nat) : Nat := l * 131072 + c * 2048 + e
def packME (d h o t : Nat) : Nat := d * 8192 + h * 512 + o * 8 + t
def packAT (d h o w q : Nat) : Nat := d * 8192 + h * 512 + o * 8 + w * 2 + q
def packVR (d a b f : Nat) : Nat := d * 16384 + a * 512 + b * 16 + f
def packMB (m s y : Nat) : Nat := m * 2048 + s * 1024 + y * 256
def packMC (scb af acc : Nat) : Nat := scb * 16384 + af * 1024 + acc * 16
def packTB (t h o k : Nat) : Nat := t * 32768 + h * 2048 + o * 32 + k
def packEN (t a b k : Nat) : Nat := t * 32768 + a * 512 + b * 8 + k
def packSY (s n : Nat) : Nat := s * 8192 + n

def Imm.field : Imm → Nat
  | .short i => i.toNat
  | .ext _ => 0
def Imm.word : Imm → Option W32
  | .short _ => none
  | .ext w => some w
def CmpOpnd.field : CmpOpnd → Nat
  | .reg b => b.toNat
  | .imm i => i.toNat
  | .ext _ => 0
def CmpOpnd.kbit : CmpOpnd → Nat
  | .reg _ => 0
  | .imm _ => 1
  | .ext _ => 1
def CmpOpnd.word : CmpOpnd → Option W32
  | .reg _ => none
  | .imm _ => none
  | .ext w => some w
def Count.field : Count → Nat
  | .short c => c.toNat
  | .ext _ => 0
def Count.word : Count → Option W32
  | .short _ => none
  | .ext w => some w
def Step.word : Step → Option W32
  | .bytes w => some w
  | .zero | .plusZ | .minusZ | .plus2Z | .plus4Z | .plus8Z => none
def VExt.word (e : VExt) : W32 :=
  BitVec.ofNat 32 (e.rnd.code * 536870912 + e.c.toNat * 16777216 + e.sf.code * 1048576 + e.imm.toNat)
def VExt.wordOpt : Option VExt → Option W32
  | none => none
  | some e => some e.word

/-- A syllable from its opcode, guard, operand bits and extension word. -/
def syllable (opc : Nat) (g : BitVec 4) (ops : Nat) (ext : Option W32) : Raw :=
  { opc := opc, x := ext.isSome, g := g, ops := ops, ext := match ext with | none => 0 | some w => w.toNat }

def MoveSrc.code : MoveSrc → Nat
  | .zero => 0 | .kel => 1 | .qel => 2 | .acc => 3 | .lc => 4 | .acc1 => 5 | .addR => 6 | .mulR => 7 | .kidx => 8 | .oidx => 9
  | .imm _ => 63

/-- What an instruction encodes to: a syllable in a space, a move, or nothing (an event). -/
inductive Encoded where
  | syllable (s : Space) (r : Raw)
  | move (w : Nat) (next : Option W16)
  | none
deriving DecidableEq, Repr

def moveWord (dst : Nat) (src : MoveSrc) (g : BitVec 2) : Encoded :=
  .move (src.code * 1024 + dst * 16 + g.toNat * 4) (match src with | .imm v => some v | _ => Option.none)

/-- The encoder: each instruction's words by the maps of R51 to R55 and R320 to R322. -/
def encode : Instr → Encoded
  | .nop => .syllable .scalar (syllable 0 0 0 none)
  | .idle => .syllable .load (syllable 0 0 0 none)
  | .add g d a b k => .syllable .scalar (syllable 0x01 g (packSR d.toNat a.toNat b.toNat k.toNat) none)
  | .sub g d a b k => .syllable .scalar (syllable 0x02 g (packSR d.toNat a.toNat b.toNat k.toNat) none)
  | .mul g d a b k => .syllable .scalar (syllable 0x03 g (packSR d.toNat a.toNat b.toNat k.toNat) none)
  | .mulhi g d a b k => .syllable .scalar (syllable 0x04 g (packSR d.toNat a.toNat b.toNat k.toNat) none)
  | .mulhz g d a b k => .syllable .scalar (syllable 0x05 g (packSR d.toNat a.toNat b.toNat k.toNat) none)
  | .div g d a b k => .syllable .scalar (syllable 0x06 g (packSR d.toNat a.toNat b.toNat k.toNat) none)
  | .divz g d a b k => .syllable .scalar (syllable 0x07 g (packSR d.toNat a.toNat b.toNat k.toNat) none)
  | .rem g d a b k => .syllable .scalar (syllable 0x08 g (packSR d.toNat a.toNat b.toNat k.toNat) none)
  | .remz g d a b k => .syllable .scalar (syllable 0x09 g (packSR d.toNat a.toNat b.toNat k.toNat) none)
  | .and g d a b => .syllable .scalar (syllable 0x0A g (packSR d.toNat a.toNat b.toNat 0) none)
  | .or g d a b => .syllable .scalar (syllable 0x0B g (packSR d.toNat a.toNat b.toNat 0) none)
  | .xor g d a b => .syllable .scalar (syllable 0x0C g (packSR d.toNat a.toNat b.toNat 0) none)
  | .andn g d a b => .syllable .scalar (syllable 0x0D g (packSR d.toNat a.toNat b.toNat 0) none)
  | .shl g d a b k => .syllable .scalar (syllable 0x0E g (packSR d.toNat a.toNat b.toNat k.toNat) none)
  | .shr g d a b k => .syllable .scalar (syllable 0x0F g (packSR d.toNat a.toNat b.toNat k.toNat) none)
  | .sra g d a b k => .syllable .scalar (syllable 0x10 g (packSR d.toNat a.toNat b.toNat k.toNat) none)
  | .rol g d a b k => .syllable .scalar (syllable 0x11 g (packSR d.toNat a.toNat b.toNat k.toNat) none)
  | .min g d a b k => .syllable .scalar (syllable 0x12 g (packSR d.toNat a.toNat b.toNat k.toNat) none)
  | .max g d a b k => .syllable .scalar (syllable 0x13 g (packSR d.toNat a.toNat b.toNat k.toNat) none)
  | .minz g d a b k => .syllable .scalar (syllable 0x14 g (packSR d.toNat a.toNat b.toNat k.toNat) none)
  | .maxz g d a b k => .syllable .scalar (syllable 0x15 g (packSR d.toNat a.toNat b.toNat k.toNat) none)
  | .addi g d a m => .syllable .scalar (syllable 0x20 g (packSI d.toNat a.toNat m.field) m.word)
  | .andi g d a m => .syllable .scalar (syllable 0x21 g (packSI d.toNat a.toNat m.field) m.word)
  | .ori g d a m => .syllable .scalar (syllable 0x22 g (packSI d.toNat a.toNat m.field) m.word)
  | .xori g d a m => .syllable .scalar (syllable 0x23 g (packSI d.toNat a.toNat m.field) m.word)
  | .shli g d a m => .syllable .scalar (syllable 0x24 g (packSI d.toNat a.toNat m.field) m.word)
  | .shri g d a m => .syllable .scalar (syllable 0x25 g (packSI d.toNat a.toNat m.field) m.word)
  | .srai g d a m => .syllable .scalar (syllable 0x26 g (packSI d.toNat a.toNat m.field) m.word)
  | .addiW g d a m => .syllable .scalar (syllable 0x28 g (packSI d.toNat a.toNat m.field) m.word)
  | .shliW g d a i => .syllable .scalar (syllable 0x2C g (packSI d.toNat a.toNat i.toNat) none)
  | .shriW g d a i => .syllable .scalar (syllable 0x2D g (packSI d.toNat a.toNat i.toNat) none)
  | .sraiW g d a i => .syllable .scalar (syllable 0x2E g (packSI d.toNat a.toNat i.toNat) none)
  | .cmpeq g q q2 a o => .syllable .scalar (syllable 0x40 g (packPC q.toNat a.toNat o.field q2.toNat o.kbit) o.word)
  | .cmpne g q q2 a o => .syllable .scalar (syllable 0x41 g (packPC q.toNat a.toNat o.field q2.toNat o.kbit) o.word)
  | .cmplt g q q2 a o => .syllable .scalar (syllable 0x42 g (packPC q.toNat a.toNat o.field q2.toNat o.kbit) o.word)
  | .cmple g q q2 a o => .syllable .scalar (syllable 0x43 g (packPC q.toNat a.toNat o.field q2.toNat o.kbit) o.word)
  | .cmpltz g q q2 a o => .syllable .scalar (syllable 0x44 g (packPC q.toNat a.toNat o.field q2.toNat o.kbit) o.word)
  | .cmplez g q q2 a o => .syllable .scalar (syllable 0x45 g (packPC q.toNat a.toNat o.field q2.toNat o.kbit) o.word)
  | .cmpeqW g q q2 a o => .syllable .scalar (syllable 0x48 g (packPC q.toNat a.toNat o.field q2.toNat o.kbit) o.word)
  | .cmpneW g q q2 a o => .syllable .scalar (syllable 0x49 g (packPC q.toNat a.toNat o.field q2.toNat o.kbit) o.word)
  | .cmpltW g q q2 a o => .syllable .scalar (syllable 0x4A g (packPC q.toNat a.toNat o.field q2.toNat o.kbit) o.word)
  | .cmpleW g q q2 a o => .syllable .scalar (syllable 0x4B g (packPC q.toNat a.toNat o.field q2.toNat o.kbit) o.word)
  | .cmpltzW g q q2 a o => .syllable .scalar (syllable 0x4C g (packPC q.toNat a.toNat o.field q2.toNat o.kbit) o.word)
  | .cmplezW g q q2 a o => .syllable .scalar (syllable 0x4D g (packPC q.toNat a.toNat o.field q2.toNat o.kbit) o.word)
  | .pand g q pa pb na nb => .syllable .scalar (syllable 0x50 g (packPL q.toNat pa.toNat pb.toNat na.toNat nb.toNat) none)
  | .por g q pa pb na nb => .syllable .scalar (syllable 0x51 g (packPL q.toNat pa.toNat pb.toNat na.toNat nb.toNat) none)
  | .pxor g q pa pb na nb => .syllable .scalar (syllable 0x52 g (packPL q.toNat pa.toNat pb.toNat na.toNat nb.toNat) none)
  | .pnot g q pa na => .syllable .scalar (syllable 0x53 g (packPL q.toNat pa.toNat 0 na.toNat 0) none)
  | .pset g a b => .syllable .scalar (syllable 0x54 g (packSR 0 a.toNat b.toNat 0) none)
  | .pget g d => .syllable .scalar (syllable 0x55 g (packSR d.toNat 0 0 0) none)
  | .clz g d a k => .syllable .scalar (syllable 0x60 g (packSR d.toNat a.toNat 0 k.toNat) none)
  | .ctz g d a k => .syllable .scalar (syllable 0x61 g (packSR d.toNat a.toNat 0 k.toNat) none)
  | .popc g d a k => .syllable .scalar (syllable 0x62 g (packSR d.toNat a.toNat 0 k.toNat) none)
  | .bext g d a b => .syllable .scalar (syllable 0x63 g (packSR d.toNat a.toNat b.toNat 0) none)
  | .bins g d a b => .syllable .scalar (syllable 0x64 g (packSR d.toNat a.toNat b.toNat 0) none)
  | .sext g d a i => .syllable .scalar (syllable 0x65 g (packSI d.toNat a.toNat i.toNat) none)
  | .zext g d a i => .syllable .scalar (syllable 0x66 g (packSI d.toNat a.toNat i.toNat) none)
  | .mov g d a => .syllable .scalar (syllable 0x70 g (packSR d.toNat a.toNat 0 0) none)
  | .li g d m => .syllable .scalar (syllable 0x71 g (packSI d.toNat 0 m.field) m.word)
  | .lih g d a m => .syllable .scalar (syllable 0x72 g (packSI d.toNat a.toNat m.field) m.word)
  | .sysr g r n => .syllable .scalar (syllable 0x78 g (packSY r.toNat n.toNat) none)
  | .sysw g r n => .syllable .scalar (syllable 0x79 g (packSY r.toNat n.toNat) none)
  | .sysx g r n => .syllable .scalar (syllable 0x7A g (packSY r.toNat n.toNat) none)
  | .b g o => .syllable .branch (syllable 0x01 g (o.toNat) none)
  | .bl g o => .syllable .branch (syllable 0x02 g (o.toNat) none)
  | .br g a => .syllable .branch (syllable 0x03 g (packSR 0 a.toNat 0 0) none)
  | .call g d a => .syllable .branch (syllable 0x04 g (packSR d.toNat a.toNat 0 0) none)
  | .ret g a => .syllable .branch (syllable 0x05 g (packSR 0 a.toNat 0 0) none)
  | .disp g a b => .syllable .branch (syllable 0x06 g (packSR 0 a.toNat b.toNat 0) none)
  | .loop g l c e => .syllable .branch (syllable 0x20 g (packLP l.toNat c.toNat e.toNat) none)
  | .loopi g l c e => .syllable .branch (syllable 0x21 g (packLP l.toNat c.field e.toNat) c.word)
  | .yield g => .syllable .branch (syllable 0x30 g (0) none)
  | .susp g => .syllable .branch (syllable 0x31 g (0) none)
  | .tend g => .syllable .branch (syllable 0x32 g (0) none)
  | .halt g => .syllable .branch (syllable 0x33 g (0) none)
  | .iwait g d i => .syllable .branch (syllable 0x40 g (packSI d.toNat 0 i.toNat) none)
  | .trap g i => .syllable .branch (syllable 0x41 g (i.toNat) none)
  | .brk g i => .syllable .branch (syllable 0x42 g (i.toNat) none)
  | .eret g => .syllable .branch (syllable 0x43 g (0) none)
  | .ldb g d h o t => .syllable .load (syllable 0x01 g (packME d.toNat h.toNat o.toNat t.code) t.word)
  | .ldh g d h o t => .syllable .load (syllable 0x02 g (packME d.toNat h.toNat o.toNat t.code) t.word)
  | .ldw g d h o t => .syllable .load (syllable 0x03 g (packME d.toNat h.toNat o.toNat t.code) t.word)
  | .ldd g d h o t => .syllable .load (syllable 0x04 g (packME d.toNat h.toNat o.toNat t.code) t.word)
  | .ldbz g d h o t => .syllable .load (syllable 0x05 g (packME d.toNat h.toNat o.toNat t.code) t.word)
  | .ldhz g d h o t => .syllable .load (syllable 0x06 g (packME d.toNat h.toNat o.toNat t.code) t.word)
  | .ldwz g d h o t => .syllable .load (syllable 0x07 g (packME d.toNat h.toNat o.toNat t.code) t.word)
  | .stb g d h o t => .syllable .load (syllable 0x08 g (packME d.toNat h.toNat o.toNat t.code) t.word)
  | .sth g d h o t => .syllable .load (syllable 0x09 g (packME d.toNat h.toNat o.toNat t.code) t.word)
  | .stw g d h o t => .syllable .load (syllable 0x0A g (packME d.toNat h.toNat o.toNat t.code) t.word)
  | .std g d h o t => .syllable .load (syllable 0x0B g (packME d.toNat h.toNat o.toNat t.code) t.word)
  | .vld g d h o t => .syllable .load (syllable 0x0C g (packME d.toNat h.toNat o.toNat t.code) t.word)
  | .vst g d h o t => .syllable .load (syllable 0x0D g (packME d.toNat h.toNat o.toNat t.code) t.word)
  | .vldb g d h o t => .syllable .load (syllable 0x0E g (packME d.toNat h.toNat o.toNat t.code) t.word)
  | .cbput g d n => .syllable .load (syllable 0x40 g (packME d.toNat 0 n.toNat 0) none)
  | .cbget g d n => .syllable .load (syllable 0x41 g (packME d.toNat 0 n.toNat 0) none)
  | .ldc g d h o t => .syllable .load (syllable 0x42 g (packME d.toNat h.toNat o.toNat t.code) t.word)
  | .stc g d h o t => .syllable .load (syllable 0x43 g (packME d.toNat h.toNat o.toNat t.code) t.word)
  | .cbadvp g d o => .syllable .load (syllable 0x44 g (packME d.toNat 0 o.toNat 0) none)
  | .cbadvc g d o => .syllable .load (syllable 0x45 g (packME d.toNat 0 o.toNat 0) none)
  | .cbcfg g d o t => .syllable .load (syllable 0x46 g (packME d.toNat 15 o.toNat t.code) none)
  | .wld4 g d h o t => .syllable .load (syllable 0x48 g (packME d.toNat h.toNat o.toNat t.code) t.word)
  | .wld8 g d h o t => .syllable .load (syllable 0x49 g (packME d.toNat h.toNat o.toNat t.code) t.word)
  | .ldfe g d h o t => .syllable .load (syllable 0x60 g (packME d.toNat h.toNat o.toNat t.code) t.word)
  | .stef g d h o t => .syllable .load (syllable 0x61 g (packME d.toNat h.toNat o.toNat t.code) t.word)
  | .ldff g d h o t => .syllable .load (syllable 0x62 g (packME d.toNat h.toNat o.toNat t.code) t.word)
  | .stff g d h o t => .syllable .load (syllable 0x63 g (packME d.toNat h.toNat o.toNat t.code) t.word)
  | .feset g h o t => .syllable .load (syllable 0x64 g (packME 0 h.toNat o.toNat t.code) t.word)
  | .feclr g h o t => .syllable .load (syllable 0x65 g (packME 0 h.toNat o.toNat t.code) t.word)
  | .ldacq g d h o w x => .syllable .load (syllable 0x68 g (packAT d.toNat h.toNat o.toNat w.code 0) x)
  | .strel g d h o w x => .syllable .load (syllable 0x69 g (packAT d.toNat h.toNat o.toNat w.code 0) x)
  | .fence g w => .syllable .load (syllable 0x6C g (packAT 0 0 0 w.code 0) none)
  | .amoaddW g d h o w q x => .syllable .load (syllable 0x80 g (packAT d.toNat h.toNat o.toNat w.code q.toNat) x)
  | .amoaddD g d h o w q x => .syllable .load (syllable 0x81 g (packAT d.toNat h.toNat o.toNat w.code q.toNat) x)
  | .amoandW g d h o w q x => .syllable .load (syllable 0x82 g (packAT d.toNat h.toNat o.toNat w.code q.toNat) x)
  | .amoandD g d h o w q x => .syllable .load (syllable 0x83 g (packAT d.toNat h.toNat o.toNat w.code q.toNat) x)
  | .amoorW g d h o w q x => .syllable .load (syllable 0x84 g (packAT d.toNat h.toNat o.toNat w.code q.toNat) x)
  | .amoorD g d h o w q x => .syllable .load (syllable 0x85 g (packAT d.toNat h.toNat o.toNat w.code q.toNat) x)
  | .amoxorW g d h o w q x => .syllable .load (syllable 0x86 g (packAT d.toNat h.toNat o.toNat w.code q.toNat) x)
  | .amoxorD g d h o w q x => .syllable .load (syllable 0x87 g (packAT d.toNat h.toNat o.toNat w.code q.toNat) x)
  | .amominW g d h o w q x => .syllable .load (syllable 0x88 g (packAT d.toNat h.toNat o.toNat w.code q.toNat) x)
  | .amominD g d h o w q x => .syllable .load (syllable 0x89 g (packAT d.toNat h.toNat o.toNat w.code q.toNat) x)
  | .amomaxW g d h o w q x => .syllable .load (syllable 0x8A g (packAT d.toNat h.toNat o.toNat w.code q.toNat) x)
  | .amomaxD g d h o w q x => .syllable .load (syllable 0x8B g (packAT d.toNat h.toNat o.toNat w.code q.toNat) x)
  | .amominzW g d h o w q x => .syllable .load (syllable 0x8C g (packAT d.toNat h.toNat o.toNat w.code q.toNat) x)
  | .amominzD g d h o w q x => .syllable .load (syllable 0x8D g (packAT d.toNat h.toNat o.toNat w.code q.toNat) x)
  | .amomaxzW g d h o w q x => .syllable .load (syllable 0x8E g (packAT d.toNat h.toNat o.toNat w.code q.toNat) x)
  | .amomaxzD g d h o w q x => .syllable .load (syllable 0x8F g (packAT d.toNat h.toNat o.toNat w.code q.toNat) x)
  | .amoswpW g d h o w q x => .syllable .load (syllable 0x90 g (packAT d.toNat h.toNat o.toNat w.code q.toNat) x)
  | .amoswpD g d h o w q x => .syllable .load (syllable 0x91 g (packAT d.toNat h.toNat o.toNat w.code q.toNat) x)
  | .amocasW g d h o w q x => .syllable .load (syllable 0x92 g (packAT (2 * d.toNat) h.toNat o.toNat w.code q.toNat) x)
  | .amocasD g d h o w q x => .syllable .load (syllable 0x93 g (packAT (2 * d.toNat) h.toNat o.toNat w.code q.toNat) x)
  | .amofaddW g d h o w q x => .syllable .load (syllable 0x94 g (packAT d.toNat h.toNat o.toNat w.code q.toNat) x)
  | .tktwait g d h o => .syllable .load (syllable 0xA0 g (packAT d.toNat h.toNat o.toNat 2 0) none)
  | .tktdone g h o => .syllable .load (syllable 0xA1 g (packAT 0 h.toNat o.toNat 2 0) none)
  | .xlat g d a kind => .syllable .load (syllable 0xC0 g (packSI d.toNat a.toNat kind.toNat) none)
  | .hinv g d => .syllable .load (syllable 0xC1 g (packSI d.toNat 0 0) none)
  | .hget g d a sel => .syllable .load (syllable 0xC2 g (packSI d.toNat a.toNat sel.toNat) none)
  | .hchk g d a => .syllable .load (syllable 0xC3 g (packSI d.toNat a.toNat 0) none)
  | .scld g d h o w => .syllable .load (syllable 0xD0 g (packAT d.toNat h.toNat o.toNat w.code 0) none)
  | .scst g d h o w => .syllable .load (syllable 0xD1 g (packAT d.toNat h.toNat o.toNat w.code 0) none)
  | .scaddW g d h o w => .syllable .load (syllable 0xD2 g (packAT d.toNat h.toNat o.toNat w.code 0) none)
  | .scaddD g d h o w => .syllable .load (syllable 0xD3 g (packAT d.toNat h.toNat o.toNat w.code 0) none)
  | .wbinv g h o => .syllable .load (syllable 0xE0 g (packME 0 h.toNat o.toNat 0) none)
  | .pfl2 g h o => .syllable .load (syllable 0xE1 g (packME 0 h.toNat o.toNat 0) none)
  | .vadd g d a b f x => .syllable .vector (syllable 0x01 g (packVR d.toNat a.toNat b.toNat f.code) (VExt.wordOpt x))
  | .vsub g d a b f x => .syllable .vector (syllable 0x02 g (packVR d.toNat a.toNat b.toNat f.code) (VExt.wordOpt x))
  | .vmul g d a b f x => .syllable .vector (syllable 0x03 g (packVR d.toNat a.toNat b.toNat f.code) (VExt.wordOpt x))
  | .vfma g d a b f x => .syllable .vector (syllable 0x04 g (packVR d.toNat a.toNat b.toNat f.code) (VExt.wordOpt x))
  | .vfms g d a b f x => .syllable .vector (syllable 0x05 g (packVR d.toNat a.toNat b.toNat f.code) (VExt.wordOpt x))
  | .vabs g d a b f x => .syllable .vector (syllable 0x06 g (packVR d.toNat a.toNat b.toNat f.code) (VExt.wordOpt x))
  | .vneg g d a b f x => .syllable .vector (syllable 0x07 g (packVR d.toNat a.toNat b.toNat f.code) (VExt.wordOpt x))
  | .vmin g d a b f x => .syllable .vector (syllable 0x08 g (packVR d.toNat a.toNat b.toNat f.code) (VExt.wordOpt x))
  | .vmax g d a b f x => .syllable .vector (syllable 0x09 g (packVR d.toNat a.toNat b.toNat f.code) (VExt.wordOpt x))
  | .vand g d a b => .syllable .vector (syllable 0x10 g (packVR d.toNat a.toNat b.toNat 0) none)
  | .vor g d a b => .syllable .vector (syllable 0x11 g (packVR d.toNat a.toNat b.toNat 0) none)
  | .vxor g d a b => .syllable .vector (syllable 0x12 g (packVR d.toNat a.toNat b.toNat 0) none)
  | .vshl g d a b f => .syllable .vector (syllable 0x13 g (packVR d.toNat a.toNat b.toNat f.code) none)
  | .vshr g d a b f => .syllable .vector (syllable 0x14 g (packVR d.toNat a.toNat b.toNat f.code) none)
  | .vsra g d a b f => .syllable .vector (syllable 0x15 g (packVR d.toNat a.toNat b.toNat f.code) none)
  | .vcmpeq g d a b f x => .syllable .vector (syllable 0x20 g (packVR d.toNat a.toNat b.toNat f.code) (VExt.wordOpt x))
  | .vcmplt g d a b f x => .syllable .vector (syllable 0x21 g (packVR d.toNat a.toNat b.toNat f.code) (VExt.wordOpt x))
  | .vcmple g d a b f x => .syllable .vector (syllable 0x22 g (packVR d.toNat a.toNat b.toNat f.code) (VExt.wordOpt x))
  | .vsel g d a b f x => .syllable .vector (syllable 0x23 g (packVR d.toNat a.toNat b.toNat f.code) (VExt.wordOpt x))
  | .vmov g d a => .syllable .vector (syllable 0x30 g (packVR d.toNat a.toNat 0 0) none)
  | .vzero g d => .syllable .vector (syllable 0x31 g (packVR d.toNat 0 0 0) none)
  | .viota g d a b f x => .syllable .vector (syllable 0x32 g (packVR d.toNat a.toNat b.toNat f.code) (VExt.wordOpt x))
  | .vcvt g d a b f x => .syllable .vector (syllable 0x60 g (packVR d.toNat a.toNat b.toNat f.code) (VExt.wordOpt x))
  | .vpack g d a b f x => .syllable .vector (syllable 0x61 g (packVR d.toNat a.toNat b.toNat f.code) (VExt.wordOpt x))
  | .vunpk g d a b f x => .syllable .vector (syllable 0x62 g (packVR d.toNat a.toNat b.toNat f.code) (VExt.wordOpt x))
  | .vquant g d a b f x => .syllable .vector (syllable 0x63 g (packVR d.toNat a.toNat b.toNat f.code) (VExt.wordOpt x))
  | .vdequant g d a b f x => .syllable .vector (syllable 0x64 g (packVR d.toNat a.toNat b.toNat f.code) (VExt.wordOpt x))
  | .vtld g t n => .syllable .vector (syllable 0x80 g (packVR t.toNat n.toNat 0 0) none)
  | .vtcfg g t a lmode umode lo q => .syllable .vector (syllable 0x81 g (packVR t.toNat a.toNat (lmode.code + 4 * umode.code) 0) (some (BitVec.ofNat 32 (q.toNat * 65536 + lo.toNat))))
  | .vtab g d a b f x => .syllable .vector (syllable 0x82 g (packVR d.toNat a.toNat b.toNat f.code) (VExt.wordOpt x))
  | .vredsum g d a b f x => .syllable .vector (syllable 0xA0 g (packVR d.toNat a.toNat b.toNat f.code) (VExt.wordOpt x))
  | .vredmax g d a b f x => .syllable .vector (syllable 0xA1 g (packVR d.toNat a.toNat b.toNat f.code) (VExt.wordOpt x))
  | .vredmin g d a b f x => .syllable .vector (syllable 0xA2 g (packVR d.toNat a.toNat b.toNat f.code) (VExt.wordOpt x))
  | .vredarg g d a b f x => .syllable .vector (syllable 0xA3 g (packVR d.toNat a.toNat b.toNat f.code) (VExt.wordOpt x))
  | .vscan g d a b f x => .syllable .vector (syllable 0xA4 g (packVR d.toNat a.toNat b.toNat f.code) (VExt.wordOpt x))
  | .vbcast g d a b f x => .syllable .vector (syllable 0xB0 g (packVR d.toNat a.toNat b.toNat f.code) (VExt.wordOpt x))
  | .vins g d a b f x => .syllable .vector (syllable 0xB1 g (packVR d.toNat a.toNat b.toNat f.code) (VExt.wordOpt x))
  | .vext g d a b f x => .syllable .vector (syllable 0xB2 g (packVR d.toNat a.toNat b.toNat f.code) (VExt.wordOpt x))
  | .vperm g d a b f x => .syllable .vector (syllable 0xB3 g (packVR d.toNat a.toNat b.toNat f.code) (VExt.wordOpt x))
  | .vslide g d a b f x => .syllable .vector (syllable 0xB4 g (packVR d.toNat a.toNat b.toNat f.code) (VExt.wordOpt x))
  | .vrev g d a b f x => .syllable .vector (syllable 0xB5 g (packVR d.toNat a.toNat b.toNat f.code) (VExt.wordOpt x))
  | .mpush g m s => .syllable .matrix (syllable 0x01 g (packMB m.toNat s.toNat 0) none)
  | .mstep g m s => .syllable .matrix (syllable 0x02 g (packMB m.toNat s.toNat 0) none)
  | .macc g m s y => .syllable .matrix (syllable 0x03 g (packMB m.toNat s.toNat y.code) none)
  | .mdrain g m s y => .syllable .matrix (syllable 0x04 g (packMB m.toNat s.toNat y.code) none)
  | .mclr g m s => .syllable .matrix (syllable 0x05 g (packMB m.toNat s.toNat 0) none)
  | .mfill g m s y => .syllable .matrix (syllable 0x06 g (packMB m.toNat s.toNat y.code) none)
  | .mcfg g scb af acc dcb df rnd => .syllable .matrix (syllable 0x20 g (packMC scb.toNat af.code acc.toNat) (some (BitVec.ofNat 32 (dcb.toNat * 134217728 + df.code * 8388608 + rnd.code * 1048576))))
  | .mmode g rank => .syllable .matrix (syllable 0x21 g (packMB rank.toNat 0 0) none)
  | .mrowReg g a => .syllable .matrix (syllable 0x22 g (packMB a.toNat 0 0) none)
  | .mrowImm g k => .syllable .matrix (syllable 0x22 g (packMB k.toNat 1 0) none)
  | .tbind g t h o excl => .syllable .matrix (syllable 0x40 g (packTB t.toNat h.toNat o.toNat excl.toNat) none)
  | .tunbind g t => .syllable .matrix (syllable 0x41 g (packTB t.toNat 0 0 0) none)
  | .tpin g t => .syllable .matrix (syllable 0x42 g (packTB t.toNat 0 0 0) none)
  | .tunpin g t => .syllable .matrix (syllable 0x43 g (packTB t.toNat 0 0 0) none)
  | .tpf g h o => .syllable .matrix (syllable 0x44 g (packTB 0 h.toNat o.toNat 0) none)
  | .tinvAddr g h o => .syllable .matrix (syllable 0x45 g (packTB 0 h.toNat o.toNat 0) none)
  | .tinvBinding g t => .syllable .matrix (syllable 0x45 g (packTB t.toNat 0 0 1) none)
  | .twst g t o v => .syllable .matrix (syllable 0x46 g (packTB t.toNat 0 o.toNat 0) (some (BitVec.ofNat 32 v.toNat)))
  | .twstRow g t o n => .syllable .matrix (syllable 0x46 g (packTB t.toNat 0 o.toNat 1) (some (BitVec.ofNat 32 n.toNat)))
  | .tstat g t d => .syllable .matrix (syllable 0x47 g (packTB t.toNat 0 d.toNat 0) none)
  | .cpy g t a b fill x => .syllable .engine (syllable 0x01 g (packEN t.toNat a.toNat b.toNat fill.toNat) x)
  | .cpy2 g t a => .syllable .engine (syllable 0x02 g (packEN t.toNat a.toNat 0 0) none)
  | .gath g t a b k x => .syllable .engine (syllable 0x03 g (packEN t.toNat a.toNat b.toNat k.toNat) x)
  | .scat g t a b k x => .syllable .engine (syllable 0x04 g (packEN t.toNat a.toNat b.toNat k.toNat) x)
  | .kvw g t a x => .syllable .engine (syllable 0x05 g (packEN t.toNat a.toNat 0 0) x)
  | .cpyr g t a => .syllable .engine (syllable 0x06 g (packEN t.toNat a.toNat 0 0) none)
  | .cred g t a => .syllable .engine (syllable 0x40 g (packEN t.toNat a.toNat 0 0) none)
  | .cgath g t a => .syllable .engine (syllable 0x41 g (packEN t.toNat a.toNat 0 0) none)
  | .bul g t a dup x => .syllable .engine (syllable 0xA0 g (packEN t.toNat a.toNat 0 dup.toNat) (x.map (fun c => BitVec.ofNat 32 c.toNat)))
  | .tlwait g t a q => .syllable .engine (syllable 0x60 g (packEN t.toNat a.toNat 0 q.toNat) none)
  | .tlget g t d sel => .syllable .engine (syllable 0x61 g (packEN t.toNat d.toNat 0 sel.code) none)
  | .tlsig g t a => .syllable .engine (syllable 0x62 g (packEN t.toNat a.toNat 0 0) none)
  | .gjoin g a b => .syllable .engine (syllable 0x80 g (packEN 0 a.toNat b.toNat 0) none)
  | .gleave g a => .syllable .engine (syllable 0x81 g (packEN 0 a.toNat 0 0) none)
  | .gbar g a q => .syllable .engine (syllable 0x82 g (packEN 0 a.toNat 0 q.toNat) none)
  | .gwait g d q a => .syllable .engine (syllable 0x83 g (packEN 0 a.toNat d.toNat q.toNat) none)
  | .tspawn g a => .syllable .engine (syllable 0x88 g (packEN 0 a.toNat 0 0) none)
  | .tdec g a => .syllable .engine (syllable 0x89 g (packEN 0 a.toNat 0 0) none)
  | .tarm g a b => .syllable .engine (syllable 0x8A g (packEN 0 a.toNat b.toNat 0) none)
  | .moveNull src g => moveWord 0 src g
  | .moveRowk src g => moveWord 1 src g
  | .moveFmaA src g => moveWord 2 src g
  | .moveFmaT src g => moveWord 3 src g
  | .moveAcc src g => moveWord 4 src g
  | .moveOut src g => moveWord 5 src g
  | .moveLcSet src g => moveWord 6 src g
  | .moveLcT src g => moveWord 7 src g
  | .moveBr src g => moveWord 8 src g
  | .moveEnd src g => moveWord 9 src g
  | .moveAcc1 src g => moveWord 10 src g
  | .moveFmaT1 src g => moveWord 11 src g
  | .moveAddA src g => moveWord 12 src g
  | .moveAddT src g => moveWord 13 src g
  | .moveMulA src g => moveWord 14 src g
  | .moveMulT src g => moveWord 15 src g
  | .moveCmpA src g => moveWord 16 src g
  | .moveCmpT src g => moveWord 17 src g
  | .bundleDispatch => .none
  | .bundleIssue => .none
  | .syncMet => .none
  | .resultLanding => .none
  | .cbFire => .none
  | .cbCountRise => .none
  | .replyArrival => .none
  | .segmentExpansionComplete => .none
  | .segmentRefillComplete => .none
  | .tableSwap => .none
  | .xlatComplete => .none
  | .pginvWrite => .none
  | .invalidationComplete => .none
  | .waymaskWrite => .none
  | .felWrite => .none
  | .mb7Write => .none
  | .mailboxWrite => .none
  | .registerWrite => .none
  | .tileFillComplete => .none
  | .replicaCopyComplete => .none
  | .prefetchFillStart => .none
  | .scrub => .none
  | .uncorrectableError => .none
  | .preemptionRequest => .none
  | .preemption => .none
  | .preemptionOverdue => .none
  | .continuationPickup => .none
  | .continuationKill => .none
  | .readyAgeing => .none
  | .timeSliceSwitch => .none
  | .launchQueueTake => .none
  | .graphReplayStart => .none
  | .graphReplayComplete => .none
  | .nodeDecrement => .none
  | .nodeArm => .none
  | .engineCommandStart => .none
  | .commandRetire => .none
  | .remoteWindowWrite => .none
  | .collectiveResult => .none
  | .migration => .none
  | .migrationPagePull => .none
  | .bankUnitAccept => .none
  | .bankUnitResult => .none
  | .bankRequestPromotion => .none
  | .homeApply => .none
  | .hotLineWithdraw => .none
  | .switchCombine => .none
  | .combineHoldExpiry => .none
  | .combinedReplySplit => .none
  | .sailWheelApply => .none
  | .rateLimitedSend => .none
  | .fabricLinkFailure => .none
  | .supplySag => .none
  | .timerMatch => .none
  | .faultReport => .none
  | .bhSchedStop => .none
  | .bhPreempt => .none
  | .bhQuiesceAbandon => .none
  | .quiesceComplete => .none
  | .sluiceClose => .none
  | .sluiceCloseComplete => .none
  | .retentionSave => .none
  | .retentionSaveComplete => .none
  | .clockGate => .none
  | .clockStopped => .none
  | .railOff => .none
  | .railDown => .none
  | .railOn => .none
  | .railUp => .none
  | .clockUngate => .none
  | .pllLock => .none
  | .bhWipe => .none
  | .wipeComplete => .none
  | .retentionRestore => .none
  | .retentionRestoreComplete => .none
  | .sluiceOpen => .none
  | .sluiceOpenComplete => .none
  | .bhSchedResume => .none
  | .bhWakeWrite => .none
  | .coreRestart => .none
  | .pwrlimWrite => .none
  | .ptabWrite => .none
  | .contextDescriptorWrite => .none
  | .bhReset => .none
  | .gkeyDestroy => .none
  | .lifecycleRequest => .none
  | .moduleReset => .none
  | .lifetimeCounterCommit => .none
  | .vfWake => .none
  | .vfHinv => .none
  | .consentSubmit => .none
  | .attestationRequest => .none
  | .atsInvalidation => .none
  | .vfFlr => .none
  | .pfFlr => .none
  | .peerRequest => .none
  | .scairHeartbeat => .none
  | .scairXoff => .none
  | .scairXon => .none
  | .scairReplayRequest => .none
  | .scairLinkDown => .none
  | .scairFlitCrcFailure => .none
  | .orderlyPowerDown => .none
  | .migrationBackgroundPush => .none
  | .debugFreezeResume => .none

end Sys2Proof
end

