-- ==== Sys2Proof/Machine/Bundle.lean ====
section
/-! DEFINITION. Segments and bundles (spec/02 R33, spec/03 R40 to R60): their words, their boundaries, and the legality
of a bundle at dispatch. -/

namespace Sys2Proof.Machine

/-- The core is in service (R329). -/
def Core.svc (k : Core) : Bool := wbit (k.sysReg 3) 63

/-! The words of a bundle (R40, R41). -/

/-- The syllables of the slots in a list, from word n on: each with its extension word, and where they end. -/
def syllablesFrom (ws : List W32) (new : Nat) : List Nat → Nat → List (Nat × Nat × Nat) × Nat
  | [], n => ([], n)
  | i :: is, n =>
    if bits new i 1 == 0 then syllablesFrom ws new is n
    else
      let w := (ws.getD n 0).toNat
      let x := bits w 23 1 == 1
      let (rest, e) := syllablesFrom ws new is (if x then n + 2 else n + 1)
      ((i, w, if x then (ws.getD (n + 1) 0).toNat else 0) :: rest, e)

/-- The bundle that starts a list of words. -/
def bundleOf (ws : List W32) : Bundle :=
  let head := (ws.getD 0 0).toNat
  let (syls, e) := syllablesFrom ws (bits head 24 8) [0, 1, 2, 3, 4, 5, 6, 7] 1
  { head := head, len := e, syls := syls }

def Bundle.sync (b : Bundle) : Nat := bits b.head 16 8
def Bundle.rpt (b : Bundle) : Nat := bits b.head 10 6
def Bundle.mark (b : Bundle) : Bool := bits b.head 9 1 == 1
def Bundle.safe (b : Bundle) : Bool := bits b.head 8 1 == 1
def Bundle.segend (b : Bundle) : Bool := bits b.head 7 1 == 1

/-! Segments (R33). -/

def Seg.first (g : Seg) : Nat := g.head + 16
/-- The end of the segment's words. -/
def Seg.stop (g : Seg) : Nat := g.head + 16 + 4 * g.words.length
/-- The bundle at an address of the segment. -/
def Seg.bundleAt (g : Seg) (adr : Nat) : Bundle := bundleOf (g.words.drop ((adr - g.first) / 4))

/-- The word offsets of the bundles that a word list holds, from offset n on. -/
def bundleStarts (ws : List W32) : Nat → Nat → List Nat
  | 0, _ => []
  | fuel + 1, n =>
    if ws.length ≤ n then []
    else n :: bundleStarts ws fuel (n + (bundleOf (ws.drop n)).len)
def Seg.starts (g : Seg) : List Nat := bundleStarts g.words g.words.length 0
/-- Whether an address is the header of a bundle of the segment. -/
def Seg.holds (g : Seg) (adr : Nat) : Bool :=
  g.bad == 0 && g.first ≤ adr && adr < g.stop && (adr - g.first) % 4 == 0 && g.starts.contains ((adr - g.first) / 4)
/-- Whether an address lies inside the segment, which starts with its header (R33). -/
def Seg.covers (g : Seg) (adr : Nat) : Bool := g.head ≤ adr && adr < g.stop

/-- The fall-through address of a bundle (R74). -/
def Seg.fall (g : Seg) (adr : Nat) (b : Bundle) : Nat :=
  if b.segend then (if g.next == 0 then 0 else g.next + 16) else adr + 4 * b.len

/-- Words of 32 bits from bytes. -/
def wordsOf (bs : List Byte) : List W32 := (chunks 4 (bs.length / 4) bs).map (fun c => BitVec.ofNat 32 (bytesToNat c))

/-- Whether header fields and words form a well-formed segment (R33). -/
def segWellFormed (hdr : Nat) (ws : List W32) : Bool :=
  let starts := bundleStarts ws ws.length 0
  let ends := starts.map (fun n => n + (bundleOf (ws.drop n)).len)
  bits hdr 125 3 == 0 && bits hdr 56 8 == 0 && bits hdr 64 4 == 0 && bits hdr 0 4 == 0
    && starts.length == bits hdr 48 8 + 1
    && ends.getLast? == some ws.length
    && starts.map (fun n => (bundleOf (ws.drop n)).segend) == List.replicate (starts.length - 1) false ++ [true]

/-- Fetches n bytes of code, 16 at a time: the bytes, or the cause of R330 (1 poison, 2 translation or permission) and
the address that failed. A bulkhead that is down is no translation, so it counts with cause 2 (DEDUCED, log entry 28). root is the
VROOT of the core that fetches, with its partition, and src its bulkhead. -/
def State.fetchCode (s : State) (x va : Nat) (root : Option (Nat × Nat) := none) (src : Option Nat := none) : Nat → Except (Nat × Nat) (List Byte)
  | 0 => .ok []
  | n + 1 =>
    match s.vread x va 16 .code root src with
    | .error e => .error (if e == 3 then 1 else 2, va)
    | .ok bs =>
      match s.fetchCode x (va + 16) root src n with
      | .error e => .error e
      | .ok rest => .ok (bs ++ rest)

/-- Reads and expands the segment at a header address (R33, R34). A malformed one keeps the words that were fetched, for the causes of its
first bundle (R56). Where a header is malformed and its words cannot be fetched either, R33 ranks neither trap: the range of WCNT is tested
before the words are fetched, and a fetch that fails comes before every other test (DESIGN CHOICE, log entry 112). -/
def State.readSegment (s : State) (x head : Nat) (root : Option (Nat × Nat) := none) (src : Option Nat := none) : Seg :=
  let broken (bad va : Nat) : Seg := { head := head, next := 0, hint := 0, words := [], bad := bad, badVa := va }
  if head % 16 != 0 then broken 1 head
  else match s.fetchCode x head root src 1 with
    | .error (c, va) => broken (c + 1) va
    | .ok h =>
      let hdr := bytesToNat h
      let wcnt := bits hdr 112 13
      if wcnt == 0 || wcnt > 4352 then broken 1 head
      else match s.fetchCode x (head + 16) root src ((wcnt + 3) / 4) with
        | .error (c, va) => broken (c + 1) va
        | .ok bs =>
          let ws := (wordsOf bs).take wcnt
          { head := head, next := bits hdr 0 48, hint := bits hdr 64 48, words := ws, bad := b2n (!segWellFormed hdr ws), badVa := 0 }

/-- What fetching a segment for a core of bulkhead b does at the homes of its lines (R302, R309). -/
def State.readingCode (s : State) (x b : Nat) (g : Seg) (root : Option (Nat × Nat)) : State :=
  if g.bad == 2 || g.bad == 3 then s.reading x g.badVa 16 .code b root
  else
    let n := 16 + 4 * g.words.length
    (List.range (n / 256 + 2)).foldl (fun (t : State) i =>
      let a := max g.head (alignDown g.head 256 + 256 * i)
      let m := min (g.head + n - a) (256 - a % 256)
      if a < g.head + n then t.reading x a m .code b root else t) s

/-- The segment that holds a bundle address when it is not the executing one: the one that starts there, otherwise the
nearest preceding well-formed segment with a bundle at that address (DEDUCED: the spec does not say how a resume address
inside a segment finds its segment; log entry 26). -/
def State.findSegment (s : State) (x target : Nat) (root : Option (Nat × Nat) := none) : Nat → Nat → Nat
  | 0, _ => target - 16
  | n + 1, head =>
    if (s.readSegment x head root).holds target then head
    else if head < 16 then target - 16
    else s.findSegment x target root n (head - 16)
def State.segmentOf (s : State) (x target : Nat) (root : Option (Nat × Nat) := none) : Nat := s.findSegment x target root 1104 (alignDown (target - 16) 16)

/-! Legality (R56 to R58). -/

/-- Keys of the registers an operation names as a destination (R57): s 0 to 63, p 64 to 71, v 72 to 103, h 104 to 119,
cb 120 to 151, tb 152 to 167, lc 168 to 171; s0 and p0 are not counted. The predicate of tlwait and gbar is not counted
(R279). An operation on a buffer but cbcfg names it as a producer or consumer (R31), not as a register that it writes (DEDUCED, log
entry 103). -/
def keyS (r : SReg) : List Nat := if r = 0 then [] else [r.toNat]
def keyP (q : PReg) : List Nat := if q = 0 then [] else [64 + q.toNat]
def keyV (v : VReg) : List Nat := [72 + v.toNat]
def destsOf : Instr → List Nat
  | .add _ d _ _ _ | .sub _ d _ _ _ | .mul _ d _ _ _ | .mulhi _ d _ _ _ | .mulhz _ d _ _ _ | .div _ d _ _ _
  | .divz _ d _ _ _ | .rem _ d _ _ _ | .remz _ d _ _ _ | .shl _ d _ _ _ | .shr _ d _ _ _ | .sra _ d _ _ _
  | .rol _ d _ _ _ | .min _ d _ _ _ | .max _ d _ _ _ | .minz _ d _ _ _ | .maxz _ d _ _ _ => keyS d
  | .and _ d _ _ | .or _ d _ _ | .xor _ d _ _ | .andn _ d _ _ | .bext _ d _ _ | .bins _ d _ _ => keyS d
  | .addi _ d _ _ | .andi _ d _ _ | .ori _ d _ _ | .xori _ d _ _ | .shli _ d _ _ | .shri _ d _ _ | .srai _ d _ _
  | .addiW _ d _ _ | .lih _ d _ _ => keyS d
  | .shliW _ d _ _ | .shriW _ d _ _ | .sraiW _ d _ _ | .sext _ d _ _ | .zext _ d _ _ => keyS d
  | .cmpeq _ q q2 _ _ | .cmpne _ q q2 _ _ | .cmplt _ q q2 _ _ | .cmple _ q q2 _ _ | .cmpltz _ q q2 _ _
  | .cmplez _ q q2 _ _ | .cmpeqW _ q q2 _ _ | .cmpneW _ q q2 _ _ | .cmpltW _ q q2 _ _ | .cmpleW _ q q2 _ _
  | .cmpltzW _ q q2 _ _ | .cmplezW _ q q2 _ _ => keyP q ++ keyP q2
  | .pand _ q _ _ _ _ | .por _ q _ _ _ _ | .pxor _ q _ _ _ _ | .pnot _ q _ _ => keyP q
  | .pset _ _ _ => [65, 66, 67, 68, 69, 70, 71]
  | .pget _ d | .clz _ d _ _ | .ctz _ d _ _ | .popc _ d _ _ | .mov _ d _ | .li _ d _ => keyS d
  | .sysr _ r _ | .sysx _ r _ => keyS r
  | .bl _ _ => [63]
  | .call _ d _ | .iwait _ d _ => keyS d
  | .loop _ l _ _ | .loopi _ l _ _ => [168 + l.toNat]
  | .ldb _ d _ _ _ | .ldh _ d _ _ _ | .ldw _ d _ _ _ | .ldd _ d _ _ _ | .ldbz _ d _ _ _ | .ldhz _ d _ _ _
  | .ldwz _ d _ _ _ | .ldfe _ d _ _ _ | .ldff _ d _ _ _ => keyS d
  | .vld _ d _ _ _ | .vldb _ d _ _ _ | .wld4 _ d _ _ _ | .wld8 _ d _ _ _ | .cbget _ d _ => keyV d
  | .cbcfg _ d _ _ => [120 + d.toNat]
  | .ldacq _ d _ _ _ _ => keyS d
  | .amoaddW _ d _ _ _ _ _ | .amoaddD _ d _ _ _ _ _ | .amoandW _ d _ _ _ _ _ | .amoandD _ d _ _ _ _ _
  | .amoorW _ d _ _ _ _ _ | .amoorD _ d _ _ _ _ _ | .amoxorW _ d _ _ _ _ _ | .amoxorD _ d _ _ _ _ _
  | .amominW _ d _ _ _ _ _ | .amominD _ d _ _ _ _ _ | .amomaxW _ d _ _ _ _ _ | .amomaxD _ d _ _ _ _ _
  | .amominzW _ d _ _ _ _ _ | .amominzD _ d _ _ _ _ _ | .amomaxzW _ d _ _ _ _ _ | .amomaxzD _ d _ _ _ _ _
  | .amoswpW _ d _ _ _ _ _ | .amoswpD _ d _ _ _ _ _ | .amofaddW _ d _ _ _ _ _ => keyS d
  | .amocasW _ d _ _ _ _ _ | .amocasD _ d _ _ _ _ _ => keyS (d ++ 0#1) ++ keyS (d ++ 1#1)
  | .xlat _ d _ _ | .hinv _ d => [104 + d.toNat]
  | .hget _ d _ _ | .hchk _ d _ | .scld _ d _ _ _ | .scaddW _ d _ _ _ | .scaddD _ d _ _ _ => keyS d
  | .vadd _ d _ _ _ _ | .vsub _ d _ _ _ _ | .vmul _ d _ _ _ _ | .vfma _ d _ _ _ _ | .vfms _ d _ _ _ _
  | .vabs _ d _ _ _ _ | .vneg _ d _ _ _ _ | .vmin _ d _ _ _ _ | .vmax _ d _ _ _ _ | .vcmpeq _ d _ _ _ _
  | .vcmplt _ d _ _ _ _ | .vcmple _ d _ _ _ _ | .vsel _ d _ _ _ _ | .viota _ d _ _ _ _ | .vcvt _ d _ _ _ _
  | .vpack _ d _ _ _ _ | .vunpk _ d _ _ _ _ | .vquant _ d _ _ _ _ | .vdequant _ d _ _ _ _ | .vtab _ d _ _ _ _
  | .vredsum _ d _ _ _ _ | .vredmax _ d _ _ _ _ | .vredmin _ d _ _ _ _ | .vredarg _ d _ _ _ _ | .vscan _ d _ _ _ _
  | .vbcast _ d _ _ _ _ | .vins _ d _ _ _ _ | .vext _ d _ _ _ _ | .vperm _ d _ _ _ _ | .vslide _ d _ _ _ _
  | .vrev _ d _ _ _ _ => keyV d
  | .vand _ d _ _ | .vor _ d _ _ | .vxor _ d _ _ | .vshl _ d _ _ _ | .vshr _ d _ _ _ | .vsra _ d _ _ _
  | .vmov _ d _ | .vzero _ d => keyV d
  | .tbind _ t _ _ _ => [152 + t.toNat]
  | .tstat _ _ d => keyS d
  | .tlget _ _ d _ => keyS d
  | .gwait _ d q _ => keyS d ++ keyP q
  | _ => []

/-- What a syllable counts as a writer of: an amocas with an odd D, which is illegal, names s(D) and s(D + 1) all the same (R57, R242). The
management core has no sail-wheel operations: their opcodes are unassigned there and name no destination (R224). -/
def writersOf (mgmt : Bool) (w : Nat) (i : Instr) : List Nat :=
  match i with
  | .scld _ _ _ _ _ | .scaddW _ _ _ _ _ | .scaddD _ _ _ _ _ => if mgmt then [] else destsOf i
  | .amocasW _ _ _ _ _ _ _ | .amocasD _ _ _ _ _ _ _ => keyS (BitVec.ofNat 6 (bits w 13 6)) ++ keyS (BitVec.ofNat 6 (bits w 13 6 + 1))
  | _ => destsOf i

/-- How many vector registers an operation reads (R58), each operand once. -/
def vectorReads : Instr → Nat
  | .vst _ _ _ _ _ | .cbput _ _ _ => 1
  | .vadd _ _ _ _ _ _ | .vsub _ _ _ _ _ _ | .vmul _ _ _ _ _ _ | .vmin _ _ _ _ _ _ | .vmax _ _ _ _ _ _
  | .vand _ _ _ _ | .vor _ _ _ _ | .vxor _ _ _ _ | .vshl _ _ _ _ _ | .vshr _ _ _ _ _ | .vsra _ _ _ _ _
  | .vcmpeq _ _ _ _ _ _ | .vcmplt _ _ _ _ _ _ | .vcmple _ _ _ _ _ _ | .vpack _ _ _ _ _ _ | .vins _ _ _ _ _ _
  | .vperm _ _ _ _ _ _ | .vslide _ _ _ _ _ _ => 2
  | .vfma _ _ _ _ _ _ | .vfms _ _ _ _ _ _ | .vsel _ _ _ _ _ _ => 3
  | .vabs _ _ _ _ _ _ | .vneg _ _ _ _ _ _ | .vmov _ _ _ | .vunpk _ _ _ _ _ _ | .vdequant _ _ _ _ _ _
  | .vtab _ _ _ _ _ _ | .vredsum _ _ _ _ _ _ | .vredmax _ _ _ _ _ _ | .vredmin _ _ _ _ _ _
  | .vredarg _ _ _ _ _ _ | .vscan _ _ _ _ _ _ | .vbcast _ _ _ _ _ _ | .vext _ _ _ _ _ _ | .vrev _ _ _ _ _ _ => 1
  | .vcvt _ _ _ _ f x => if f.width < (sfOf f x).width then 2 else 1
  | .vquant _ _ _ _ f x => if sfOf f x == .f32 then 2 else 1
  | .vtcfg _ _ _ lmode umode _ _ => if lmode == .const || umode == .const then 1 else 0
  | _ => 0

/-- Whether a syllable is nop or idle (R20). -/
def isBlank (i : Instr) : Bool := match i with | .nop | .idle => true | _ => false

/-- The registers of the map that the management core assigns (R352). -/
def mgmtRegister (n : Nat) : Bool :=
  n ≤ 6 || n == 9 || n == 0xA || n == 0x10 || (0x20 ≤ n && n ≤ 0x27)

/-- The conditions that depend on where a syllable stands: the management core (R224, R352, R354, R363), service (R333,
R349), the safe point (R82, R256), the loop's end (R49, R56), and the buffer of vtld (R30). -/
def placeLimits (mgmt svc safe : Bool) (cb : Nat → Cb) (g : Seg) (adr : Nat) (b : Bundle) (slot : Nat) (i : Instr) : List (Bool × Nat) :=
  (svc && (slot == 4 || slot == 5), 1) ::
  (match i with
   | .scld _ _ _ _ _ | .scst _ _ _ _ _ | .scaddW _ _ _ _ _ | .scaddD _ _ _ _ _ => [(mgmt, 1)]
   | .sysr _ _ n | .sysw _ _ n | .sysx _ _ n => [(mgmt && !mgmtRegister n.toNat, 6)]
   | .xlat _ d _ _ | .hinv _ d => [(mgmt && (d == 13 || d == 14), 7)]
   | .yield _ | .susp _ => [(svc, 6), (!safe, 6)]
   | .eret _ => [(!svc, 6)]
   | .loop _ _ _ e | .loopi _ _ _ e => [(e.toNat < b.len || !g.holds (adr + 4 * e.toNat), 6)]
   | .vtld _ _ n => [((cb n.toNat).conf && (cb n.toNat).cap < 12, 10)]
   | _ => [])

/-- The target of a branch with an offset in words (R74). A sum below 0 gives the target 0, and one of 2^48 or more wraps
(DESIGN CHOICE, log entry 100). -/
def branchTarget (adr : Nat) (o : BitVec 19) : Nat := ((adr : Int) + 4 * o.toInt).toNat % 2 ^ 48

/-- Bundle-level causes (R56): header bits 6:0, and a branch target inside the segment that is no bundle header. -/
def bundleCause (g : Seg) (adr : Nat) (b : Bundle) (syls : List (Nat × Instr)) : Nat :=
  if bits b.head 0 7 != 0 then 1
  else if syls.any (fun (_, i) => match i with
      | .b _ o | .bl _ o => g.covers (branchTarget adr o) && !g.holds (branchTarget adr o)
      | _ => false) then 3
  else 0

/-- The least of two causes, 0 standing for none. -/
def minCause (a b : Nat) : Nat := if a == 0 then b else if b == 0 then a else min a b

/-- ILB (R60). -/
def ilbWord (bcause : Nat) (causes : List (Nat × Nat)) : Word :=
  BitVec.ofNat 64 (bcause * 2 ^ 44 + causes.foldl (fun v (i, c) => if c == 0 then v else v + 2 ^ (32 + i) + c * 2 ^ (4 * i)) 0)

/-- The new syllables of a bundle that decode, by slot. -/
def Bundle.operations (b : Bundle) : List (Nat × Instr) :=
  b.syls.filterMap (fun (slot, w, ext) => match decodeSyllable slot w ext with | .ok i => some (slot, i) | .error _ => none)

/-- The check of a bundle at dispatch (R56 to R59): its new syllables by slot, or ILB. re is what the sticky slots would
re-issue. A syllable with a fault of its own counts as a writer, as a reader and as a branch all the same. -/
def checkBundle (mgmt svc safe : Bool) (cb : Nat → Cb) (re : List (Nat × Instr)) (g : Seg) (adr : Nat) (b : Bundle) :
    Except Word (List (Nat × Instr)) :=
  let decoded : List (Nat × Except Nat Instr) := b.syls.map (fun (slot, w, ext) => (slot, decodeSyllable slot w ext))
  let named := b.syls.filterMap (fun (slot, w, ext) => (operationOf slot w ext).map (fun i => (slot, i)))
  let again := re.filter (fun (slot, _) => !(b.syls.any (fun y => y.1 == slot)))
  let ops := named ++ again
  let dests := b.syls.filterMap (fun (slot, w, ext) => (operationOf slot w ext).map (fun i => (slot, writersOf mgmt w i)))
    ++ again.map (fun (slot, i) => (slot, destsOf i))
  let twice (slot : Nat) : Bool := dests.any (fun (j, ks) => j == slot && (ks.any (fun k => ks.count k > 1)
    || dests.any (fun (j', ks') => j' != slot && ks.any (fun k => ks'.contains k))))
  let crowded := (ops.map (fun (_, i) => vectorReads i)).sum > 4
  let own (slot : Nat) : Nat := match decoded.find? (fun y => y.1 == slot) with
    | some (_, .error c) =>
      let opc := ((b.syls.find? (fun y => y.1 == slot)).map (fun y => y.2.1 / 2 ^ 24)).getD 0
      if (svc && (slot == 4 || slot == 5)) || (mgmt && (slot == 2 || slot == 3) && 0xD0 ≤ opc && opc ≤ 0xD3) then 1 else c
    | some (_, .ok i) => (lowestCause (placeLimits mgmt svc safe cb g adr b slot i)).getD 0
    | none => 0
  let causes := [0, 1, 2, 3, 4, 5, 6, 7].map (fun slot =>
    (slot, minCause (own slot) (minCause (if twice slot then 8 else 0)
      (if crowded && 2 ≤ slot && slot ≤ 4 then 9 else 0))))
  let bc := bundleCause g adr b named
  if bc != 0 || causes.any (fun c => c.2 != 0) then .error (ilbWord bc causes) else .ok b.operations

end Sys2Proof.Machine
end

