-- ==== Sys2Proof/Machine/Sched.lean ====
section
/-! DEFINITION. Continuation records, ready queues, groups and graph nodes (spec/16): the operations that instructions,
traps and events share. -/

namespace Sys2Proof.Machine

/-- The nth 64-bit word of a record. -/
def wordAt (bs : List Byte) (i : Nat) : Word := bytesToWord ((bs.drop (8 * i)).take 8)

/-! Records (R253, R254). -/

def recStatus (w0 : Word) : Nat := wbits w0 57 7
def recResume (w0 : Word) : Nat := wbits w0 0 48
def recPrio (w0 : Word) : Nat := wbits w0 48 3
def recAff (w0 : Word) : Bool := wbit w0 51
def recGroup (w1 : Word) : Nat := wbits w1 0 16
def recCore (w1 : Word) : Nat := wbits w1 19 5 * 8 + wbits w1 16 3

/-- Malformed records (R253). -/
def recMalformed (s : State) (part : Nat) (w0 w1 : Word) : Bool :=
  wbits w0 52 5 != 0 || wbits w1 62 2 != 0 || wbits w1 24 8 != 0
    || wbits w0 0 2 != 0 || (recStatus w0 == 0 && wbits w0 0 4 != 0)
    || (recAff w0 && !s.partHas part (wbits w1 19 5)) || recStatus w0 > 7

/-- Writes the STATUS of a record, where the record can be written: its word 0 where that can be read, otherwise the byte that holds
STATUS. -/
def writeStatus (s : State) (x a st : Nat) : State :=
  match s.vreadWord x a .core with
  | .error _ => (match s.vwrite x (a + 7) [BitVec.ofNat 8 (2 * st)] .core with | .ok t => t | .error _ => s.refusal x (a + 7) 1 .core true)
  | .ok w => s.vwriteTry x a (wput w 57 7 st) .core
/-! Arrival logs (R343): the offset of the next entry in bytes, per context. -/

/-- Appends an entry; a full log refuses KIND 1 and 2 (false), answers are never refused. -/
def appendLog (s : State) (w0 w1 : Word) (e : Arrival) : Bool × State :=
  let x := e.ctx
  let base := wbits (s.ctxd x 0x28) 4 53 * 16
  let cap := wbits (s.ctxd x 0x30) 0 32
  let off := mget 0 s.alogs x
  let pad := (e.data.length + 15) / 16 * 16
  if off + 16 + pad > cap && e.kind ≤ 2 then
    (false, { s with ctxFaults := s.ctxFaults ++ [(x, 4)] })
  else
    let bytes := natToBytes 8 w0.toNat ++ natToBytes 8 w1.toNat ++ e.data ++ List.replicate (pad - e.data.length) 0
    let s1 := (chunks 16 (1 + pad / 16) bytes).zipIdx.foldl (fun (t : State) (bs, i) =>
      match t.vwrite x (base + off + 16 * i) bs .core with | .ok t' => t' | .error _ => t.refusal x (base + off + 16 * i) 16 .core true) s
    (true, { s1 with alogs := mput s1.alogs x (off + 16 + pad), arrivals := s1.arrivals ++ [e] })
/-- Takes entries out of the log; one that has none left starts again at its base. -/
def dropArrivals (s : State) (x : Nat) (keep : List Arrival) : State :=
  { s with arrivals := keep, alogs := if keep.any (fun e => e.ctx == x) then s.alogs else merase s.alogs x }

/-- What the machine keeps about a saved record is of no use any more: no gwait of the run waits on, no answer in the log is for it, and
what it has sent toward a group's barrier is dropped (R270, R271). -/
def State.forget (s0 : State) (x a : Nat) : State :=
  let other (e : Nat × Nat × Nat) : Bool := !(e.1 == x && e.2.1 == a)
  let answer (e : Arrival) : Bool := 3 ≤ e.kind && e.ctx == x && e.tgt == a
  let s := if s0.arrivals.any answer then dropArrivals s0 x (s0.arrivals.filter (fun e => !answer e)) else s0
  { s with savedAt := s.savedAt.filter other, nodeOwner := s.nodeOwner.filter other
           groups := s.groups.map (fun (k, g) => (k, { g with waiters := g.waiters.filter other }))
           fabric := s.fabric.filter (fun r => !((r.op == .gbar || r.op == .gwait) && r.ctx == x && r.pa == a)) }

/-! Answers to a waiting EN slot (R269, R270). -/

/-- The core that runs a continuation, if any. -/
def State.coreRunning (s : State) (x a : Nat) : Option Nat :=
  (s.cores.find? (fun (_, k) => match k.running with | some r => r.ctx == x && r.recA == a | none => false)).map (·.1)

/-- A reply for slot EN: to the frozen program's slot when that is the one that waits (R332). -/
def Core.replyGroup (k : Core) (r : Reply) : Core :=
  match k.frozen with
  | some f =>
    if ((f.slots.getD 6 {}).waiting).isSome then
      { k with frozen := some { f with slots := listSet f.slots 6 { f.slots.getD 6 {} with reply := some r } } }
    else k.modSlot 6 (fun sl => { sl with reply := some r })
  | none => k.modSlot 6 (fun sl => { sl with reply := some r })

/-- Answers a gbar (kind 3) or gwait (kind 4) of a continuation: on its core, or into its context's arrival log. The
barrier answer of a running member swaps its window; one with an error, to a continuation that is no member, swaps nothing. status 2
is "bulkhead down". -/
def answerGroup (s : State) (x a kind abn status : Nat) : State :=
  match s.coreRunning x a with
  | some c => s.modCore c (fun k =>
      (if kind == 3 && status == 0 && abn == 0 then k.swapWindow else k).replyGroup { id := 0, value := BitVec.ofNat 64 abn, status := status })
  | none =>
    let home := match s.vreadWord x (a + 8) .core with | .ok w => recCore w | .error _ => 0
    (appendLog s (BitVec.ofNat 64 (kind * 2 ^ 60 + a % 2 ^ 48)) (BitVec.ofNat 64 (abn * 2 ^ 32))
      { ctx := x, kind := kind, core := home, tgt := a, abn := abn }).2

/-! Groups (R267 to R271). A group's key is its partition and its identifier. -/

def groupKey (part g : Nat) : Nat := part * 65536 + g
/-- The physical bulkhead that holds a group's record. -/
def State.groupHome (s : State) (part g : Nat) : Nat := s.physBulk part (g % max 1 (s.partCount part))

/-- A join (R268); one that finds its home down has no effect (R311). -/
def joinGroup (s : State) (x part g a : Nat) (notify : Nat) : State :=
  if g == 0 || !s.bulkUp (s.groupHome part g) then s
  else
    let k := groupKey part g
    let r := (s.group k).getD { ctx := x }
    s.setGroup k { r with mem := r.mem + 1, members := r.members ++ [(x, a)], notify := if notify != 0 then notify else r.notify, notifyCtx := if notify != 0 then x else r.notifyCtx }

/-- Completes the barrier when every member has arrived (R269). -/
def testBarrier (s : State) (k : Nat) : State :=
  match s.group k with
  | none => s
  | some r =>
    if r.arr == r.mem && r.arr != 0 then
      let s1 := s.setGroup k { r with arr := 0, arrived := [] }
      r.arrived.foldl (fun t (x, a, _) => answerGroup t x a 3 0 0) s1
    else s

/-- Answers every gwait of a group whose membership is 0 (R270), and dissolves its record (R267). -/
def answerWaiters (s : State) (k : Nat) : State :=
  match s.group k with
  | none => s
  | some r =>
    if r.mem == 0 then (r.waiters.foldl (fun t (x, a, _) => answerGroup t x a 4 r.abn 0) s).dropGroup k else s

/-! Ready queues (R265). -/

/-- Whether a record already waits in a ready queue. -/
def State.waits (s : State) (x a : Nat) : Bool := s.ready.any (fun (_, q) => q.any (fun e => e.ctx == x && e.recA == a))
/-- Puts a record at the tail of a level. -/
def enterReady (s : State) (b : Nat) (e : Ready) : State := s.setReady b (s.readyOf b ++ [e])

/-- The replay that a node belongs to, as its place in the list (R263). -/
def State.replayOf (s : State) (x node : Nat) : Option Nat :=
  s.replays.findIdx? (fun r => r.started && r.ctx == x && r.nodes.contains node)

/-- Presents a record to the scheduler of bulkhead b (R254, R265, R268): allowed are the codes of its path. The result
is 0, or a cause of R294: 1 translation, 2 permission, 3 alignment, 4 malformed; 5 when it runs or waits already. -/
def presentRecord (s0 : State) (x b a : Nat) (allowed : List Nat) (node : Nat) (param : Word) : Nat × State :=
  let s := if a % 64 == 0 then s0.reading x a 64 .core b else s0
  let part := s.ctxPart x
  if a % 64 != 0 then (3, s)
  else match s.vread x a 64 .core none (some b), s.translate x a .core true with
    | .error 1, _ => (2, s)
    | .error _, _ => (1, s)
    | _, .error (1, _) => (2, s)
    | _, .error _ => (1, s)
    | .ok bs, .ok _ =>
      let w0 := wordAt bs 0
      let w1 := wordAt bs 1
      if recStatus w0 == 3 || s.waits x a then (5, s)
      else if recMalformed s part w0 w1 || !allowed.contains (recStatus w0) then (4, writeStatus s x a 6)
      else
        let s1 := if recStatus w0 == 0 then joinGroup s x part (recGroup w1) a 0 else s
        let e : Ready := { recA := a, ctx := x, part := part, level := recPrio w0,
                           aff := if recAff w0 then some (recCore w1) else none, entered := s.time, node := node, param := param }
        (0, enterReady s1 (if recAff w0 then recCore w1 / 8 else b) e)

/-! Engine contexts: their keys, and acceptance of a command (R276). -/

/-- The key of an engine context: ENG 0 to 2 of a physical bulkhead, or the bank unit of a channel. -/
def engKey (eng bulk chan ctx : Nat) : Nat := if eng == 3 then 0x100000 + chan * 4 + ctx % 4 else (bulk * 4 + eng) * 64 + ctx
def engBulk (key : Nat) : Nat := if key ≥ 0x100000 then (key - 0x100000) / 32 else key / 256
def engKind (key : Nat) : Nat := if key ≥ 0x100000 then 3 else key / 64 % 4

/-- The restart slot of a command of a context named by TLRSTn (R345). -/
def restartSlot (s : State) (x e num : Nat) : Option Nat :=
  ((List.range 16).find? (fun i =>
    let t := s.ctxd x (0x40 + 8 * i)
    wbit t 63 && engKey (wbits t 20 4) (s.physBulk (s.ctxPart x) (wbits t 24 5)) (wbits t 12 8) (wbits t 0 6) == e)).map
    (fun i => wbits (s.ctxd x (0xC0 + 8 * i)) 12 45 * 4096 + 64 * (num % 64))

/-- The engine accepts a command: it is numbered in order, and VALID of its restart slot is cleared (R276, R345). -/
def acceptCommand (s : State) (e : Nat) (c : Command) : State :=
  let q := s.eng e
  let num := (match q.queue.getLast? with | some l => l.num | none => q.count.toNat) + 1
  let s1 := s.setEng e { q with queue := q.queue ++ [{ c with num := num }] }
  let s2 := match restartSlot s1 c.ctx e num with
    | some a => (match s1.vreadWord c.ctx a .copy with
      | .ok w => s1.vwriteTry c.ctx a (wput w 63 1 0) .copy
      | .error _ => s1)
    | none => s1
  s2.pend .engineCommandStart { unit := e, idx := num }

/-! What the engines' commands share with the nodes that launch them. -/

/-- An address operand (R281): whether it is local, and the address. -/
def operand (v : Word) : Option (Bool × Nat) :=
  if wbit v 63 then (if wbits v 20 43 == 0 then some (true, wbits v 0 20) else none)
  else if wbits v 57 6 == 0 then some (false, v.toNat) else none
/-- The image that a core of a partition was saved to, if one is (R275). -/
def State.imageOf (s : State) (part c : Nat) : Option Core :=
  match (s.bulk (bulkOf c)).images.find? (fun y => y.1 == part) with
  | some (_, ks) => (ks.find? (fun y => y.1 == c)).map (·.2)
  | none => none
def State.localCore (s : State) (part c : Nat) : Core := (s.imageOf part c).getD (s.core c)
/-- The format of a BANKF value and its rounding (R194). -/
def bankFmt (v : Word) : Fmt × Rnd :=
  ([Fmt.f32, .bf16, .f16, .e4m3, .e5m2, .mk8, .i8, .i16, .i32, .i4].getD (wbits v 0 4) .f32, [Rnd.rne, .rtz, .rdn, .rup].getD (wbits v 4 2) .rne)
/-- The BANKF registers of a core. -/
def Core.bankfs (k : Core) : List Word := (List.range 32).map (fun n => k.sysReg (0x60 + n))
/-- The formats of a copy that converts, by the BANKF registers in force (R283). -/
def copyFormats (banks : List Word) (a b : Word) : Option (Fmt × Fmt × Rnd) :=
  match operand a, operand b with
  | some (true, d), some (true, o) =>
    let (df, rnd) := bankFmt (banks.getD (bankOf d) 0)
    let (sf, _) := bankFmt (banks.getD (bankOf o) 0)
    if sf == df then none else some (sf, df, rnd)
  | _, _ => none

/-! Graph nodes (R260 to R262). -/

/-- Sets ERR in a node. -/
def nodeError (s : State) (x node : Nat) : State :=
  match s.vreadWord x node .core with
  | .ok w => s.vwriteTry x node (wput w 63 1 1) .core
  | .error _ => s

/-- Counts a node as launched in a replay. -/
def replayLaunch (s : State) (r : Option Nat) (node : Nat) : State :=
  match r with
  | some i => { s with replays := s.replays.modify i (fun y => { y with nodes := y.nodes ++ [node] }) }
  | none => s

/-- Launches a node (R261): a task's record goes to the ready queue, a command to its engine. The result is the cause
for SCHERR, 0 for none. src is the node whose completion or task made the decrement. A command's local operands name core 0 of the
launching bulkhead, and the formats of its banks now are those it converts by (DESIGN CHOICE, log entry 15). A record without affinity goes
to the scheduler of bulkhead b, that of the core or engine whose decrement this is, or of the group's home: the spec names only that of a
spawner and of a launch queue (DESIGN CHOICE, log entry 123). -/
def launchNode (s : State) (x b node : Nat) (r : Option Nat) (param : Word) : Nat × State :=
  match s.vreadWord x node .core, s.vreadWord x (node + 8) .core with
  | .ok w0, .ok w1 =>
    let kind := wbits w1 57 3
    let payload := wbits w1 0 57
    if kind ≥ 2 || wbits w0 40 22 != 0 || wbits w1 60 4 != 0 then
      (4, (nodeError s x node).report 2 b x node)
    else if kind == 0 then
      match presentRecord s x b payload [0, 1, 2] node param with
      | (0, s1) => (0, replayLaunch s1 r node)
      | (_, s1) => (0, nodeError s1 x node)
    else
      -- the payload has the layout of R287; the command goes to tl0 of the context (DESIGN CHOICE, log entry 15); a bad record is error 6
      match s.vread x payload 64 .copy none (some b) with
      | .error _ => (0, nodeError (s.reading x payload 64 .copy b) x node)
      | .ok bs =>
        let s := s.reading x payload 64 .copy b
        let banks := (s.localCore (s.ctxPart x) (8 * b)).bankfs
        let t := s.ctxd x 0x40
        let v0 := wordAt bs 0
        let bad := wbits v0 11 52 != 0 || wbits (wordAt bs 3) 32 32 != 0 || (bs.drop 32).any (· != 0)
          || !([1, 2, 3, 4, 5, 6, 0x40, 0x41, 0x62, 0xA0] : List Nat).contains (wbits v0 0 8)
        if wbit t 63 then
          let e := engKey (wbits t 20 4) (s.physBulk (s.ctxPart x) (wbits t 24 5)) (wbits t 12 8) (wbits t 0 6)
          (0, acceptCommand (replayLaunch s r node) e
            { num := 0, opc := if bad then 0 else wbits v0 0 8, err := if bad then 6 else 0, k := wbits v0 8 3, a := wordAt bs 1, b := wordAt bs 2,
              ext := some (BitVec.ofNat 32 (wbits (wordAt bs 3) 0 32)), core := b * 8, ctx := x, part := s.ctxPart x, node := node, bankf := banks
              conv := if wbits v0 0 8 == 1 then copyFormats banks (wordAt bs 1) (wordAt bs 2) else none })
        else (0, nodeError s x node)
  | _, _ => (1, s.refusal x node 16 .core false)

/-- A decrement at the node's home (R261). The result is the cause for SCHERR: 1 translation, 2 permission,
3 alignment, 4 malformed, 0 none; a refusal by the sluice is reported (R309). -/
def decrementNode (s : State) (x b node : Nat) (src : Nat) (param : Word) : Nat × State :=
  if node % 16 != 0 then (3, s)
  else match s.vreadWord x node .core, s.translate x node .core true with
    | .error 1, _ => (2, s)
    | .error _, _ => (1, s.refusal x node 8 .core false)
    | _, .error (1, _) => (2, s)
    | _, .error _ => (1, s)
    | .ok w, .ok _ =>
      let count := wbits w 0 32
      if count == 0 then (0, s.vwriteTry x node (wput w 62 1 1) .core)
      else
        let s1 := s.vwriteTry x node (wput w 0 32 (count - 1)) .core
        if count == 1 then
          let r := s.replayOf x src
          let base := match r with | some i => (match s.replays[i]? with | some y => y.base | none => param) | none => param
          launchNode s1 x b node r base
        else (0, s1)

/-- tarm (R262): COUNT := n, UNDER and ERR cleared. -/
def armNode (s : State) (x node : Nat) (n : W32) : Nat × State :=
  if node % 16 != 0 then (3, s)
  else match s.vreadWord x node .core, s.translate x node .core true with
    | .error 1, _ => (2, s)
    | .error _, _ => (1, s.refusal x node 8 .core false)
    | _, .error (1, _) => (2, s)
    | _, .error _ => (1, s)
    | .ok w, .ok _ => (0, s.vwriteTry x node (wput (wput w 62 2 0) 0 32 n.toNat) .core)

/-- The completion of a node (R261): each successor is decremented in list order; in a replay the node is done. -/
def completeNode (s0 : State) (x b node : Nat) (param : Word) : State :=
  let s := s0.reading x node 8 .core b
  match s.vreadWord x node .core (some b) with
  | .error _ => s
  | .ok w =>
    let r := s.replayOf x node
    let s1 := (List.range (wbits w 32 8)).foldl (fun (t : State) i =>
      match (t.vreadWord x (node + 16 + 8 * i) .core (some b), t.reading x (node + 16 + 8 * i) 8 .core b) with
      | (.ok a, t) => (decrementNode t x b (wbits a 0 57) node param).2
      | (.error _, t) => t.report 3 b x node) s
    match r with
    | none => s1
    | some i =>
      let s2 := { s1 with replays := s1.replays.modify i (fun y => { y with nodes := y.nodes.erase node }) }
      match s2.replays[i]? with
      | some y => if y.nodes.isEmpty then s2.pendOnce .graphReplayComplete { unit := i } else s2
      | none => s2

/-- A leave (R268, R271): MEM falls by one, an abnormal leave counts in ABN and takes an arrival with it; then the
barrier is tested, and at membership 0 the waiters are answered and the record dissolves, then NOTIFY's node is decremented once
(R267, R270). One that finds its home down has no effect (R311). -/
def leaveGroup (s : State) (x part g a : Nat) (abnormal : Bool) : State :=
  let k := groupKey part g
  match s.group k with
  | none => s
  | some r =>
    if !r.members.contains (x, a) || !s.bulkUp (s.groupHome part g) then s
    else
      let had := abnormal && r.arrived.any (fun (y, q, _) => y == x && q == a)
      let r1 := { r with mem := r.mem - 1, abn := if abnormal then r.abn + 1 else r.abn, members := r.members.erase (x, a),
                         arr := if had then r.arr - 1 else r.arr,
                         arrived := if had then r.arrived.filter (fun (y, q, _) => !(y == x && q == a)) else r.arrived }
      let s1 := testBarrier (s.setGroup k r1) k
      if r1.mem == 0 then
        let s2 := answerWaiters s1 k
        if r1.notify != 0 then (decrementNode s2 r1.notifyCtx (s.groupHome part g) r1.notify 0 0).2 else s2
      else s1
/-- The abnormal leave of a record that is discarded (R271): of the group that counts it, whether or not the record can be read. -/
def leaveAll (s : State) (x part a : Nat) : State :=
  match s.groups.find? (fun (key, r) => key / 65536 == part && r.members.contains (x, a)) with
  | some (key, _) => leaveGroup s x part (key % 65536) a true
  | none => s

/-- Records a failure in SCHERR of a core if it is empty (R294): op 0 tspawn, 1 tdec, 2 tarm, 3 tlsig. -/
def noteSchErr (s : State) (c op cause adr : Nat) : State :=
  if cause == 0 || cause > 4 then s
  else s.modCore c (fun k =>
    if wbit (k.sysReg 7) 63 then k
    else k.setSys 7 (BitVec.ofNat 64 (2 ^ 63 + op * 2 ^ 60 + cause * 2 ^ 57 + adr % 2 ^ 57)))

/-- A command that has left its queue has retired (R276, R292): COUNT is its number, an error is recorded if it is the first, the node
that it completes or signals is decremented. -/
def retired (s : State) (e : Nat) (c : Command) (err : Nat) : State :=
  let q := s.eng e
  let first := err != 0 && q.errn == 0
  let s1 := s.setEng e { q with count := BitVec.ofNat 64 c.num, errn := if first then c.num else q.errn, errc := if first then err else q.errc }
  if c.opc == 0x62 && c.a != 0 then
    let (cause, t) := decrementNode s1 c.ctx (engBulk e) c.a.toNat 0 0
    if (t.core c.core).running.isSome && (t.core c.core).ctxOf == c.ctx then noteSchErr t c.core 3 cause c.a.toNat else t
  else if c.node != 0 then completeNode s1 c.ctx (engBulk e) c.node 0 else s1

/-- The state of an idle core after it gives up its continuation (R15): slots idle, no loop active, no mark. Its handles stay as
they are until it picks up the next one. -/
def Core.giveUp (k : Core) : Core :=
  { k with
    running := none, active := false
    loops := k.loops.map (fun l => { l with active := false })
    slots := k.slots.map (fun sl => { sl with op := none, a0 := 0, k := 0, waiting := none, reply := none, next := k.nextIdx })
    flights := [], issues := [], brWait := none, seg := none, other := none, expandLeft := 0, refill := 0, refillTo := none, dispAt := none
    drain := .none, mark := {}, frozen := none, rptK := 0, fills := []
    sys := mset 0 k.sys 3 (k.sysReg 3 &&& 0x7FFFFFFFFFFFFFFF#64) }

/-- No resumption from the debug freeze waits for a core any more (R348). -/
def State.dropDebug (s : State) (c : Nat) : State :=
  { s with pending := s.pending.filter (fun p => !(p.event == .debugFreezeResume && p.args.unit == c)) }

/-- A continuation is ended (R337): late writes and gated stores discarded, STATUS 5, an abnormal leave, ERR in the
launching node, no successor decremented. The core is then idle. -/
def endContinuation (s : State) (c : Nat) : State :=
  let k := s.core c
  match k.running with
  | none => s.setCore c { k.giveUp with halted := isMgmt c || k.halted }
  | some r =>
    let s1 := ((s.dropDebug c).setCore c k.giveUp).forget r.ctx r.recA
    let s2 := writeStatus s1 r.ctx r.recA 5
    let s3 := if r.group != 0 then leaveGroup s2 r.ctx r.part r.group r.recA true else s2
    let s4 := if r.node != 0 then nodeError s3 r.ctx r.node else s3
    s4.modCore c (fun k => { k with running := none })

end Sys2Proof.Machine
end

