-- ==== Sys2Proof/Machine/Hub.lean ====
section
/-! DEFINITION. The management space and the hub space (spec/22 R354 to R360, spec/23 R363 to R374, R385): their
registers, the sequencer of a bulkhead, the partition table, resets, keys and life cycle. -/

namespace Sys2Proof.Machine

/-! Bulkheads: what their bits read as. -/

def coresOf (b : Nat) : List Nat := (List.range 8).map (fun i => 8 * b + i)
/-- IDLE of BH_STAT: bit c set when core c holds no continuation. -/
def idleMask (s : State) (b : Nat) : Nat :=
  ((List.range 8).map (fun i => if (s.core (8 * b + i)).running.isNone then 2 ^ i else 0)).sum
def haltedMask (s : State) (b : Nat) : Nat :=
  ((List.range 8).map (fun i => if (s.core (8 * b + i)).halted then 2 ^ i else 0)).sum
/-- EQ of BH_STAT: no engine context of the bulkhead has an unretired command. -/
def enginesEmpty (s : State) (b : Nat) : Bool := s.engines.all (fun (e, q) => engBulk e != b || q.queue.isEmpty)

/-- Sets VF_ERR bit i of every function bound to a partition; bits 0 and 1 raise vectors 0 and 1 (R376, R379). -/
def vfError (s : State) (part i : Nat) : State :=
  { s with
    vfs := s.vfs.map (fun (f, v) => if v.bound && v.part == part then (f, { v with err := Nat.lor v.err (2 ^ i) }) else (f, v))
    msix := if i < 2 && s.vfs.any (fun (_, v) => v.bound && v.part == part) then s.msix ++ [(part, i)] else s.msix }

/-- Sets a bit of the management core's IRQ (R341). -/
def mgmtIrq (s : State) (bit : Nat) : State := s.modCore mgmtCore (fun k => k.setIrq bit)

/-- Asks a core that runs a continuation to pre-empt (R272, R341). -/
def requestPreempt (s : State) (c : Nat) : State :=
  if (s.core c).running.isSome && !isMgmt c then
    s.modCore c (fun k => { k.setIrq 0 with preAge := if wbit (k.sysReg 9) 0 then k.preAge else s.time + 1 })
  else s

/-- Drops every line homed in a bulkhead (R299, R357): dirty ones are written back, which is charged to their owners (R308), pinned
pages are pinned no more, and their replicas and redirect entries go, with those that the bulkhead holds for other homes. -/
def dropLines (s : State) (b : Nat) : State :=
  let gone := s.lines.filter (fun (_, l) => l.home / 8 == b)
  let t := gone.foldl (fun (t : State) (_, l) => t.chargeLine l) s
  { t with
    lines := t.lines.filterMap (fun (n, l) =>
      let l' : Line := { l with replicas := l.replicas.filter (· != b) }
      if l.home / 8 == b || l' = {} then none else some (n, l'))
    redirects := t.redirects.filter (fun (i, n, h) => i != b && h != b && !gone.any (fun g => g.1 == n))
    pins := t.pins.filter (fun (_, _, f, n) => !gone.any (fun (a, l) => l.pinned && f ≤ 256 * a && 256 * a < f + n)) }

/-- The port of the home's switch that serves an operation (R295): the scheduler, the sync engine or the slices. -/
def ReqOp.port : ReqOp → Nat
  | .spawn => 10
  | .read | .store | .wbinv | .fetch => 8
  | _ => 9
/-- Requests that are not for a home of memory. -/
def ReqOp.isTask : ReqOp → Bool
  | .gjoin _ _ | .gleave | .gbar | .gwait | .spawn | .tdec | .tarm _ => true
  | _ => false
/-- Whether a request crosses the hub link: to the host or to a peer module (R295, R296). -/
def Req.toHub (r : Req) : Bool :=
  !r.own && !r.op.isTask && (match regionOf r.pa with | .host | .peer => true | .hbm | .granary | .aperture | .reserved => false)
/-- The reply leaves the home for its core, and is charged to the requester's context (R308). -/
def State.replyTo (s : State) (r : Req) (value : Word) (status : Nat) (data : List Byte := []) : State :=
  let y : Reply := { id := r.id, value := value, status := status, data := data, home := if r.toHub then 33 else r.home, back := r.op.port == 9 }
  let s1 : State := { s with replies := s.replies ++ [(r.core, y, r.slot)] }
  ((if r.mgmt then s1 else s1.charge r.ctx (bulkOf r.core) (beatsOf r.size)).pend .replyArrival { unit := r.id })

/-- INFL of SLUICE_STAT (R355): the requests that the sluice has admitted and that are not applied, tktwaits parked at the sync engine,
gbars and gwaits that wait there among them (R357). -/
def inflight (s : State) (b : Nat) : Nat :=
  (s.fabric.filter (fun r => r.home == b && !r.toHub && r.answered.isNone && (r.admitted || r.parked))).length
    + ((s.groups.filter (fun (key, _) => s.groupHome (key / 65536) (key % 65536) == b)).map (fun (_, g) => g.arrived.length + g.waiters.length)).sum

/-- An engine write to a peer module has not been acknowledged, or its acknowledgement brings poison (R382): the command's first failure
counts (R282). -/
def State.failWrite (s : State) (e num err : Nat) : State :=
  let q := s.eng e
  let fail (m : Command) : Command := { m with done := some (match m.done with
    | some 0 => err | some d => d | none => if m.err != 0 then m.err else err) }
  (s.setEng e { q with queue := q.queue.map (fun m => if m.num == num then fail m else m) }).pendOnce .commandRetire { unit := e }

/-- Answers a request whose home is down, or refuses it (R309, R311): a waiting slot gets the status, a buffer element
too; a posted store or task request is dropped and noted, and the core's next release or fence traps; wbinv and pfl2 are dropped. A
write of an engine command fails with error 1, or 5 where the bulkhead is down (R282, R311). -/
def failRequest (s : State) (r : Req) (status : Nat) : State :=
  let s1 := { s with fabric := s.fabric.filter (fun q => q.id != r.id) }
  if !r.members.isEmpty then
    r.members.foldl (fun (t : State) m => t.replyTo { r with id := m.id, core := m.core, slot := m.slot, size := 0 } 0 status) s1
  else if r.wantReply || r.elem.isSome then s1.replyTo { r with size := 0 } 0 status
  else match r.op, r.cmd with
    | .wbinv, _ | .fetch, _ => s1
    | _, some (e, num) => s1.failWrite e num (if status == stDown then 5 else 1)
    | _, none =>
      let s2 := { s1 with ctxFaults := s1.ctxFaults ++ [(r.ctx, status)] }
      if status == stDown then s2.modCore r.core (fun k => { k with downNote := true }) else s2

/-- The record of a collective command as it stands, for what the closing of a bulkhead fails: in the scratchpad of its core, or in
memory. -/
def State.unsentRecord (s : State) (c : Command) : Option (List Byte) :=
  match operand c.a with
  | some (true, o) => some ((s.localCore c.part c.core).scratch.read o 64)
  | some (false, a) => (match s.translate c.ctx a .copy false with | .ok (pa, _) => some (s.mem.read pa 64) | .error _ => none)
  | none => none
/-- A collective instance with a share at, or held by, a bulkhead that goes down: its members complete with error 5, and
so does a later one (R288, R311). A member's share that its core has not sent yet counts by its record. -/
def failCollectives (s : State) (b : Nat) : State :=
  let home (c : Contribution) : Nat := s.physBulk c.part (c.group % max 1 (s.partCount c.part))
  let unsent : List Contribution := s.engines.flatMap (fun (e, q) => if engBulk e != b then [] else q.queue.filterMap (fun c =>
    if (c.opc == 0x40 || c.opc == 0x41) && !c.started && c.done.isNone then
      (match s.unsentRecord c with
       | some bs => some ({ part := c.part, group := wbits (wordAt bs 0) 0 16, key := wordAt bs 4, eng := e, num := 0,
                            opc := c.opc, head := wordAt bs 0, len := wbits (wordAt bs 3) 0 32, dst := 0, core := c.core,
                            ctx := c.ctx, data := [], err := 5 } : Contribution)
       | none => none)
    else none))
  let dead := s.contribs.filter (fun c => engBulk c.eng == b || home c == b) ++ unsent
  let hit (c : Contribution) : Bool := dead.any (fun d => d.part == c.part && d.group == c.group && d.key == c.key)
  let s1 := (s.contribs.filter (fun c => hit c && c.num != 0)).foldl (fun (t : State) c =>
    let q := t.eng c.eng
    (t.setEng c.eng { q with queue := q.queue.map (fun m => if m.num == c.num then { m with done := some 5 } else m) }).pendOnce
      .commandRetire { unit := c.eng }) s
  { s1 with contribs := s1.contribs.map (fun c => if hit c then { c with num := 0, err := 5 } else c) ++ unsent }

/-- Completes with "bulkhead down" every request that a bulkhead has admitted and not applied, every gbar and gwait
parked at its sync engine, and every collective it takes part in (R311, R357). -/
def failAdmitted (s0 : State) (b : Nat) : State :=
  let s := failCollectives s0 b
  let s1 := (s.fabric.filter (fun r => r.home == b && !r.toHub && r.answered.isNone)).foldl (fun t r => failRequest t r stDown) s
  s1.groups.foldl (fun (t : State) (key, _) =>
    match t.group key with
    | none => t
    | some g =>
      if t.groupHome (key / 65536) (key % 65536) == b then
        let t1 := g.arrived.foldl (fun u (x, a, _) => answerGroup u x a 3 1 stDown) t
        let t2 := g.waiters.foldl (fun u (x, a, _) => answerGroup u x a 4 0xFFFFFFFF stDown) t1
        t2.setGroup key { g with arr := 0, arrived := [], waiters := [] }
      else t) s1

/-! The sequencer (R356 to R360). Each operation states its own condition; seqErr is what a refused write does. -/

def seqErr (s : State) (b : Nat) : State := s.modBulk b (fun x => { x with seqerr := true })

/-- SCHED 1 to 0 in STATE 0. -/
def schedStop (s : State) (b : Nat) : State :=
  if (s.bulk b).state == 0 then s.modBulk b (fun x => { x with sched := false, state := 1 }) else seqErr s b
/-- PRE 0 to 1 in STATE 1. -/
def bulkPreempt (s : State) (b : Nat) : State :=
  if (s.bulk b).state == 1 then
    ((coresOf b).foldl requestPreempt (s.modBulk b (fun x => { x with pre := true }))).pendOnce .quiesceComplete { unit := b }
  else seqErr s b
/-- SCHED 1, PRE 0 in STATE 1 or 2. -/
def quiesceAbandon (s : State) (b : Nat) : State :=
  if (s.bulk b).state == 1 || (s.bulk b).state == 2 then
    (s.modBulk b (fun x => { x with sched := true, pre := false, state := 0 })).unpend .quiesceComplete { unit := b }
  else seqErr s b
/-- SCHED 1, PRE 0 in STATE 11. -/
def schedResume (s : State) (b : Nat) : State :=
  if (s.bulk b).state == 11 then s.modBulk b (fun x => { x with sched := true, pre := false, state := 0 }) else seqErr s b
/-- Whether the quiesce of STATE 1 is complete. -/
def quiesced (s : State) (b : Nat) : Bool :=
  (s.bulk b).state == 1 && (s.bulk b).pre && idleMask s b == 0xFF && enginesEmpty s b
/-- CLOSE 0 to 1 in STATE 2 (R357). -/
def closeSluice (s : State) (b : Nat) : State :=
  if (s.bulk b).state == 2 then
    (failAdmitted (dropLines (s.modBulk b (fun x => { x with close := true })) b) b).pendOnce .sluiceCloseComplete { unit := b }
  else seqErr s b
/-- CLOSE 1 to 0 in STATE 10. -/
def openSluice (s : State) (b : Nat) : State :=
  if (s.bulk b).state == 10 then (s.modBulk b (fun x => { x with close := false })).pendOnce .sluiceOpenComplete { unit := b }
  else seqErr s b
/-- What a bulkhead saves (R358). -/
def retainedOf (s : State) (b : Nat) : Retained :=
  { groups := s.groups.filter (fun (key, _) => s.groupHome (key / 65536) (key % 65536) == b)
    ready := s.readyOf b
    queues := s.queues.filter (fun (_, q) => q.bulk == b)
    engines := s.engines.filter (fun (e, _) => engBulk e == b)
    buctl := s.buctl.filter (fun (n, _) => n / 8 == b)
    pwrlim := (coresOf b).map (fun c => (c, (s.core c).sysReg 0x12)) }
/-- SAVE 0 to 1 in STATE 3. -/
def saveRetention (s : State) (b : Nat) : State :=
  if (s.bulk b).state == 3 then
    (s.modBulk b (fun x => { x with save := true, busy := true, retained := retainedOf s b })).pendOnce .retentionSaveComplete { unit := b }
  else seqErr s b
/-- RESTORE 0 to 1 in STATE 9: the saved state, or reset values if none is valid (R368). -/
def restoreRetention (s : State) (b : Nat) : State :=
  if (s.bulk b).state == 9 then
    let x := s.bulk b
    let r : Retained := if x.valid then x.retained else {}
    let groups := s.groups.filter (fun (key, _) => s.groupHome (key / 65536) (key % 65536) != b)
    let engines := s.engines.map (fun (e, q) => if engBulk e == b then (e, ({ granted := q.granted, ctx := q.ctx } : EngCtx)) else (e, q))
    let s1 : State := { s with
      groups := r.groups.foldl (fun m (k, v) => mput m k v) groups
      ready := mput s.ready b r.ready
      queues := r.queues.foldl (fun m (k, v) => mput m k { v with n := (mget v m k).n, pi := (mget v m k).pi }) s.queues
      engines := r.engines.foldl (fun m (k, v) => mput m k v) engines
      buctl := r.buctl.foldl (fun m (k, v) => mput m k v) (s.buctl.filter (fun (n, _) => n / 8 != b)) }
    let s2 := (coresOf b).foldl (fun t c => t.modCore c (fun k => k.setSys 0x12 (mget 0x1800 r.pwrlim c))) s1
    (s2.modBulk b (fun x => { x with restore := true, busy := true, valid := false, retained := {} })).pendOnce
      .retentionRestoreComplete { unit := b }
  else seqErr s b
/-- GATE 0 to 1 in STATE 4, 1 to 0 in STATE 7. -/
def gateClock (s : State) (b : Nat) : State :=
  if (s.bulk b).state == 4 then (s.modBulk b (fun x => { x with gate := true })).pendOnce .clockStopped { unit := b } else seqErr s b
def ungateClock (s : State) (b : Nat) : State :=
  if (s.bulk b).state == 7 then (s.modBulk b (fun x => { x with gate := false })).pendOnce .pllLock { unit := b } else seqErr s b
/-- OFF 0 to 1 in STATE 5, 1 to 0 in STATE 6. -/
def dropRail (s : State) (b : Nat) : State :=
  if (s.bulk b).state == 5 then (s.modBulk b (fun x => { x with off := true })).pendOnce .railDown { unit := b } else seqErr s b
def raiseRail (s : State) (b : Nat) : State :=
  if (s.bulk b).state == 6 then (s.modBulk b (fun x => { x with off := false })).pendOnce .railUp { unit := b } else seqErr s b
/-- GO of BH_WIPE 0 to 1 in STATE 8. -/
def startWipe (s : State) (b : Nat) : State :=
  if (s.bulk b).state == 8 then (s.modBulk b (fun x => { x with go := true, done := false })).pendOnce .wipeComplete { unit := b }
  else seqErr s b

/-- The core after a wipe (R359, R360): its SRAM zero, every buffer and binding unconfigured, every register that R352
places with it at its reset value, not halted. -/
def Core.wiped (k : Core) : Core :=
  let kept (n : Nat) : Bool := n == 0 || n == 1 || n == 6 || n == 7 || n == 8 || (0x31 ≤ n && n ≤ 0x35)
  { k with
    scratch := [], full := [], marks := [], downs := [], steep := [], steepFull := [], steepMarks := [], at_ := [], tables := []
    tiles := [], tree := [], tb := [], mx := {}, prefetches := [], fillOrder := 0, xcache := [], halted := false
    cb := k.cb.map (fun (i, x) => (i, { gen := x.gen + 2 })), elems := []
    sys := k.sys.filter (fun (n, _) => kept n) }
/-- Wipes a bulkhead's volatile SRAM (R359). -/
def wipeBulk (s : State) (b : Nat) : State :=
  let t := dropLines ((coresOf b).foldl (fun t c => t.modCore c Core.wiped) s) b
  { t with l2tree := t.l2tree.filter (fun (key, _) => key / 4096 != b) }

/-- BH_CTL changes both of its fields as one step (R356). -/
def writeBhCtl (s : State) (b : Nat) (v : Word) : State :=
  let x := s.bulk b
  let sched := wbit v 0
  let pre := wbit v 1
  if sched == x.sched && pre == x.pre then s
  else if x.sched && !sched && pre == x.pre then schedStop s b
  else if !x.sched && !sched && pre && !x.pre then bulkPreempt s b
  else if sched && !pre then (if x.state == 11 then schedResume s b else quiesceAbandon s b)
  else seqErr s b

/-- A write to BH_WAKE (R355): REQ, and IRQ.WAKE of the management core. -/
def writeWake (s : State) (b : Nat) (v : Word) : State := mgmtIrq (s.modBulk b (fun x => { x with req := wbit v 0 })) 3

/-- A restart of a halted core in STATE 0 (R360). -/
def restartCore (s : State) (c : Nat) : State :=
  if (s.bulk (bulkOf c)).state == 0 && (s.core c).halted then s.modCore c (fun k => { k with halted := false }) else s

/-- PWRLIMc (R360), ignored while the bulkhead has no clock. -/
def writePwrlim (s : State) (c : Nat) (v : Word) : State :=
  let st := (s.bulk (bulkOf c)).state
  if 5 ≤ st && st ≤ 7 then s else s.modCore c (fun k => k.setSys 0x12 (v &&& 0xFFFF#64))

/-- BUCTLn (R327): PROMO above, AGE below. The spec gives no offset; the model takes 0x200 + 8i of the block of the
channel's home bulkhead (DESIGN CHOICE, log entry 23). -/
def State.buctlReg (s : State) (n : Nat) : Word := mget 0x32 s.buctl n

/-- A load from the management space (R354, R355). -/
def mgmtRead (s : State) (off : Nat) : Word :=
  let b := off / 0x10000
  let x := s.bulk b
  match off % 0x10000 with
  | 0x00 => BitVec.ofNat 64 (b2n x.pre * 2 + b2n x.sched)
  | 0x08 => BitVec.ofNat 64 (idleMask s b * 2 ^ 32 + b2n (enginesEmpty s b) * 2 ^ 16 + b2n x.seqerr * 128 + x.state)
  | 0x10 => BitVec.ofNat 64 (b2n x.close)
  | 0x18 => BitVec.ofNat 64 (inflight s b % 2 ^ 16 * 2 ^ 16 + b2n x.closed)
  | 0x20 => BitVec.ofNat 64 (b2n x.restore * 2 + b2n x.save)
  | 0x28 => BitVec.ofNat 64 (b2n x.busy * 2 + b2n x.valid)
  | 0x30 => BitVec.ofNat 64 (b2n x.lock * 256 + b2n x.gate)
  | 0x38 => BitVec.ofNat 64 (b2n x.off)
  | 0x40 => BitVec.ofNat 64 (b2n x.pg)
  | 0x48 => BitVec.ofNat 64 (b2n x.req)
  | 0x50 => BitVec.ofNat 64 (b2n x.done * 2 + b2n x.go)
  | 0x58 => BitVec.ofNat 64 (haltedMask s b)
  | o =>
    if 0x100 ≤ o && o < 0x140 && o % 8 == 0 then (s.core (8 * b + (o - 0x100) / 8)).sysReg 0x12
    else if 0x200 ≤ o && o < 0x240 && o % 8 == 0 then s.buctlReg (8 * b + (o - 0x200) / 8)
    else 0

/-- A one-bit field of a control register: set moves it 0 to 1, clear 1 to 0; equal values do nothing. -/
def writeBit (s : State) (old new : Bool) (set clear : State → State) : State :=
  if old == new then s else if new then set s else clear s

/-- A write to the management space (R355, R356). -/
def mgmtWrite (s : State) (off : Nat) (v : Word) : State :=
  let b := off / 0x10000
  let x := s.bulk b
  let refuse (t : State) : State := seqErr t b
  match off % 0x10000 with
  | 0x00 => writeBhCtl s b v
  | 0x08 => if wbit v 7 then s.modBulk b (fun x => { x with seqerr := false }) else s
  | 0x10 => writeBit s x.close (wbit v 0) (fun t => closeSluice t b) (fun t => openSluice t b)
  | 0x20 =>
    let s1 := writeBit s x.save (wbit v 0) (fun t => saveRetention t b) refuse
    writeBit s1 x.restore (wbit v 1) (fun t => restoreRetention t b) refuse
  | 0x30 => writeBit s x.gate (wbit v 0) (fun t => gateClock t b) (fun t => ungateClock t b)
  | 0x38 => writeBit s x.off (wbit v 0) (fun t => dropRail t b) (fun t => raiseRail t b)
  | 0x48 => writeWake s b v
  | 0x50 => writeBit s x.go (wbit v 0) (fun t => startWipe t b) refuse
  | 0x58 => (List.range 8).foldl (fun t i => if wbit v (8 + i) then restartCore t (8 * b + i) else t) s
  | o =>
    if 0x100 ≤ o && o < 0x140 && o % 8 == 0 then writePwrlim s (8 * b + (o - 0x100) / 8) v
    else if 0x200 ≤ o && o < 0x240 && o % 8 == 0 then
      { s with buctl := mput s.buctl (8 * b + (o - 0x200) / 8) (v &&& 0xFFFFFFFFFFFF#64) }
    else s

/-! Partitions, contexts, keys and life cycle (R364 to R374, R385). -/

def State.hubStatBit (s : State) (i : Nat) : State := s.setHub 0x1000 (s.hubReg 0x1000 ||| BitVec.ofNat 64 (2 ^ i))

/-- Extends the configuration measurement of a partition (R385). -/
def extendMeasure (s : State) (p : Nat) (bytes : List Byte) : State :=
  let m := mget (List.replicate 64 (0 : Byte)) s.measures p
  { s with measures := mput s.measures p (Config.sha512 (m ++ bytes)) }

/-- The bulkheads of a PTAB value. -/
def ptabSet (v : Word) : List Nat :=
  if wbit v 63 then (List.range (2 ^ wbits v 8 3)).map (· + wbits v 0 5) else []
/-- Whether a table with entry p set to v meets R364. -/
def ptabLegal (s : State) (p : Nat) (v : Word) : Bool :=
  !wbit v 63 || (wbits v 8 3 ≤ 5 && wbits v 0 5 % 2 ^ wbits v 8 3 == 0 && wbits v 0 5 + 2 ^ wbits v 8 3 ≤ 32
    && (List.range 32).all (fun q => q == p || (ptabSet (s.ptab q)).all (fun b => !(ptabSet v).contains b)))

/-- Withdraws the engine contexts of some bulkheads, and every TLCTX that names one reads V = 0 (R365). -/
def withdrawEngines (s : State) (bs : List Nat) : State :=
  let gone := (s.engines.filter (fun (e, q) => bs.contains (engBulk e) && q.granted)).map (·.1)
  let names (x : Nat) (t : Word) : Bool :=
    wbit t 63 && gone.contains (engKey (wbits t 20 4) (s.physBulk (s.ctxPart x) (wbits t 24 5)) (wbits t 12 8) (wbits t 0 6))
  let hub' := s.hub.map (fun (off, v) =>
    if 0x200000 ≤ off && off < 0x400000 && 0x40 ≤ off % 0x200 && off % 0x200 < 0xC0 && names ((off - 0x200000) / 0x200) v
    then (off, wput v 63 1 0) else (off, v))
  { s with
    hub := hub'
    engines := s.engines.map (fun (e, q) => if gone.contains e then (e, {}) else (e, q))
    cores := s.cores.map (fun (c, k) => (c, { k with tlctx := k.tlctx.map (fun (i, t) => (i, if names k.ctxOf t then wput t 63 1 0 else t)) })) }

/-- An accepted write of 8 bytes to a window entry extends the measurement of the bulkhead's partition and that of the borrower (R385). -/
def measureWindow (s : State) (b borrower : Nat) (v : Word) : State :=
  let bytes := natToBytes 8 v.toNat
  let s1 := match s.bulkPart b with
    | some p => extendMeasure s p bytes
    | none => s
  if s.bulkPart b == some borrower || !s.partValid borrower then s1 else extendMeasure s1 borrower bytes
/-- Closes a window in every bulkhead that holds it (R310): V cleared, which is a measured write, the borrower's handles on the range
invalidated, admitted requests left to complete. -/
def closeWindows (s : State) (which : Nat → Word → Word → Bool) : State :=
  (List.range 32).foldl (fun t b => (List.range 16).foldl (fun (u : State) w =>
    let (w0, w1) := u.slwin b w
    if wbit w0 63 && which b w0 w1 then
      let u1 := measureWindow (u.setHub (0x10000 + 0x200 * b + 16 * w) (wput w0 63 1 0)) b (wbits w0 58 5) (wput w0 63 1 0)
      let lo := wbits w0 12 40 * 4096
      let hi := wbits w1 12 40 * 4096 + 4096
      ({ u1 with cores := u1.cores.map (fun (c, k) =>
          if u1.partHas (wbits w0 58 5) (bulkOf c) then
            (c, { k with
              h := k.h.map (fun (i, h) =>
                if h.state == 2 && i < 15 && overlaps (alignDown h.pbase (pageBytes h.size.toNat)) (pageBytes h.size.toNat) lo (hi - lo)
                then (i, { h with state := 3, cause := 6, gen := h.gen + 1 }) else (i, h))
              xcache := [] })
          else (c, k)) } : State).dropPins (fun (x, _, f, n) => u1.ctxPart x == wbits w0 58 5 && overlaps f n lo (hi - lo))
    else u) t) s

/-- Flushes the bulkheads of a new shape (R299): lines dropped, handles and cached translations invalidated. -/
def flushPartition (s : State) (bs : List Nat) : State :=
  let s1 := bs.foldl dropLines s
  { s1 with cores := s1.cores.map (fun e : Nat × Core => if bs.contains (bulkOf e.1) then (e.1, Core.invalidate e.2 none none) else e) }

/-- A write to PTABp (R365, R369, R385): one that changes no field is accepted and measured as any other. -/
def writePtab (s : State) (p : Nat) (v : Word) : State :=
  let new := v &&& 0x800000000000071F#64
  let old := s.ptab p
  if new == old then extendMeasure s p (natToBytes 8 v.toNat)
  else
    let bs := (ptabSet old ++ ptabSet new).eraseDups
    let still := bs.all (fun b => (s.bulk b).state == 6 || (s.bulk b).state == 9)
    if ptabLegal s p new && still then
      let s1 := closeWindows s (fun b w0 _ => (ptabSet old).contains b || wbits w0 58 5 == p)
      let s2 := (withdrawEngines s1 bs).setHub (8 * p) new
      let s3 := bs.foldl (fun t b => t.modBulk b (fun x => { x with valid := false, retained := {} })) s2
      let s4 := flushPartition s3 bs
      let s5 := if wbit new 63 && !wbit old 63 then { s4 with measures := merase s4.measures p } else s4
      extendMeasure s5 p (natToBytes 8 v.toNat)
    else s.hubStatBit 0

/-- Whether a continuation of a context runs or waits (R367). -/
def contextBusy (s : State) (x : Nat) : Bool :=
  s.cores.any (fun (_, k) => match k.running with | some r => r.ctx == x | none => false)
    || s.ready.any (fun (_, q) => q.any (fun e => e.ctx == x))

/-- The writable bits of a descriptor field (R367). -/
def ctxdMask (off : Nat) : Word :=
  if off == 0 then 0x800000000000011F
  else if off == 8 then 0x000FFFFFFFFFE000
  else if off == 0x10 then 0x0000FFFFFFFFFFF0
  else if off == 0x18 then 0xFFFF
  else if off == 0x20 then 0x0000FFFFFFFFFFFF
  else if off == 0x28 then 0x01FFFFFFFFFFFFF0
  else if off == 0x30 then 0xFFFFFFFF
  else if 0x40 ≤ off ∧ off < 0xC0 then 0x800000001FFFF03F
  else if 0xC0 ≤ off ∧ off < 0x140 then 0x01FFFFFFFFFFF000
  else 0

/-- The management core writes a field of a context's descriptor (R367). -/
def writeCtxd (s : State) (x off : Nat) (v : Word) : State :=
  let new := v &&& ctxdMask off
  if off == 0x18 then writeWaymask s x new none
  else if off == 0 && !wbit new 63 && s.ctxValid x && contextBusy s x then (s.setCtxd x 0 (wput new 63 1 1)).hubStatBit 0
  else s.setCtxd x off new

/-- Destroys a partition's granary key (R372): a fresh key, the epoch advanced by one. -/
def destroyKey (s : State) (p : Nat) : State :=
  ({ s with free := s.free + 1 } : State).setHub (0x40000 + 8 * p) (BitVec.ofNat 64 ((s.keyEpoch p + 1) % 256))

/-- The 32 bytes of LCNONCE (R374): the random source at the index that 0x1020 holds. -/
def lcNonce (s : State) : List Byte := (Config.randomBytes (s.hubReg 0x1020).toNat ++ List.replicate 32 0).take 32
def freshNonce (s : State) : State := ({ s with free := s.free + 1 } : State).setHub 0x1020 (BitVec.ofNat 64 (s.free + 1))
def lcAuth (s : State) : List Byte := (List.range 8).flatMap (fun i => natToBytes 8 (s.hubReg (0x1040 + 8 * i)).toNat)

/-- The transitions of R374: none when not listed, else whether they need authorisation. -/
def lifecycleStep (old new : Nat) : Option Bool :=
  match old, new with
  | 0, 1 => some true
  | 1, 2 => some false
  | 1, 4 => some true
  | 2, 3 => some true
  | 2, 4 => some true
  | 3, 2 => some true
  | 3, 4 => some true
  | _, _ => none

/-- LCREQ.GO (R374). -/
def requestLifecycle (s : State) : State :=
  let target := wbits (s.hubReg 0x1010) 0 3
  let lcs := s.hubReg 0x1008
  let message := Config.sha512 (Config.identityKey ++ [BitVec.ofNat 8 target] ++ lcNonce s)
  let ok := !wbit lcs 7 && (match lifecycleStep s.lcState target with
    | none => false
    | some false => true
    | some true => Config.verify (lcAuth s) message)
  let s1 := if ok then s.setHub 0x1008 (wput (wput (wput lcs 0 3 s.lcState) 3 3 target) 7 1 1)
    else s.setHub 0x1008 (wput (wput lcs 0 3 s.lcState) 6 1 1)
  freshNonce s1

/-! Bulkhead reset (R370). -/

/-- Discards the records of a ready queue with STATUS 5, each an abnormal leave (R271, R337, R370). -/
def discardReady (s : State) (b : Nat) : State :=
  (s.readyOf b).foldl (fun (t : State) e =>
    let t2 := leaveAll ((writeStatus t e.ctx e.recA 5).forget e.ctx e.recA) e.ctx e.part e.recA
    if e.node != 0 then nodeError t2 e.ctx e.node else t2) (s.setReady b [])

/-- Completes every unretired command of some engine contexts (R337, R370), with an error where it has no outcome yet: each retires in
its turn. -/
def failEngines (s : State) (which : Nat → EngCtx → Bool) (err : Nat) : State :=
  s.engines.foldl (fun (t : State) (e, q) =>
    if which e q then
      q.queue.foldl (fun (u : State) c =>
        retired (u.setEng e { u.eng e with queue := (u.eng e).queue.filter (fun m => m.num != c.num) }) e c (c.done.getD err)) t
    else t) s

/-- The reset of a bulkhead (R370, R371). The graph launches that its scheduler holds or follows end with its ready queue, and its bank
units' registers read their reset values. -/
def resetBulk (s : State) (b : Nat) : State :=
  let st := (s.bulk b).state
  if 5 ≤ st && st ≤ 7 then s.hubStatBit 1
  else
    let part := s.bulkPart b
    let s1 := failAdmitted (s.modBulk b (fun x => { x with close := true, closed := true })) b
    let s2 := (coresOf b).foldl (fun (t : State) c => if (t.core c).running.isSome then endContinuation t c else t) s1
    let s3 := (discardReady (failEngines s2 (fun e _ => engBulk e == b) 5) b).setReady b []
    let s4 : State := { s3 with
      groups := s3.groups.filter (fun (key, _) => s3.groupHome (key / 65536) (key % 65536) != b)
      banks := s3.banks.filter (fun (ch, _) => ch / 8 != b)
      buctl := s3.buctl.filter (fun (n, _) => n / 8 != b)
      replays := s3.replays.map (fun r => if r.bulk == b then { r with started := true, ended := true, nodes := [] } else r)
      queues := s3.queues.map (fun (q, l) => if l.bound && l.bulk == b then (q, { l with stopped := true }) else (q, l)) }
    let dirty := s4.lines.filter (fun (_, l) => l.home / 8 == b && (l.dirty || l.held))
    let s5 := dirty.foldl (fun (t : State) (a, l) => (t.physPoison (a * 256) 256).setLine a { l with dirty := false }) s4
    let s6 := wipeBulk s5 b
    let s7 : State := { s6 with
      engines := s6.engines.map (fun (e, q) => if engBulk e == b then (e, ({ granted := q.granted, ctx := q.ctx } : EngCtx)) else (e, q))
      pending := s6.pending.filter (fun p => !(p.args.unit == b && (match p.event with
        | .quiesceComplete | .sluiceCloseComplete | .retentionSaveComplete | .wipeComplete | .retentionRestoreComplete
        | .sluiceOpenComplete | .clockStopped | .pllLock | .railDown | .railUp => true
        | _ => false))) }
    let s8 := (coresOf b).foldl (fun (t : State) c => t.modCore c (fun k =>
      { ({} : Core) with cb := k.cb, cycle := k.cycle, nextIdx := k.nextIdx, nextOrd := k.nextOrd
                         slots := List.replicate 8 ({ next := k.nextIdx } : SlotSt) })) s7
    let s9 := s8.setBulk b { state := 9, sched := false, close := true, closed := true, slice := (s.bulk b).slice }
    let s10 := s9.count (0x30000 + 64 * b + 48) 1
    match part with
    | some p => vfError s10 p 2
    | none => s10

/-! The hub space (R363). -/

def hubRead (s : State) (off : Nat) : Word :=
  if 0x1020 ≤ off && off < 0x1040 then bytesToWord (((lcNonce s).drop (off - 0x1020)).take 8)
  else if off == 0x1008 then wput (s.hubReg 0x1008) 0 3 s.lcState
  else if off == 0x1010 then s.hubReg 0x1010 &&& 7#64
  else if 0x30000 ≤ off && off < 0x31000 then BitVec.ofNat 64 (mget 0 s.counters off)
  else if 0x20000 ≤ off && off < 0x20100 then BitVec.ofNat 64 (b2n (s.bulk ((off - 0x20000) / 8)).rstBusy * 2)
  else s.hubReg off

/-- A write to SLWINw of bulkhead b (R311, R385). -/
def writeSlwin (s : State) (off : Nat) (v : Word) : State :=
  let b := (off - 0x10000) / 0x200
  let base := off - off % 16
  let new := v &&& (if off % 16 == 0 then 0xFF8FFFFFFFFFF000#64 else 0x000FFFFFFFFFF000#64)
  let s1 := s.setHub off new
  measureWindow s1 b (wbits (s1.hubReg base) 58 5) v

/-- A write to the hub space (R363). -/
def hubWrite (s : State) (off : Nat) (v : Word) : State :=
  if off < 0x100 then writePtab s (off / 8) v
  else if 0x800 ≤ off && off < 0xC00 then
    (match off % 32 with
     | 0 | 16 => s.setHub off (v &&& 0xFFFFFFFF#64)
     | 8 => s.setHub off (v &&& 0xFF07#64)
     | _ => s)
  else if off == 0x1000 then s.setHub off (s.hubReg off &&& ~~~(v &&& 3#64))
  else if off == 0x1008 then s.setHub off (s.hubReg off &&& ~~~(v &&& 0x40#64))
  else if off == 0x1010 then
    let s1 := s.setHub off (v &&& 7#64)
    if wbit v 63 then requestLifecycle s1 else s1
  else if 0x1040 ≤ off && off < 0x1080 then s.setHub off v
  else if 0x10000 ≤ off && off < 0x14000 && (off - 0x10000) % 0x200 < 0x100 then writeSlwin s off v
  else if 0x20000 ≤ off && off < 0x20100 then (if wbit v 0 then resetBulk s ((off - 0x20000) / 8) else s)
  else if 0x40000 ≤ off && off < 0x40100 then (if wbit v 63 then destroyKey s ((off - 0x40000) / 8) else s)
  else if 0x50000 ≤ off && off < 0x58000 then s.setHub off (v &&& 0x800000000000000F#64)
  else if 0x200000 ≤ off && off < 0x400000 then writeCtxd s ((off - 0x200000) / 0x200) (off % 0x200) v
  else s

end Sys2Proof.Machine
end

