-- ==== Sys2Proof/Machine/Ops.lean ====
section
/-! DEFINITION. The operations the meanings share: requests to homes, results and their landing, translation, transfers
of control, restart marks, taking a trap and returning from one (spec/02, spec/04, spec/12, spec/21). -/

namespace Sys2Proof.Machine

/-- The context number the model gives the management core's own address space, which no descriptor describes: its
walks find nothing mapped (log entry 25). -/
def mgmtCtx : Nat := 4096
/-- The context whose tables a core's addresses go through. -/
def State.ctxAt (s : State) (c : Nat) : Nat := if isMgmt c then mgmtCtx else (s.core c).ctxOf
/-- The top table that a core walks from, its VROOT, and its partition, as its pick-up loaded them (R203, R367). -/
def State.rootOf (s : State) (c : Nat) : Option (Nat × Nat) :=
  if isMgmt c then none else some (rootTable ((s.core c).sysReg 0x31), (s.core c).partOf)

/-! Results (R16). -/

/-- A result of the issue in progress that lands lat slot cycles later. -/
def State.emit (s : State) (lat : Nat) (what : Landing) (kind : Nat := 0) (poison : Bool := false) (va hnd gen : Nat := 0) : State :=
  s.modMe (fun k => { k with flights := k.flights ++ [{ slot := s.now.slot, due := s.now.clk + lat, seq := s.now.seq, what := what,
                                                         kind := kind, adr := s.now.adr, poison := poison, va := va, hnd := hnd, gen := gen }] })

/-- The event of an operation without a result of its own, if it has one. -/
def State.event (s : State) (lat kind : Nat) : State := if kind == 0 then s else s.emit lat .event kind

/-- The slot of the issue in progress waits (R25): nothing else happens. -/
def State.stall (s : State) : State := { s with now := { s.now with stalled := true } }

/-! Requests (R220, R307). -/

/-! The way of a request through the switches (R295, R296, R300). -/

/-- The switches from one to another with the input and the output port of each; last is the port it leaves the last one by. -/
def routeFrom (last : Nat) : Nat → Nat → Nat → Nat → List (Nat × Nat × Nat)
  | 0, _, _, _ => []
  | n + 1, sw, dst, port =>
    if sw == dst then [(sw, port, last)]
    else if sw / 4 < dst / 4 then (sw, port, 15) :: routeFrom last n (sw + 4) dst 14
    else if dst / 4 < sw / 4 then (sw, port, 14) :: routeFrom last n (sw - 4) dst 15
    else if sw < dst then (sw, port, 13) :: routeFrom last n (sw + 1) dst 12
    else (sw, port, 12) :: routeFrom last n (sw - 1) dst 13
def stageKey (e : Nat × Nat × Nat) : Nat := e.1 * 16 + e.2.2
/-- The whole route of a request to its home, or to row 0 and the hub link (R296), and what lies before it. In the hub, which counts as
switch 32 with an input for each column, a request to a peer leaves by a Scair port (R383). -/
def Req.wholeRoute (r : Req) : List (Nat × Nat × Nat) :=
  let b := bulkOf r.core
  if r.toHub then routeFrom 11 12 b (b / 4 * 4) (r.core % 8) ++ (if regionOf r.pa == .peer then [(32, b / 4, r.via)] else [])
  else routeFrom r.op.port 12 b r.home (r.core % 8)
def Req.route (r : Req) : List (Nat × Nat × Nat) := r.wholeRoute.drop r.passed
/-- The route of a reply (R296): that of its request for what the sync engine answers, otherwise row first from the home; from the hub,
whose home stands as 33, down the column of its core. -/
def replyRoute (c home : Nat) (back : Bool) : List (Nat × Nat × Nat) :=
  let b := bulkOf c
  if back then (routeFrom (if home == 33 then 11 else 9) 12 b (if home == 33 then b / 4 * 4 else home) (c % 8)).map (fun (sw, i, o) => (sw, o, i))
  else if home == 33 then routeFrom (c % 8) 12 (b / 4 * 4) b 11
  else routeFrom (c % 8) 12 home b 8

/-- Whether switches combine an operation (R241). -/
def ReqOp.combines : ReqOp → Bool | .amo _ => true | _ => false
/-- The cores whose operands a request carries. -/
def Req.cores (r : Req) : List Nat := if r.members.isEmpty then [r.core] else r.members.map (·.core)
/-- Whether two requests agree as R244 requires. -/
def agree (a b : Req) : Bool :=
  a.op.combines && a.op == b.op && a.size == b.size && a.pa == b.pa && a.part == b.part && a.scope == b.scope && a.home == b.home
    && a.id != b.id && !a.mgmt && !b.mgmt && !a.limited && !b.limited && !a.parked && !b.parked && a.answered.isNone && b.answered.isNone
    && a.held.isSome && b.held.isSome && a.cores.all (fun c => !b.cores.contains c)
/-- Two requests stand at one combining stage on different input ports: the switch with the ports of both. -/
def meeting (a b : Req) : Option (Nat × Nat × Nat) :=
  match a.route.head?, b.route.head? with
  | some (sw, p, o), some (sw', p', o') => if sw == sw' && o == o' && p != p' then some (sw, p, p') else none
  | _, _ => none

/-- A request as it stands among those on their way. -/
def State.setReq (s : State) (r : Req) : State := { s with fabric := s.fabric.map (fun q : Req => if q.id == r.id then r else q) }
/-- The entries in use in the wait buffer of a stage (R300). -/
def State.waitEntries (s : State) (key : Nat) : Nat := (s.fabric.map (fun q => (q.stages.filter (· == key)).length)).sum

/-- A request enters its next switch, with n switches left at most: at each one it is held at the combining stage of its output port,
where it may meet another; a stage whose wait buffer is full lets it pass at once (R300). Behind the last it is at its home. -/
def State.enterStage (s : State) (r : Req) : Nat → State
  | 0 => (s.setReq { r with held := none }).pend .homeApply { unit := r.id }
  | n + 1 =>
    match r.route.head? with
    | none => (s.setReq { r with held := none }).pend .homeApply { unit := r.id }
    | some e =>
      if s.waitEntries (stageKey e) ≥ 64 then s.enterStage { r with passed := r.passed + 1 } n
      else
        let r1 := { r with held := some s.time }
        let s1 := (s.setReq r1).pend .combineHoldExpiry { unit := r.id }
        s1.fabric.foldl (fun (t : State) q =>
          if agree r1 q then (match meeting r1 q with
            | some (sw, p, p') => t.pend .switchCombine { unit := sw, idx := if p < p' then r.id else q.id, aux := if p < p' then q.id else r.id }
            | none => t) else t) s1

/-- A request is on its way: one that switches may combine goes from stage to stage (R300). -/
def State.depart (s : State) (r : Req) : State :=
  if r.op.combines && !r.mgmt then s.enterStage r 12 else s.pend .homeApply { unit := r.id }

/-- Sends a request: its number and the state. A limited context's request first waits for its tokens. -/
def State.send (s : State) (r : Req) : Nat × State :=
  let lim := !r.mgmt && s.rate r.ctx (bulkOf r.core) != 0
  let r1 := { r with id := s.nextReq, limited := lim, sent := s.time, via := s.peerPort r.pa,
                     helper := if r.op == .read then s.helperAt (bulkOf r.core) (r.pa / 256) else none }
  let s1 : State := { s with nextReq := s.nextReq + 1, fabric := s.fabric ++ [r1] }
  (s.nextReq, if lim then s1.pend .rateLimitedSend { unit := s.nextReq } else s1.depart r1)

/-- The requests of a core that its interface queue holds, those about to enter it with them (R307). -/
def State.queued (s : State) (c : Nat) : Nat :=
  let leaving (f : Flight) : Bool := match f.what with | .post _ | .through _ => true | _ => false
  (s.fabric.filter (fun r => r.core == c && r.limited)).length
    + (if s.rate (s.core c).ctxOf (bulkOf c) == 0 then 0 else ((s.core c).flights.filter leaving).length)

/-! Translation (R203 to R210). -/

/-- Pins the lines of the page of a virtual address in ways of its home slices, or none where a limit of R198 is passed; each is
filled, which is charged (R308). Where the page goes on past the window that lends its frames, nothing is pinned behind it (R2, R309). Lines
that the sync engine holds in ways count toward the 12 as well (R304; DEDUCED, log entry 121). -/
def State.pinPage (s : State) (part x va : Nat) (l : Leaf) : Option State :=
  let all := (List.range (l.bytes / 256)).map (· + l.frame / 256)
  let fresh := all.filter (fun a => !(s.line a).pinned &&
    (let home := (s.leafHome part l.hi (a * 256)).1; s.partHas part home || s.windowCovers home part (a / 16) 8))
  let place (a : Nat) : Nat := let (b, sl) := s.leafHome part l.hi (a * 256); b * 8 + sl
  let s1 := fresh.foldl (fun (t : State) a =>
    let u := t.install x (place a) a true
    u.setLine a { u.line a with pinned := true, sram := false, home := place a, owner := x }) s
  let count (p : Nat) : Nat := (s1.lines.filter (fun (_, y) => y.pinned && y.home == p)).length
  let pin := (x, va - va % l.bytes, l.frame, l.bytes)
  if fresh.all (fun a => count (place a) ≤ 4096 && s1.fixedIn (place a) a < 12) then
    some { s1 with pins := if s1.pins.contains pin then s1.pins else s1.pins ++ [pin] }
  else none

/-- The page of a segment that a migration has still to pull (R346): that of its header, or one of its words. -/
def State.codePage (s : State) (x head : Nat) (root : Option (Nat × Nat)) : Option Nat :=
  let page (va : Nat) : Option Nat := if s.unpulled x va root then some (va / 4096) else none
  if s.migrations.isEmpty then none
  else match page head, s.fetchCode x head root none 1 with
    | some p, _ => some p
    | none, .error _ => none
    | none, .ok h =>
      let n := 16 + 4 * min (bits (bytesToNat h) 112 13) 4352
      (List.range (n / 4096 + 2)).findSome? (fun i =>
        let a := alignDown head 4096 + 4096 * i
        if a < head + n then page a else none)

/-- The end of a handle's walk (R206, R210, R198): valid, faulted with its cause, or pending still while a page of a
migrating range is pulled (R346). A handle that is no longer pending keeps its state. -/
def finishXlat (s : State) (c h : Nat) : State :=
  let hd := mget {} (s.core c).h h
  let x := s.ctxAt c
  let va := hd.vbase.toNat
  let fault (t : State) (cause : Nat) : State := t.modCore c (fun k => k.setHandle h { hd with state := 3, cause := cause })
  let done (t : State) (l : Leaf) : State := t.modCore c (fun k =>
    { k.setHandle h { hd with state := 2, pbase := l.pa va, limit := l.bytes - va % l.bytes, leaf := BitVec.ofNat 48 l.hi,
                              size := BitVec.ofNat 4 l.size, cause := 0 }
      with xcache := (x, va - va % l.bytes, l.bytes) :: k.xcache })
  if hd.state != 1 then s
  else if s.unpulled x va (s.rootOf c) then
    (s.pendOnce .migrationPagePull { unit := x, idx := va / 4096, flag := true }).pendOnce .xlatComplete { unit := c, idx := h, aux := hd.gen.toNat }
  else match s.walk x va (s.rootOf c) with
    | .error cause => fault (s.countWalk x va (s.rootOf c)) cause
    | .ok l =>
      if l.cache == 2 then
        (match s.pinPage (s.partAt x (s.rootOf c)) x va l with
         | some t => done t l
         | none => fault s 4)
      else done s l

/-- The 32 slot cycles of an xlat have passed (R210): a walk of a cached page ends now, another when its walk does. -/
def landXlat (s : State) (c h gen : Nat) : State :=
  let hd := mget {} (s.core c).h h
  if hd.state != 1 || hd.gen.toNat != gen then s
  else if (s.core c).xcache.any (fun (x, va, n) => x == s.ctxAt c && va ≤ hd.vbase.toNat && hd.vbase.toNat < va + n) then finishXlat s c h
  else s.pendOnce .xlatComplete { unit := c, idx := h, aux := gen }

/-- The handle becomes pending in the cycle after the xlat (R210), which gives STATE, VBASE, RONLY and GEN; its other fields, of which it
says nothing, are 0 until the walk ends (DESIGN CHOICE, log entry 117). Its result is due 32 slot cycles after the issue, whether or
not the slot that issued it stalls meanwhile (the trace after R337). -/
def startXlat (s : State) (c h va : Nat) (kind : Bool) (f : Flight) : State :=
  s.modCore c (fun k =>
    let gen := (mget {} k.h h : Handle).gen + 1
    { k.setHandle h { state := 1, vbase := BitVec.ofNat 57 va, ronly := kind, gen := gen } with
      flights := k.flights ++ [{ f with due := k.slotCycle + 31, what := .handle h gen.toNat }] })

/-! Buffers (R30, R233, R236). -/

/-- A CNT or ROOM increase of n elements, dropped when the buffer has been configured anew. An odd generation is a
buffer cut off by a cbcfg that has not landed yet. -/
def Core.riseCnt (k : Core) (cb gen n : Nat) : Core :=
  let b := k.cbReg cb
  if b.conf && b.gen == gen && gen % 2 == 0 then k.setCb cb { b with cnt := b.cnt + n } else k
def Core.riseRoom (k : Core) (cb gen n : Nat) : Core :=
  let b := k.cbReg cb
  if b.conf && b.gen == gen && gen % 2 == 0 then k.setCb cb { b with room := b.room + n } else k

/-- The CNT increase of an element. One that the frozen program fired waits in the late-write buffer, as every result in flight does
(R332), while the buffer has room and the core uses it (log entry 39). -/
def Core.riseElem (k : Core) (e : Elem) : Core :=
  match k.frozen with
  | some f =>
    if f.res != 2 && !f.sb && e.seq < 8 * f.ord && f.late.length < 64 then
      { k with frozen := some { f with late := f.late ++ [{ slot := e.seq % 8, due := 0, seq := e.seq, what := .cnt e.cb e.gen 1 }] } }
    else k.riseCnt e.cb e.gen 1
  | none => k.riseCnt e.cb e.gen 1
/-- Raises CNT for the arrived elements that no earlier element of their buffer holds back (R233). -/
def Core.releaseElems (k : Core) : List Elem → List Nat → Core
  | [], _ => k
  | e :: es, blocked =>
    if e.arrived && !blocked.contains e.cb then
      ({ k.riseElem e with elems := k.elems.filter (fun (y : Elem) => y.id != e.id) } : Core).releaseElems es blocked
    else k.releaseElems es (e.cb :: blocked)

/-- An element's data arrives (R233): written at the address fixed at firing, marked if poisoned; where it met a bulkhead that is down,
its consumer's trap names that cause (R311). -/
def Core.arriveElem (k : Core) (id : Nat) (data : List Byte) (poison : Bool) (down : Bool := false) : Core :=
  match k.elems.find? (fun e => e.id == id) with
  | none => k
  | some e =>
    let k1 := k.scratchWrite e.off data
    let k2 := if poison then { k1 with marks := addMarks k1.marks e.off e.size, downs := if down then addMarks k1.downs e.off e.size else k1.downs } else k1
    let k3 := { k2 with elems := k2.elems.map (fun (y : Elem) => if y.id == id then { y with arrived := true } else y) }
    k3.releaseElems k3.elems []

/-! Gated stores (R339). -/

/-- A byte under a mask: an empty mask is all ones. -/
def maskByte (old new m : Byte) : Byte := (old &&& ~~~m) ||| (new &&& m)
/-- The bytes of a store request over the old ones. -/
def Req.overlay (r : Req) (old : List Byte) : List Byte :=
  if r.mask.isEmpty then r.data else (old.zip (r.data.zip r.mask)).map (fun (a, b, m) => maskByte a b m)

/-- The mask of a store request, byte by byte. -/
def Req.masked (r : Req) : List Byte := if r.mask.isEmpty then List.replicate r.data.length 0xFF else r.mask
/-- A store without the bits that a later one writes. -/
def Req.without (q r : Req) : Req :=
  if overlaps q.pa q.data.length r.pa r.data.length then
    { q with mask := q.masked.zipIdx.map (fun (m, i) => if r.pa ≤ q.pa + i && q.pa + i < r.pa + r.data.length
      then m &&& ~~~(r.masked.getD (q.pa + i - r.pa) 0) else m) }
  else q
/-- A twst goes past the gated stores of its core, which are older: what it writes is left to them no more (R187, R219). -/
def Core.passGated (k : Core) (r : Req) : Core :=
  { k with mark := { k.mark with gated := k.mark.gated.map (fun g => { g with req := g.req.map (fun q => q.without r) }) } }


/-- The scratchpad with the gated stores of the core performed. -/
def Core.gatedView (k : Core) : Core :=
  k.mark.gated.foldl (fun (j : Core) g => match g.off with | some o => j.scratchWrite o g.data | none => j) k

/-- A write of a register of the hub space or the management space (R354, R363). -/
def spaceWrite (s : State) (hub : Bool) (off : Nat) (v : Word) : State := if hub then hubWrite s off v else mgmtWrite s off v
/-- What a load of such a register finds: the gated store of the core that it sees (R339), otherwise the register. -/
def spaceRead (s : State) (c : Nat) (hub : Bool) (off : Nat) : Word :=
  match (s.core c).mark.gated.reverse.find? (fun g => g.space == some (hub, off)) with
  | some g => bytesToWord g.data
  | none => if hub then hubRead s off else mgmtRead s off
/-- A store that is not held is performed: in the scratchpad, in a register, or by its request. -/
def performOne (s : State) (c : Nat) (g : Gated) : State :=
  match g.off, g.req, g.space with
  | some o, _, _ => s.modCore c (fun k => k.scratchWrite o g.data)
  | none, some r, _ => (s.send r).2
  | none, none, some (hub, off) => spaceWrite s hub off (bytesToWord g.data)
  | none, none, none => s
/-- Performs the gated stores in issue order and empties the buffer; stores before place upTo that come later are not
held any more. -/
def commitGated (s : State) (c : Nat) (upTo : Nat := 0) : State :=
  let gated := (s.core c).mark.gated
  gated.foldl (fun (t : State) g => performOne t c g)
    (s.modCore c (fun k => { k with mark := { k.mark with gated := [], commit := max k.mark.commit upTo } }))

/-- A commit point that also disarms the mark; in service the mark of the program stays armed (R333). -/
def commitDisarm (s : State) (c : Nat) : State :=
  (commitGated s c).modCore c (fun k => { k with mark := { k.mark with armed := k.mark.armed && k.svc } })

/-- A store reaches its memory: held while a mark armed before it is in force, a 65th one after the 64 are performed. -/
def performStore (s : State) (c seq : Nat) (g : Gated) : State :=
  let m := (s.core c).mark
  if m.armed && !(s.core c).svc && m.seq ≤ seq && m.commit ≤ seq then
    let s1 := if m.gated.length ≥ 64 then commitGated s c else s
    s1.modCore c (fun k => { k with mark := { k.mark with gated := k.mark.gated ++ [g] } })
  else performOne s c g

/-! Landing (R16, R18, R338). -/

/-- A register result; one issued before the mark reaches the shadow too. -/
def Core.landReg (k : Core) (seq : Nat) (what : Landing) : Core :=
  let early := k.mark.armed && seq < k.mark.seq
  let sh (f : Shadow → Shadow) (k : Core) : Core := if early then { k with mark := { k.mark with shadow := f k.mark.shadow } } else k
  match what with
  | .s r v => sh (fun y => { y with s := if r = 0 then y.s else mset 0 y.s r.toNat v }) (k.ws r v)
  | .p r b => sh (fun y => { y with p := setPred y.p r b }) (k.wp r b)
  | .v r x => sh (fun y => { y with v := mset 0 y.v r.toNat x }) (k.wv r x)
  | _ => k

/-- The results of a core that have not landed, those in the late-write buffer with them. -/
def Core.unlanded (k : Core) : List Flight := k.flights ++ (match k.frozen with | some f => f.late | none => [])

/-- The next of the elements that a vtld reads, as it stands now (R123): the flight that goes on with the rest, or that brings the
table. A poisoned element makes the load a trap when it lands. -/
def Core.tableStep (k : Core) (f : Flight) (t : Nat) (addrs : List Nat) (got : List W32) : Flight :=
  let v := k.gatedView
  match addrs with
  | [] => { f with due := f.due + 4, what := .table t got }
  | a :: rest =>
    let more := got ++ wordsOf (v.scratchRead a 256)
    { f with due := f.due + (if rest.isEmpty then 5 else 1), poison := f.poison || v.scratchPoisoned a 256,
             what := if rest.isEmpty then .table t more else .tread t rest more }
/-- The slot cycles from the end of a flight's present stage to the landing of its result: the reads of a vtld and its table (R123), what
follows the sample of a tlget (R291). -/
def Flight.rest (f : Flight) : Nat := match f.what with | .tread _ addrs _ => addrs.length + 4 | .tlSample _ _ _ left => left | _ => 0
/-- A result that must land at once: what it would still read or wait for is taken now. -/
def Core.hurry (k : Core) (f : Flight) : Flight :=
  let v := k.gatedView
  match f.what with
  | .tread t addrs got => { f with due := f.due + f.rest, what := .table t (got ++ addrs.flatMap (fun a => wordsOf (v.scratchRead a 256))),
                                   poison := f.poison || addrs.any (fun a => v.scratchPoisoned a 256) }
  | .tlSample e sel r _ => { f with what := .tlSample e sel r 0 }
  | _ => f

/-- Lands one result of core c. -/
def landOne (s : State) (c : Nat) (f : Flight) : State :=
  let s1 := s.modCore c (fun k => k.recordEvent f)
  match f.what with
  | .s _ _ | .p _ _ | .v _ _ => s1.modCore c (fun k => k.landReg f.seq f.what)
  | .sys n v =>
    let s2 := writeSys s1 c n v f.seq f.slot
    s2.modCore c (fun k =>
      if k.mark.armed && f.seq < k.mark.seq && n ≤ 1 then
        { k with mark := { k.mark with shadow := if n == 0 then { k.mark.shadow with fel := k.sysReg 0, felSeq := f.seq, felHold := 0 }
                                                 else { k.mark.shadow with seed := k.sysReg 1 } } }
      else k)
  | .cnt cb gen n => s1.modCore c (fun k => k.riseCnt cb gen n)
  | .room cb gen n => s1.modCore c (fun k => k.riseRoom cb gen n)
  | .bytes off data => s1.modCore c (fun k => k.scratchWrite off data)
  | .store off data => performStore s1 c f.seq { off := some off, data := data, req := none }
  | .post r => performStore s1 c f.seq { off := none, data := r.data, req := some r }
  | .through r => ((s1.modCore c (fun k => k.passGated r)).send r).2
  | .cbcfg cb d =>
    -- another cbcfg of the buffer that is still on its way cuts it off from this state too
    s1.modCore c (fun k =>
      let cut := k.unlanded.any (fun g => match g.what with | .cbcfg n _ => n == cb | _ => false)
      k.setCb cb { d with gen := (k.cbReg cb).gen / 2 * 2 + 2 + b2n cut })
  | .elem id data => s1.modCore c (fun k => k.arriveElem id data f.poison)
  | .table t coeffs => s1.modCore c (fun k => { k with tables := mput k.tables t { k.table t with coeffs := coeffs.zipIdx.foldl (fun m (w, i) => mset 0 m i w) [] } })
  | .tread t addrs got => s1.modCore c (fun k => { k with flights := k.flights ++ [k.tableStep f t addrs got] })
  | .tcfg t lo q lm um kk => s1.modCore c (fun k => { k with tables := mput k.tables t { k.table t with lo := lo, q := q, lmode := lm, umode := um, k := kk } })
  | .xlat h va kind => startXlat s1 c h va kind f
  | .hinv h => s1.modCore c (fun k => let hd : Handle := mget {} k.h h; k.setHandle h { hd with state := 0, gen := hd.gen + 1 })
  | .handle h gen => landXlat s1 c h gen
  | .mgmt hub off v => performStore s1 c f.seq { off := none, data := natToBytes 8 v.toNat, req := none, space := some (hub, off) }
  | .mgmtLoad hub off r => s1.modCore c (fun k => k.landReg f.seq (.s r (spaceRead s1 c hub off)))
  | .tlSample e sel r left =>
    let q := s1.eng e
    let v : Word := match sel with | .count => q.count | _ => BitVec.ofNat 64 (q.errc * 2 ^ 56 + q.errn % 2 ^ 56)
    let s2 := match sel with | .errc => s1.setEng e { q with errn := 0, errc := 0 } | _ => s1
    s2.modCore c (fun k => if left == 0 then k.landReg f.seq (.s r v)
      else { k with flights := k.flights ++ [{ f with due := f.due + left, what := .s r v }] })
  | .event => s1

/-- Stores and other bytes take the order of their slots, everything else issue order (R17, R18). -/
def Landing.isBytes : Landing → Bool
  | .bytes _ _ | .store _ _ | .post _ | .through _ => true
  | _ => false
def insertBy (key : Flight → Nat) (f : Flight) : List Flight → List Flight
  | [] => [f]
  | g :: gs => if key f < key g then f :: g :: gs else g :: insertBy key f gs
def sortBy (key : Flight → Nat) (fs : List Flight) : List Flight := fs.foldl (fun acc f => insertBy key f acc) []
def landingOrder (fs : List Flight) : List Flight :=
  sortBy (·.seq) (fs.filter (fun f => !f.what.isBytes)) ++ sortBy (·.slot) (fs.filter (fun f => f.what.isBytes))

/-- Element arrivals carry poison into the buffer, and a vtld reads on to its landing; any other poisoned result is a trap of its own
(R217, R335). -/
def Flight.traps (f : Flight) : Bool := f.poison && (match f.what with | .elem _ _ | .tread _ _ _ => false | _ => true)
/-- A translation under way: it goes on through stalls and service. -/
def Flight.walks (f : Flight) : Bool := match f.what with | .handle _ _ => true | _ => false
/-- Whether the time of a result has come. -/
def Core.isDue (k : Core) (f : Flight) : Bool := f.due ≤ (if f.walks then k.slotCycle else (k.slot f.slot).clk)

/-- Lands every result of core c that is due; poisoned ones stay until they trap. -/
def landDue (s : State) (c : Nat) : State :=
  let k := s.core c
  let due := k.flights.filter (fun f => k.isDue f && !f.traps)
  (landingOrder due).foldl (fun t f => landOne t c f)
    (s.setCore c { k with flights := k.flights.filter (fun f => !(k.isDue f && !f.traps)) })

/-- The due writes to the management core's spaces land, which a refill does not delay (R354). -/
def landSpaces (s : State) (c : Nat) : State :=
  let k := s.core c
  let now (f : Flight) : Bool := k.isDue f && (match f.what with | .mgmt _ _ _ => true | _ => false)
  (landingOrder (k.flights.filter now)).foldl (fun t f => landOne t c f) (s.setCore c { k with flights := k.flights.filter (fun f => !now f) })

/-- The cycles that a result still has to wait until it lands. -/
def Core.left (k : Core) (f : Flight) : Nat := f.due - (if f.walks then k.slotCycle else (k.slot f.slot).clk) + f.rest
/-- Lands a list of results at once, whatever their clocks, in the order in which they would have landed (R16, R123, R335, R340); those
that trap stay in flight. -/
def landAll (s : State) (c : Nat) (fs : List Flight) : State :=
  (sortBy (s.core c).left (landingOrder fs)).foldl (fun t f =>
    let g := (t.core c).hurry f
    if g.traps then t.modCore c (fun k => { k with flights := k.flights ++ [g] }) else landOne t c g) s
/-- The tlgets in flight sample their contexts now, in issue order, so that no later one of service comes before them (R291); each value
lands at its time. -/
def sampleAll (s : State) (c : Nat) : State :=
  let samples (f : Flight) : Bool := match f.what with | .tlSample _ _ _ _ => true | _ => false
  let early (f : Flight) : Flight := match f.what with
    | .tlSample e sel r 0 => { f with due := f.due - 1, what := .tlSample e sel r 1 }
    | _ => f
  (sortBy (·.seq) ((s.core c).flights.filter samples)).foldl (fun t f => landOne t c (early f))
    (s.modCore c (fun k => { k with flights := k.flights.filter (fun f => !samples f) }))

/-! Transfers of control (R34, R73 to R76). -/

/-- Passes control to an address that its own check has accepted: at once inside the executing segment, after the
expansion that remains into the prefetched one, otherwise after a refill of 40 cycles. The segment just left is not kept as a
prefetched one (DESIGN CHOICE, log entry 92). -/
def transfer (s : State) (c target : Nat) : State :=
  let s1 := { s with now := { s.now with taken := true } }
  s1.modCore c (fun k =>
    let k1 := { k with pc := target, rptK := 0, refill := 0 }
    let inside := match k.seg with | some g => g.holds target | none => false
    let far : Core := { k1 with seg := none, other := none, expandLeft := 0, refill := 40, refillTo := some ((target + 2 ^ 48 - 16) % 2 ^ 48, target) }
    if inside then k1
    else match k.other with
      | some o =>
        if o.first == target then
          if k.expandLeft ≤ 1 && o.words != [] then { k1 with seg := some o, other := none, expandLeft := 0 }
          else { k1 with seg := none, other := none, refill := k.expandLeft - 1, expandLeft := 0, refillTo := some (o.head, target) }
        else far
      | none => far)

/-- Falls through to an address, or past the last bundle with NEXT 0 (R33, R34). -/
def fallThrough (s : State) (c fall : Nat) : State :=
  if fall != 0 then { transfer s c fall with now := s.now }
  else s.modCore c (fun k => { k with
    pc := 0, rptK := 0, refill := 40, other := none, expandLeft := 0
    seg := k.seg.map (fun g => { g with words := [], bad := 4, badVa := 0 }) })

/-- Whether a register target passes R76 from the executing segment. -/
def Core.targetOk (k : Core) (v : Word) : Bool :=
  wbits v 48 16 == 0 && wbits v 0 2 == 0 &&
    (match k.seg with
     | some g => if g.covers v.toNat then g.holds v.toNat else wbits v 0 4 == 0
     | none => wbits v 0 4 == 0)

/-! Restart marks (R338). -/

def armMark (s : State) (c : Nat) (adr seq : Nat) : State :=
  (commitGated s c).modCore c (fun k => { k with mark :=
    { armed := true, adr := adr, seg := (match k.seg with | some g => g.head | none => adr - 16), seq := seq,
      shadow := { s := k.s, p := k.p, v := k.v, fel := k.sysReg 0, felSeq := k.felSeq, felHold := k.felHold, seed := k.sysReg 1,
                  loops := k.loops, slots := k.slots } } })

/-! Taking a trap (R329 to R337, R340). -/

/-- TRAPC (R329). -/
def trapc (t : TrapRec) (res : Nat) (sb : Bool) : Word :=
  BitVec.ofNat 64 (2 ^ 63 + b2n sb * 2 ^ 61 + res % 4 * 2 ^ 56 + t.code % 256 * 2 ^ 48 + t.cause % 256 * 2 ^ 40
    + t.slot % 8 * 2 ^ 32 + t.hnd % 16 * 2 ^ 16 + t.gen % 2 ^ 16)

/-- Writes the trap record; ILB for code 1 (R60, R329). -/
def Core.writeRecord (k : Core) (t : TrapRec) (res : Nat) (sb : Bool) : Core :=
  let k1 := ((k.setSys 3 (trapc t res sb)).setSys 4 (BitVec.ofNat 64 (t.adr % 2 ^ 48))).setSys 5 (BitVec.ofNat 64 (t.va % 2 ^ 57))
  if t.code == 1 then k1.setSys 2 t.ilb else k1

/-- Service begins (R333): every sticky slot idle, no loop active, equal clocks, dispatch at TRAPV after a refill. -/
def Core.beginService (k : Core) : Core :=
  let seg := wbits (k.sysReg 6) 4 44 * 16
  let clk := (k.slots.map (·.clk)).foldl max 0
  { k with
    slots := List.replicate 8 ({ clk := clk, next := k.nextIdx } : SlotSt)
    loops := k.loops.map (fun l => { l with active := false })
    flights := k.flights.filter Flight.walks, issues := [], brWait := none, seg := none, other := none, expandLeft := 0
    pc := seg + 16, rptK := 0, refill := 40, refillTo := some (seg, seg + 16), dispAt := none, drain := .none, skipSlots := [] }

/-- The state a freeze saves (R332). The reply that the trapping operation met is used up. The trap of a failed target check
still has to come (R76); a bundle that is illegal at dispatch is found again. -/
def Core.freezeState (k : Core) (t : TrapRec) (res : Nat) (sb : Bool) (late : List Flight) : Frozen :=
  let used := k.modSlot t.slot (fun sl => if sl.reply.isSome then { sl with waiting := none, reply := none } else sl)
  { res := res, slot := t.slot, sb := sb, slots := used.slots, loops := k.loops, issues := k.issues, pc := k.pc, rptK := k.rptK,
    nextIdx := k.nextIdx, brWait := k.brWait, seg := k.seg, late := late, skip := t.consumed, skips := k.skipSlots, refillTo := k.refillTo, dispAt := k.dispAt,
    drain := (match k.drain with | .illegal x => if x.after then .illegal x else .none | d => d), ord := k.nextOrd }

/-- The elements on their way to a core that no flight of it brings. -/
def Core.comingElems (k : Core) : List Elem :=
  k.elems.filter (fun e => !k.flights.any (fun f => match f.what with | .elem id _ => id == e.id | _ => false))
/-- Whether elements of the frozen program have still to land before service begins (R335). -/
def Core.landsFirst (k : Core) : Bool :=
  match k.frozen with | some f => f.sb && k.elems.any (fun e => e.seq < 8 * f.ord) | none => false
/-- A freeze (R332, R333, R335): the gated stores of an armed mark are performed; up to 64 results, the elements on their way with them,
wait in the late-write buffer, more than 64 land before service begins. -/
def freeze (s : State) (c : Nat) (t : TrapRec) : State :=
  let s0 := sampleAll s c
  let s1 := if (s0.core c).mark.armed then commitGated s0 c else s0
  let k := s1.core c
  let (walks, late) := k.flights.partition Flight.walks
  let sb := late.length + k.comingElems.length > 64
  let s2 := s1.setCore c { k with flights := walks }
  let s2 := if sb then landAll s2 c late else s2
  let fz := k.freezeState t t.res sb (if sb then (s2.core c).flights.filter (·.traps) else late)
  s2.modCore c (fun k => { (k.writeRecord t t.res sb).beginService with frozen := some fz })

/-- What a rollback keeps of the results in flight (R340): those issued before the mark land; of the later ones those
that rollback does not undo (buffers, tables, handles, matrix data, system registers but FEL and SEED) land too
(DEDUCED, log entries 22 and 79). -/
def survivesRollback (markSeq : Nat) (f : Flight) : Bool :=
  f.seq < markSeq || (match f.what with
    | .cnt _ _ _ | .room _ _ _ | .bytes _ _ | .cbcfg _ _ | .elem _ _ | .table _ _ | .tread _ _ _ | .tcfg _ _ _ _ _ _ | .xlat _ _ _
    | .hinv _ | .handle _ _ | .through _ => true
    | .sys n _ => n ≥ 2
    | .s _ _ | .p _ _ | .v _ _ | .store _ _ | .post _ | .mgmt _ _ _ | .mgmtLoad _ _ _ | .tlSample _ _ _ _ | .event => false)

/-- A rollback to the armed mark (R340). -/
def rollback (s : State) (c : Nat) (t : TrapRec) : State :=
  let k := s.core c
  let m := k.mark
  let (walks, others) := k.flights.partition Flight.walks
  let keep := others.filter (survivesRollback m.seq)
  let s1 := s.setCore c { k with flights := walks, mark := { m with gated := [] } }
  let s2 := landAll s1 c keep
  let bad := sortBy (fun f => 8 * k.left f + f.slot) (sortBy (·.seq) ((s2.core c).flights.filter (fun f => f.traps && f.seq < m.seq)))
  s2.modCore c (fun k =>
    let sh := k.mark.shadow
    let k1 := { (k.setSys 0 sh.fel).setSys 1 sh.seed with s := sh.s, p := sh.p, v := sh.v, felSeq := sh.felSeq, felHold := sh.felHold }
    let k2 := k1.writeRecord { t with res := 2 } 2 false
    let fz : Frozen := { res := 2, slot := t.slot, sb := false, slots := sh.slots, loops := sh.loops, issues := [], pc := m.adr,
                         rptK := 0, nextIdx := k.nextIdx, brWait := none, seg := none, late := [], drain := .none, ord := k.nextOrd }
    { k2.beginService with frozen := some fz, mark := { k2.mark with poisoned := bad } })

/-- Taking a trap on the core under the step: a continuation without a handler, or in service, is ended; a translation
or permission fault with a mark armed rolls back; every other trap freezes (R328, R329, R336, R340). Where the continuation has no
handler no trap record is written, ILB with it (DEDUCED, log entry 105). A trap taken after
its bundle has issued (R76, R348) lets the results then due land first. -/
def takeTrap (t : TrapRec) (s : State) : State :=
  let c := s.cur
  let s0 : State := ({ s with now := { s.now with raised := some t } } : State).modCore c (fun k =>
    if t.note then { k with downNote := false } else k)
  let s1 := if t.after then landDue s0 c else s0
  let k := s1.core c
  let res := if t.code == 9 || t.code == 10 then (if k.mark.armed then 2 else 1) else t.res
  let t1 := { t with res := res }
  if k.svc then
    let ctx := k.ctxOf
    endContinuation ((s1.modCore c (fun k => k.writeRecord t1 res false)).report 1 c ctx (trapc t1 res false).toNat (t1.adr % 2 ^ 48) (t1.va % 2 ^ 57)) c
  else if wbits (k.sysReg 6) 4 44 == 0 then endContinuation s1 c
  else if (t.code == 9 || t.code == 10) && k.mark.armed then rollback s1 c t1
  else freeze s1 c t1

/-- A trap found at dispatch or at a target: taken once every slot has completed its queued issues of earlier bundles
(R59, R76). -/
def trapWhenDrained (t : TrapRec) (s : State) : State :=
  let c := s.cur
  let k := s.core c
  if (List.range 8).all (fun i => i == 7 || k.nextIdx ≤ (k.slot i).next) then takeTrap { t with after := true } s
  else s.setCore c { k with drain := .illegal { t with after := true } }

/-! Returning (R334, R340, R349). -/

/-- The return from service: the frozen state is restored and dispatch goes on as RES says. -/
def resume (s : State) (c : Nat) : State :=
  let k := s.core c
  match k.frozen with
  | none => s
  | some fz =>
    let tc := k.sysReg 3
    let res := wbits tc 56 2
    let adr := wbits (k.sysReg 4) 0 48
    let k0 := { k.setSys 3 (wput tc 63 1 0) with
      frozen := none, drain := .none, issues := [], flights := [], other := none, expandLeft := 0, brWait := none, refill := 40, dispAt := none,
      fills := k.fills.filter (fun f => f.2.1 < fz.nextIdx) }
    let restored : Core := { k0 with
      slots := fz.slots, loops := fz.loops, issues := fz.issues, flights := fz.late, pc := fz.pc, rptK := fz.rptK,
      nextIdx := fz.nextIdx, brWait := fz.brWait, seg := fz.seg, refillTo := fz.refillTo, dispAt := fz.dispAt, drain := fz.drain, skipSlots := fz.skips }
    match res with
    | 2 =>
      let idle := fz.slots.map (fun sl => { sl with clk := 0, next := k.nextIdx, waiting := none, reply := none })
      s.setCore c { k0 with slots := idle, loops := fz.loops, pc := k.mark.adr, rptK := 0, seg := none,
                            refillTo := some (k.mark.seg, k.mark.adr) }
    | 3 =>
      let held := match fz.seg with | some g => g.holds adr | none => false
      s.setCore c { restored with
        pc := adr, rptK := 0, brWait := none, dispAt := none, drain := .none
        seg := if held then fz.seg else none
        refillTo := if held then none else some (s.segmentOf (s.ctxAt c) adr (s.rootOf c), adr) }
    | r => s.setCore c { restored with skipSlots := if fz.skip || (r == 1 && wbit tc 62) then fz.slot :: fz.skips else fz.skips }

/-- Every slot of core c has completed its queued issues, every result has landed and every access is done (R82, R349). -/
def drained (s : State) (c : Nat) : Bool :=
  let k := s.core c
  (List.range 8).all (fun i => k.nextIdx ≤ (k.slot i).next) && k.flights.isEmpty && k.elems.isEmpty
    && !s.fabric.any (fun r => r.core == c && !r.wantReply) && !k.h.any (fun (_, h) => h.state == 1)

end Sys2Proof.Machine
end

