-- ==== Sys2Proof/Machine/Operands.lean ====
section
/-! DEFINITION. Operand forms: what an issue does before its own effect (guards, waits), addresses and steps (spec/02
R22 to R25), the checks of an access (spec/12 R193, R199, R211), buffers and their limits (spec/02 R30 to R32), and the waits for a
home (spec/14 R230, R239, R240). -/

namespace Sys2Proof.Machine

/-- Whether the slot of the issue in progress waits for a reply (R230). -/
def State.asked (s : State) : Bool := (s.me.slot s.now.slot).waiting.isSome

/-- An issue (R24, R36): with its guard false, or skipped by eret, it has no effect; otherwise it carries its weight and
has the effect of body. A wait for a reply is never cancelled: its guard counted when the request was sent (R230). -/
def issue (g : Guard) (w : Nat) (s : State) (body : State → State) : State :=
  if (s.me.guardHolds g || s.asked) && !s.now.skip then body { s with now := { s.now with weight := w } } else s

/-- The operation of the issue in progress traps (R330): the record names its slot and bundle. -/
def State.trap (s : State) (t : TrapRec) : State := takeTrap { t with slot := s.now.slot, adr := s.now.adr } s

/-- A scalar result with its latency. -/
def State.result (s : State) (lat : Nat) (d : SReg) (v : Word) : State := s.emit lat (.s d v)

/-- The outcome of a meaning. -/
abbrev Outcome := Host.Outcome State Fault Refusal

/-! Addresses (R22). -/

/-- The step of a memory operation, in bytes, for an access of z bytes. -/
def stepBytes (t : Step) (z : Nat) : Word :=
  match t with
  | .zero => 0
  | .plusZ => BitVec.ofNat 64 z
  | .minusZ => -(BitVec.ofNat 64 z)
  | .plus2Z => BitVec.ofNat 64 (2 * z)
  | .plus4Z => BitVec.ofNat 64 (4 * z)
  | .plus8Z => BitVec.ofNat 64 (8 * z)
  | .bytes w => w.signExtend 64
/-- The step of an AT operation (R47, R228). -/
def atStep (x : Option W32) : Word := match x with | some w => w.signExtend 64 | none => 0

/-- The offset from the handle's base: s(O) at installation, A0 + k * step at re-issue k; a slot that waits for a reply
keeps the offset its request was sent with. -/
def State.offset (s : State) (o : SReg) (step : Word) : Word :=
  if s.asked then (s.me.slot s.now.slot).sent
  else if s.now.install then s.me.rs o else s.now.a0 + BitVec.ofNat 64 s.now.k * step

/-- The offset register that an installation latches (R22); 0 for an operation without one. -/
def addressReg (i : Instr) : SReg :=
  match i with
  | .ldb _ _ _ o _ | .ldh _ _ _ o _ | .ldw _ _ _ o _ | .ldd _ _ _ o _ | .ldbz _ _ _ o _ | .ldhz _ _ _ o _ | .ldwz _ _ _ o _
  | .stb _ _ _ o _ | .sth _ _ _ o _ | .stw _ _ _ o _ | .std _ _ _ o _ | .ldfe _ _ _ o _ | .stef _ _ _ o _ | .ldff _ _ _ o _
  | .stff _ _ _ o _ => o
  | .vld _ _ _ o _ | .vst _ _ _ o _ | .vldb _ _ _ o _ | .wld4 _ _ _ o _ | .wld8 _ _ _ o _ => o
  | .ldc _ _ _ o _ | .stc _ _ _ o _ => o
  | .cbcfg _ _ o _ => o
  | .feset _ _ o _ | .feclr _ _ o _ => o
  | .ldacq _ _ _ o _ _ | .strel _ _ _ o _ _ => o
  | .amoaddW _ _ _ o _ _ _ | .amoaddD _ _ _ o _ _ _ | .amoandW _ _ _ o _ _ _ | .amoandD _ _ _ o _ _ _
  | .amoorW _ _ _ o _ _ _ | .amoorD _ _ _ o _ _ _ | .amoxorW _ _ _ o _ _ _ | .amoxorD _ _ _ o _ _ _
  | .amominW _ _ _ o _ _ _ | .amominD _ _ _ o _ _ _ | .amomaxW _ _ _ o _ _ _ | .amomaxD _ _ _ o _ _ _
  | .amominzW _ _ _ o _ _ _ | .amominzD _ _ _ o _ _ _ | .amomaxzW _ _ _ o _ _ _ | .amomaxzD _ _ _ o _ _ _
  | .amoswpW _ _ _ o _ _ _ | .amoswpD _ _ _ o _ _ _ | .amofaddW _ _ _ o _ _ _ => o
  | .amocasW _ _ _ o _ _ _ | .amocasD _ _ _ o _ _ _ => o
  | .tktwait _ _ _ o | .scld _ _ _ o _ | .scst _ _ _ o _ | .scaddW _ _ _ o _ | .scaddD _ _ _ o _ => o
  | .tktdone _ _ o | .wbinv _ _ o | .pfl2 _ _ o => o
  | _ => 0

/-! The checks of an access. -/

/-- The trap record of a failed use of a handle. -/
def handleTrap (h : Nat) (hd : Handle) (code cause va : Nat) : TrapRec :=
  { code := code, cause := cause, res := 1, hnd := h, gen := hd.gen.toNat, va := va }

/-- The alignment an access of z bytes needs (R193, R211). -/
def alignment (z : Nat) : Nat := max 1 (min z 256)

/-- R193: an access of z bytes at offset o of the scratchpad. -/
def checkScratch (o z : Nat) : Access :=
  if o + z > 0x100000 then .trap { code := 8, cause := 2, res := 1, hnd := 15, va := o }
  else if o % alignment z != 0 then .trap { code := 8, cause := 3, res := 1, hnd := 15, va := o }
  else .ok (.scratch o)

/-- The spaces of the management core take only aligned loads and stores of 8 bytes (R354, R363). -/
def checkSpace (h o : Nat) (plain8 : Bool) : Access :=
  if !plain8 || o ≥ (if h == 14 then 0x200000 else 0x400000) then .trap { code := 8, cause := 2, res := 1, hnd := h, va := o }
  else if o % 8 != 0 then .trap { code := 8, cause := 3, res := 1, hnd := h, va := o }
  else .ok (.space (h == 13) o)

/-- R211 for a translated handle and an agent; no agent, no check of permissions. -/
def checkHandle (s : State) (c h : Nat) (hd : Handle) (agent : Option MemAgent) (o z : Nat) (write atomic : Bool) : Access :=
  let va := hd.vbase.toNat + o
  match hd.state with
  | 0 => .trap (handleTrap h hd 8 1 0)
  | 1 => .wait
  | 2 =>
    if o + z > hd.limit then .trap (handleTrap h hd 8 2 va)
    else if va % alignment z != 0 then .trap (handleTrap h hd 8 3 va)
    else
      match agent.bind (fun a => permRefusal a write atomic hd.ronly hd.leaf.toNat) with
      | some cause => .trap (handleTrap h hd 10 cause va)
      | none =>
        let pa := hd.pbase + o
        if agent.isSome && regionOf pa == .aperture then .trap (handleTrap h hd 10 1 va)
        else .ok (.mem pa (s.leafHome (s.core c).partOf hd.leaf.toNat pa).1 hd.leaf.toNat)
  | _ => .trap (handleTrap h hd 9 hd.cause va)

/-- The checks of R229 for an access of z bytes at offset o of handle h; plain8 tells a plain load or store of 8 bytes. -/
def State.access (s : State) (c h : Nat) (o : Word) (z : Nat) (write atomic plain8 : Bool) : Access :=
  if h == 15 then checkScratch o.toNat z
  else if isMgmt c && (h == 13 || h == 14) then checkSpace h o.toNat plain8
  else checkHandle s c h (s.handle c h) (some .core) o.toNat z write atomic

/-- A plain load with a register destination needs a pinned page of the core's own bulkhead (R199): 0, or the cause of
the far-register-load trap. -/
def farCause (s : State) (c hi pa : Nat) : Nat :=
  let own := bits hi 37 1 == 0 && (s.leafHome (s.core c).partOf hi pa).1 == bulkOf c
  if !own then 1 else if bits hi 35 2 != 2 then 2 else 0

/-- What a use of a handle does once its checks have passed; pending handles stall the slot (R25), failed checks trap. -/
def State.using (s : State) (a : Access) (body : Target → State) : State :=
  match a with
  | .ok t => body t
  | .wait => s.stall
  | .trap t => s.trap t

/-! What the core's own loads see (R339, R227): its gated stores, and its posted stores on their way. -/

/-- Writes a store request into memory, without the checks of its home. -/
def State.applyStore (s : State) (r : Req) : State :=
  s.physWrite r.part r.pa (r.overlay (s.mem.read r.pa r.data.length))

/-- Gated bytes over a range of memory, as data and mask of a read request. -/
def gatedOver (k : Core) (pa n : Nat) : List Byte × List Byte :=
  let reqs := k.mark.gated.filterMap (·.req)
  let one (a : Nat) : Byte × Byte := reqs.foldl (fun (v : Byte × Byte) (r : Req) =>
    if r.pa ≤ a && a < r.pa + r.data.length then
      let m := r.masked.getD (a - r.pa) 0
      (maskByte v.1 (r.data.getD (a - r.pa) 0) m, v.2 ||| m)
    else v) (0, 0)
  let cells := (List.range n).map (fun i => one (pa + i))
  if cells.all (·.2 == 0) then ([], []) else (cells.map (·.1), cells.map (·.2))

/-- Performs the due stores of the core that overlap a scratchpad range (R219): what a read-modify-write of the same
cycle in a higher slot sees. -/
def settleBytes (s : State) (off n : Nat) : State :=
  let hits (f : Flight) : Bool := s.me.isDue f && (match f.what with
    | .bytes o d | .store o d => o < off + n && off < o + d.length
    | _ => false)
  (sortBy (·.seq) (s.me.flights.filter hits)).foldl (fun t f => landOne t t.cur f)
    (s.modMe (fun k => { k with flights := k.flights.filter (fun f => !hits f) }))

/-! Buffers (R30 to R32). -/

/-- The trap of a buffer operation. -/
def cbTrap (cause : Nat) (va : Nat := 0) : TrapRec := { code := 8, cause := cause, res := 1, va := va }

/-- The limits that hold before a buffer operation of n elements would wait: unconfigured, or n above CAP (R30, R32). -/
def cbLimit (b : Cb) (n : Nat) : Option TrapRec :=
  if !b.conf then some (cbTrap 4) else if n > b.cap then some (cbTrap 2) else none

def Cb.elemAddr (b : Cb) (i : Nat) : Nat := b.base + (i % max 1 b.cap) * 2 ^ b.esz
def Cb.size (b : Cb) : Nat := 2 ^ b.esz

/-- A consumer fires: CNT and CON change at once (R30). -/
def Cb.consume (b : Cb) (n : Nat) : Cb := { b with cnt := b.cnt - n, con := (b.con + n) % max 1 b.cap }
/-- A producer fires: ROOM and PRD change at once (R30). -/
def Cb.produce (b : Cb) (n : Nat) : Cb := { b with room := b.room - n, prd := (b.prd + n) % max 1 b.cap }

/-- A consumer of n elements (R30): a limit traps, too few elements stall, otherwise it fires and body follows with the
buffer as it was. -/
def State.consuming (s : State) (cb n : Nat) (body : State → Cb → State) : State :=
  let b := s.me.cbReg cb
  match cbLimit b n with
  | some t => s.trap t
  | none => if b.cnt < n then s.stall else body (s.modMe (fun k => k.setCb cb (b.consume n))) b
/-- A producer of n elements (R30). -/
def State.producing (s : State) (cb n : Nat) (body : State → Cb → State) : State :=
  let b := s.me.cbReg cb
  match cbLimit b n with
  | some t => s.trap t
  | none => if b.room < n then s.stall else body (s.modMe (fun k => k.setCb cb (b.produce n))) b

/-- The bytes of one element as the core sees it, and whether it is marked (R193, R233). -/
def Core.element (k : Core) (b : Cb) (i : Nat) : List Byte × Bool :=
  let v := k.gatedView
  (v.scratchRead (b.elemAddr i) b.size, v.scratchPoisoned (b.elemAddr i) b.size)
/-- n elements from CON on. -/
def Core.elements (k : Core) (b : Cb) (n : Nat) : List (List Byte) := (List.range n).map (fun i => (k.element b (b.con + i)).1)
def Core.elementsPoisoned (k : Core) (b : Cb) (n : Nat) : Bool := (List.range n).any (fun i => (k.element b (b.con + i)).2)

/-- The trap of a consumer of n elements, one of which is marked (R217, R233): by poison, or by a bulkhead that was down (R311). -/
def poisonElem (k : Core) (b : Cb) (n : Nat := 1) : TrapRec :=
  let down := (List.range n).any (fun i => anyMarked k.downs (b.elemAddr (b.con + i)) b.size)
  { code := 5, cause := if down then 2 else 1, res := 1, va := b.elemAddr b.con }

/-! What a slot takes next (R20, R21). -/

/-- The issue that a slot takes next. -/
def Core.issueAt (k : Core) (i : Nat) : Option Issue := k.issues.find? (fun q => q.idx == (k.slot i).next)
/-- The operation of slot i in an issue, and whether it is installed or executed anew (R20, R21). -/
def Issue.operation (q : Issue) (i : Nat) (sl : SlotSt) : Option (Instr × Bool) :=
  let new := (q.syls.find? (fun y => y.1 == i)).map (·.2)
  if i ≤ 1 then new.map (fun op => (op, true))
  else if i == 7 then (if q.last then new.map (fun op => (op, true)) else none)
  else match new with
    | some op => if q.first then some (op, true) else sl.op.map (fun o => (o, false))
    | none => sl.op.map (fun o => (o, false))

/-! Waiting for homes (R230, R239, R240). -/

/-- The slots that a place in issue order refers to: in service, issues of the frozen program are in the frozen state. -/
def Core.slotsAt (k : Core) (idx : Nat) : List SlotSt :=
  match k.frozen with
  | some f => if idx < f.nextIdx then f.slots else k.slots
  | none => k.slots
/-- Whether an operation of slot i can make an access that a release waits for: in SA and SB the sysw (R306), in VX the vtld. -/
def accessIn (i : Nat) (op : Instr) : Bool :=
  match op with
  | .nop | .idle => false
  | .sysw _ _ _ => i ≤ 1
  | .vtld _ _ _ => true
  | _ => i == 2 || i == 3 || i == 5 || i == 6
/-- Whether slot i, at a bundle issue that it has still to take, has an access there. -/
def Core.accessAt (k : Core) (idx i : Nat) : Bool :=
  let issues := k.issues ++ (match k.frozen with | some f => f.issues | none => [])
  match issues.find? (fun q => q.idx == idx) with
  | some q => (match q.operation i ((k.slotsAt idx).getD i {}) with | some (op, _) => accessIn i op | none => false)
  | none => true
/-- Whether every slot with accesses has issued what comes before a place in issue order (R223 item 4): memory, vector, matrix
and engine operations, and the sysw of SA and SB (R306). A lower slot that stands at that bundle and has no access in it has none before
the place. -/
def Core.passed (k : Core) (idx slot : Nat) : Bool :=
  [0, 1, 2, 3, 4, 5, 6].all (fun i =>
    let next := ((k.slotsAt idx).getD i {}).next
    i == slot || (if i < slot then idx < next || (idx == next && !k.accessAt idx i) else idx ≤ next))

/-- Whether an access with a home in a bulkhead counts at a scope (R221, R239): every access at dev and sys, those with a home in
the core's own bulkhead at bulk, none at core. -/
def scopeHas (w : Scope) (c home : Nat) : Bool :=
  match w with
  | .core => false
  | .bulk => home == bulkOf c
  | .dev | .sys => true
/-- The home bulkheads of the lines of a range, the first one's given. -/
def State.homesOf (s : State) (part hi home pa n : Nat) : List Nat :=
  home :: ((linesOf pa n).drop 1).map (fun a => (s.leafHome part hi (256 * a)).1)
def State.reqHomes (s : State) (r : Req) : List Nat := s.homesOf r.part r.hi r.home r.pa r.size
/-- Whether a request counts at a scope, by the homes of all its lines; pfl2 is no access. -/
def State.scopeCounts (s : State) (w : Scope) (c : Nat) (r : Req) : Bool :=
  r.op != .fetch && (s.reqHomes r).any (scopeHas w c) && !(w == .bulk && r.toHub)

/-- Whether a result in flight is an access that is not performed yet. -/
def State.landsAt (s : State) (w : Scope) (c : Nat) : Landing → Bool
  | .post r | .through r => s.scopeCounts w c r
  | .bytes _ _ | .store _ _ | .mgmt _ _ _ | .tread _ _ _ => true
  | .sys n _ => n == 0x33
  | _ => false

/-- Whether a slot fills from memory for a tbind before a place in issue order. -/
def TileSlot.fillsBefore (t : TileSlot) (seq : Nat) : Bool := t.filling && t.source.isNone && (match t.seq with | some n => n < seq | none => false)
/-- Whether the accesses that core c has issued before a place in issue order and that count at a scope are performed (R223, R239): its
stores in flight, gated and at homes, its group and task requests, its elements on their way, the reads of its table loads and of the
fills that its tbind started, and the write-backs of its WAYMASK (R306). -/
def State.accessesDone (s : State) (c : Nat) (w : Scope) (seq : Nat) : Bool :=
  let k := s.core c
  !k.unlanded.any (fun f => f.seq < seq && s.landsAt w c f.what)
    && !k.mark.gated.any (fun g => match g.req with | some r => r.seq < seq && s.scopeCounts w c r | none => false)
    && !s.fabric.any (fun r => r.core == c && !r.wantReply && r.cmd.isNone && r.seq < seq && s.scopeCounts w c r)
    && !k.elems.any (fun e => e.seq < seq && e.homes.any (scopeHas w c))
    && !k.tiles.any (fun (_, t) => t.fillsBefore seq && (linesOf t.tag 16640).any (fun a => scopeHas w c (s.leafHome t.part t.hi (256 * a)).1))
/-- Whether every access of core c itself before a place in issue order has issued and, at a wider scope than core, is performed. -/
def State.settled (s : State) (c : Nat) (w : Scope) (idx seq slot : Nat) : Bool :=
  (s.core c).passed idx slot && (w == .core || s.accessesDone c w seq)

/-- The index of the bundle issue at a place in issue order, while slots have still to take it. -/
def Core.indexOf (k : Core) (seq : Nat) : Option Nat :=
  ((k.issues ++ (match k.frozen with | some f => f.issues | none => [])).find? (fun q => q.ord == seq / 8)).map (·.idx)
/-- Whether every access before the sysw of a message has issued and is performed at sys scope (R379). -/
def State.messageReady (s : State) (m : Message) : Bool :=
  let k := s.core m.core
  (match k.indexOf m.seq with | some idx => k.passed idx m.slot | none => true) && s.accessesDone m.core .sys m.seq
/-- Sends the MSI-X messages that are ready (R379). -/
def flushMsix (s : State) : State :=
  let ready := s.msixWait.filter s.messageReady
  { s with msixWait := s.msixWait.filter (fun m => !s.messageReady m), msix := s.msix ++ ready.map (fun m => (m.part, m.vec)) }
/-- Whether every read of core c before a place in issue order has returned (R240): no load result is in flight, no element on
its way, no table load and no fill of a tbind reading still. -/
def State.returned (s : State) (c seq : Nat) : Bool :=
  let k := s.core c
  !k.unlanded.any (fun f => f.seq < seq && (f.hnd != 0 || f.gen != 0 || f.va != 0 || (match f.what with | .mgmtLoad _ _ _ | .tread _ _ _ => true | _ => false)))
    && !k.elems.any (fun e => e.seq < seq) && !k.tiles.any (fun (_, t) => t.fillsBefore seq)

/-- The stores of core c that are about to leave it do so now: in a cycle, those of lower slots, which what comes after them in core
order follows (R219). -/
def settlePosts (s : State) (c : Nat) : State :=
  let k := s.core c
  let hits (f : Flight) : Bool := k.isDue f && (match f.what with | .post _ | .through _ => true | _ => false)
  (sortBy (·.seq) (k.flights.filter hits)).foldl (fun t f => landOne t c f)
    (s.setCore c { k with flights := k.flights.filter (fun f => !hits f) })

/-- The request of a waiting operation goes out behind the core's own stores of the cycle; its slot then waits (R230). A full
interface queue holds it back (R307). -/
def State.ask (s : State) (r : Req) (o : Word) : State :=
  if s.queued s.cur ≥ 16 then s.stall
  else
    let (id, s1) := (settlePosts s s.cur).send r
    (s1.modMe (fun k => k.modSlot s.now.slot (fun sl => { sl with waiting := some id, sent := o }))).stall

/-- A waiting operation: before its request, after its reply. -/
def State.waiting (s : State) (send : State → State) (took : State → Reply → State) : State :=
  let sl := s.me.slot s.now.slot
  if sl.waiting.isNone then send s
  else match sl.reply with
    | none => s.stall
    | some r => took (s.modMe (fun k => k.modSlot s.now.slot (fun y => { y with waiting := none, reply := none }))) r

/-- The trap of a reply that brings poison or a bulkhead that is down (R217, R311). -/
def replyTrap (h va status : Nat) (hd : Handle) : TrapRec :=
  { code := 5, cause := if status == stDown then 2 else 1, res := 1, hnd := h, gen := hd.gen.toNat, va := va }

/-- A request of the core under the step. -/
def State.request (s : State) (op : ReqOp) (size pa home va : Nat) (scope : Scope) (data : List Byte) (hi : Nat := 0) : Req :=
  { hi := hi, born := s.nextReq, core := s.cur, slot := s.now.slot, op := op, size := size, pa := pa, home := home, va := va, data := data, scope := scope,
    part := s.me.partOf, ctx := s.me.ctxOf, idx := s.now.idx, seq := s.now.seq, ways := some (wbits (s.me.sysReg 0x33) 0 16) }

end Sys2Proof.Machine
end

