-- ==== Sys2Proof/Machine/Engine.lean ====
section
/-! DEFINITION. Engine contexts: issuing a command from slot EN, its transfers, and its retirement (spec/17 R276 to R292). -/

namespace Sys2Proof.Machine

/-! Contexts named by tl references (R277, R278). -/

def State.tlctx (s : State) (t : TlReg) : Word := mget 0 s.me.tlctx t.toNat
/-- The engine context that a TLCTX value names for a partition; chan replaces the channel of a bank unit. -/
def State.tlEngine (s : State) (part : Nat) (v : Word) (chan : Option Nat := none) : Nat :=
  engKey (wbits v 20 4) (s.physBulk part (wbits v 24 5)) (chan.getD (wbits v 12 8)) (wbits v 0 6)
/-- The engine context of a reference, checked: it must be granted and of an accepted kind. The channel that the extension
word of a bul puts in place of the reference's is not checked for a grant (DESIGN CHOICE, log entry 99). -/
def State.withEngine (s : State) (t : TlReg) (kinds : List Nat) (chan : Option Nat) (body : Nat → State) : State :=
  let v := s.tlctx t
  if !wbit v 63 then s.trap { code := 8, cause := 6, res := 1 }
  else if !kinds.contains (wbits v 20 4) then s.trap { code := 8, cause := 7, res := 1 }
  else body (s.tlEngine s.me.partOf v chan)

/-! Issuing (R279, R280). -/

/-- Sends a command: EN stalls while the queue is full; the gated stores are performed, and signals disarm the mark. -/
def sendCommand (s : State) (t : TlReg) (kinds : List Nat) (opc k : Nat) (a b : Word) (ext : Option W32)
    (chan : Option Nat := none) (conv : Option (Fmt × Fmt × Rnd) := none) (disarms : Bool := false) (bankf : List Word := []) : State :=
  s.withEngine t kinds chan (fun e =>
    if (s.eng e).queue.length ≥ 64 then s.stall
    else acceptCommand (if disarms then commitDisarm s s.cur else commitGated s s.cur s.now.seq) e
      { num := 0, opc := opc, k := k, a := a, b := b, ext := ext, core := s.cur, ctx := s.me.ctxOf, part := s.me.partOf,
        after := some (s.now.idx, s.now.seq, s.now.slot), conv := conv, bankf := bankf })

/-! Address operands (R281). -/

/-- An operand form whose local range of n bytes fits. -/
def operandFits (v : Word) (n : Nat) : Bool :=
  match operand v with
  | some (true, o) => o + n ≤ 0x100000
  | some (false, _) => true
  | none => false

/-! The scratchpad an engine reaches (R201, R283, R343). -/

def State.setLocal (s : State) (part c : Nat) (k : Core) : State :=
  if (s.imageOf part c).isSome then
    s.modBulk (bulkOf c) (fun b => { b with images := b.images.map (fun (p, ks) =>
      if p == part then (p, ks.map (fun (i, j) => if i == c then (i, k) else (i, j))) else (p, ks)) })
  else s.setCore c k

/-- An entry of an arrival log for a write (R343): kind 1 steep write, 2 fill write. -/
def logWrite (s : State) (x kind c off : Nat) (data : List Byte) (fill : Bool) (bad : List (Nat × Nat)) (more : List Nat) : Nat × State :=
  let (ok, t) := appendLog s (BitVec.ofNat 64 (kind * 2 ^ 60 + c % 8 * 2 ^ 57 + c / 8 % 32 * 2 ^ 52 + off))
    (BitVec.ofNat 64 data.length) { ctx := x, kind := kind, core := c, tgt := off, data := data, fill := fill, bad := bad, more := more }
  (if ok then 0 else 4, t)

/-- A write in the local form lands in the live bank; with the fill flag, words written in full become full, and more, those that it
completes. -/
def writeLocal (s : State) (part x c off : Nat) (data : List Byte) (fill : Bool) (bad : List (Nat × Nat)) (more : List Nat := []) : Nat × State :=
  if fill && (s.imageOf part c).isSome then logWrite s x 2 c off data fill bad more
  else (0, s.setLocal part c ((s.localCore part c).liveWrite off data fill bad more))

/-- A write into the steep bank of a core through its window (R201); a core whose image is saved takes it in the arrival
log of the context that ran on it last. -/
def landWindow (s : State) (part c off : Nat) (data : List Byte) (fill : Bool) (bad : List (Nat × Nat)) (more : List Nat := []) : Nat × State :=
  let k := s.localCore part c
  let w := k.sysReg 0x30
  let base := wbits w 0 5 * 0x8000
  if !wbit w 8 || off < base || off + data.length > base + 0x8000 then (4, s)
  else if (s.imageOf part c).isSome then logWrite s k.lastCtx 1 c off data fill bad more
  else (0, s.setCore c (k.steepWrite (off - base) data fill bad (more.map (· - base / 8))))

/-! Transfers (R282). -/

/-- The agent of an engine context (R278). -/
def engAgent (e : Nat) : MemAgent := if engKind e == 2 then .coll else if engKind e == 3 then .bank else .copy

/-- Who reads: the agent, and the bulkhead of its engine. -/
abbrev Reader := MemAgent × Nat
def engReader (e : Nat) : Reader := (engAgent e, engBulk e)
/-- Reads one piece that lies in one line: its status and bytes. With lead it is the first one of its line: the read counts there as a
read of the line (R302, R304), and a refusal by a sluice is reported (R309). -/
def readPiece (s : State) (c : Command) (w : Reader) (loc lead : Bool) (a n : Nat) : State × Nat × List Byte :=
  if loc then
    let k := s.localCore c.part c.core
    (s, if k.scratchPoisoned a n then 3 else 0, k.scratchRead a n)
  else if a ≥ 2 ^ 57 then (s, 2, List.replicate n 0)
  else match s.translate c.ctx a w.1 false with
    | .error (e, _) => (if lead then s.countWalk c.ctx a else s, e, List.replicate n 0)
    | .ok (pa, l) =>
      match regionOf pa with
      | .aperture | .reserved => (s, 1, List.replicate n 0)
      | .host => (match s.hostAddr c.part pa with
        | some h => (s, 0, s.mem.read h n)
        | none => (s, 2, List.replicate n 0))
      | .peer =>
        let (bs, st, t) := s.homeRead c.part 0 pa n
        (t, if st == stGood then 0 else 5, bs)
      | .hbm | .granary =>
        let home := (s.helperAt w.2 (pa / 256)).getD (s.leafHome c.part l.hi pa).1
        let (bs, st, t) := s.homeRead c.part home pa n
        let seen := if !lead then t else if s.sluice home c.part pa 0 == stPoison then t.report 6 home c.ctx pa else t.readsLines c.ctx c.part l.hi w.2 pa n
        (seen, if st == stGood then 0 else if st == stDown then 5 else 3, bs)

/-- Reads a range in pieces of at most a granule, from offset o of its row. -/
def readPieces (c : Command) (w : Reader) (loc : Bool) (base : Nat) : Nat → State → Bool → Nat → Nat → State × List Piece
  | 0, s, _, _, _ => (s, [])
  | fuel + 1, s, lead, o, n =>
    if n == 0 then (s, [])
    else
      let m := min n (64 - (base + o) % 64)
      let (t, st, bs) := readPiece s c w loc (lead || (base + o) % 256 == 0) (base + o) m
      let (u, ps) := readPieces c w loc base fuel t false (o + m) (n - m)
      (u, { off := o, status := st, bytes := bs } :: ps)
def readRange (s : State) (c : Command) (w : Reader) (op : Bool × Nat) (o n : Nat) : State × List Piece :=
  readPieces c w op.1 op.2 (n / 64 + 2) s true o n
/-- The requests that reading, or writing, n bytes takes, in beats (R307); a local range takes none. -/
def readBeats (loc : Bool) (n : Nat) : Nat := if loc then 0 else (n + 255) / 256
def writeBeats (loc : Bool) (n : Nat) : Nat := if loc then 0 else 2 * ((n + 255) / 256)

/-- The parts of buffered pieces that lie in a range. -/
def slicePieces (ps : List Piece) (o n : Nat) : List Piece :=
  (ps.filter (fun p => p.off < o + n && o < p.off + p.bytes.length)).map (fun p =>
    let lo := max o p.off
    let hi := min (o + n) (p.off + p.bytes.length)
    { p with off := lo, bytes := (p.bytes.drop (lo - p.off)).take (hi - lo) })

/-- The failure that stops a command, if a piece has one; poison is none. -/
def stopOf (ps : List Piece) : Option Nat := (ps.find? (fun p => p.status != 0 && p.status != 3)).map (·.status)
def bytesOf (ps : List Piece) : List Byte := ps.flatMap (·.bytes)
/-- The poisoned parts, relative to an offset. -/
def poisonOf (ps : List Piece) (o : Nat) : List (Nat × Nat) := (ps.filter (fun p => p.status == 3)).map (fun p => (p.off - o, p.bytes.length))

/-! What a command has covered with all its writes (R283, R372). -/

def Command.word (c : Command) (i : Nat) : Word := c.words.getD i 0
/-- The fill flag of a copy (R283, R284). -/
def Command.fills (c : Command) : Bool :=
  match c.opc with
  | 1 => c.k % 2 == 1
  | 2 => wbit (c.word 7) 0
  | _ => false

/-- Ranges (address, bytes), apart from each other, with one more. -/
def addCover (cs : List (Nat × Nat)) (a n : Nat) : List (Nat × Nat) :=
  let near (c : Nat × Nat) : Bool := c.1 ≤ a + n && a ≤ c.1 + c.2
  let lo := (cs.filter near).foldl (fun m c => min m c.1) a
  let hi := (cs.filter near).foldl (fun m c => max m (c.1 + c.2)) (a + n)
  (lo, hi - lo) :: cs.filter (fun c => !near c)
def coveredBy (cs : List (Nat × Nat)) (a n : Nat) : Bool := cs.any (fun c => c.1 ≤ a && a + n ≤ c.1 + c.2)
/-- Where the bytes of a transfer count for what its command covers: words of a scratchpad under the fill flag, with the own core's behind
every physical address, and granules of the granary. -/
def State.coverAt (s : State) (c : Command) (agent : MemAgent) (op : Bool × Nat) (o : Nat) : Option Nat :=
  if op.1 then (if c.fills then some (2 ^ 60 + op.2 + o) else none)
  else match s.translate c.ctx (op.2 + o) agent true with
    | .error _ => none
    | .ok (pa, _) => match regionOf pa with
      | .granary => some pa
      | .aperture => if c.fills then some pa else none
      | .hbm | .host | .peer | .reserved => none
/-- The command once it has written n bytes there. -/
def State.covering (s : State) (c : Command) (agent : MemAgent) (op : Bool × Nat) (o n : Nat) : Command :=
  match s.coverAt c agent op o with
  | some a => { c with cover := addCover c.cover a n }
  | none => c
/-- The words of a range of n bytes at an offset of a scratchpad that it writes in part, and that its command has now written in full; a is
the range's place in what the command covers. -/
def lateWords (cover : List (Nat × Nat)) (a off n : Nat) : List Nat :=
  ((List.range ((off + n - 1) / 8 - off / 8 + 1)).map (· + off / 8)).filter (fun w =>
    (8 * w < off || off + n < 8 * w + 8) && coveredBy cover (8 * w + (a - off)) 8)

/-- The number that stands for the core in a request of an engine. -/
def engineCore : Nat := 2 ^ 20
/-- The write of a command to a peer module is on its way: the peer acknowledges it (R382). -/
def State.awaitPeer (s : State) (e : Nat) (c : Command) (pa n : Nat) : State :=
  let r : Req := { id := s.nextReq, core := engineCore, slot := 0, op := .store, size := n, pa := pa, home := 0, part := c.part, ctx := c.ctx,
                   parked := true, via := s.peerPort pa, sent := s.time, born := s.nextReq, mgmt := true, cmd := some (e, c.num) }
  ({ s with nextReq := s.nextReq + 1, fabric := s.fabric ++ [r] } : State).pend .homeApply { unit := r.id }
/-- Whether a write of a command is not acknowledged yet. -/
def State.unacked (s : State) (e num : Nat) : Bool := s.fabric.any (fun r => r.cmd == some (e, num))

/-- Writes one transfer of a command of engine context e: its error code, 0 for none. -/
def writeTransfer (s : State) (e : Nat) (c : Command) (agent : MemAgent) (op : Bool × Nat) (o : Nat) (data : List Byte) (fill : Bool)
    (bad : List (Nat × Nat)) : Nat × State :=
  let a := op.2 + o
  let late (off : Nat) : List Nat := if !fill then [] else match s.coverAt c agent op o with
    | some key => lateWords (addCover c.cover key data.length) key off data.length
    | none => []
  if op.1 then writeLocal s c.part c.ctx c.core a data fill bad (late a)
  else if a ≥ 2 ^ 57 then (2, s)
  else match s.translate c.ctx a agent true with
    | .error (e, _) => (e, s.countWalk c.ctx a)
    | .ok (pa, l) =>
      match regionOf pa with
      | .aperture =>
        let q := pa % 0x10000000
        (match s.sluice (q / 0x800000) c.part pa 1 with
         | 0 => landWindow s c.part (q / 0x100000) (q % 0x100000) data fill bad (late (q % 0x100000))
         | 2 => (5, s)
         | _ => (1, s.report 6 (q / 0x800000) c.ctx pa))
      | .host => (match s.hostAddr c.part pa with
        | some h => (0, { s with mem := s.mem.write h data })
        | none => (2, s))
      | .reserved => (1, s)
      | .hbm | .granary | .peer =>
        let home := (s.leafHome c.part l.hi pa).1
        let (st, t) := s.homeWrite c.ctx c.part home l.hi pa data false
        if st == stGood then (0, if regionOf pa == .peer then t.awaitPeer e c pa data.length else bad.foldl (fun (u : State) (b, n) => u.physPoison (pa + b) n) t)
        else if st == stDown then (5, s) else (1, s.report 6 home c.ctx pa)

/-- A granary granule that the writes of a command, this one with them, have covered takes the current epoch (R372). c is the command with
what it has covered. -/
def coverGranule (s : State) (c : Command) (agent : MemAgent) (op : Bool × Nat) (o : Nat) : State :=
  match s.coverAt c agent op o with
  | some a => if !op.1 && regionOf a == .granary && coveredBy c.cover (alignDown a 4096) 4096 then s.setEpoch c.part (alignDown a 4096) else s
  | none => s

/-- Whether an address lies on a page that a migration has still to pull (R346): the page is asked for. -/
def State.pulling (s : State) (c : Command) (op : Bool × Nat) (o : Nat) : Option Nat :=
  let va := op.2 + o
  if !op.1 && va < 2 ^ 57 && s.unpulled c.ctx va then some (va / 4096) else none

/-! Commands in the engine. -/

def State.command (s : State) (e num : Nat) : Option Command := (s.eng e).queue.find? (fun c => c.num == num)
def State.setCommand (s : State) (e : Nat) (c : Command) : State :=
  let q := s.eng e
  s.setEng e { q with queue := q.queue.map (fun (d : Command) => if d.num == c.num then c else d) }
/-- A command has its outcome, unless it has one already; it retires in its turn. A bank unit may then take the next one (R317). -/
def finishCommand (s : State) (e : Nat) (c : Command) (err : Nat) : State :=
  match s.command e c.num with
  | some d =>
    if d.done.isSome then s
    else
      let t := (s.setCommand e { c with done := some err, paying := false }).pend .commandRetire { unit := e }
      if engKind e == 3 then t.pendOnce .bankUnitAccept { unit := (e - 0x100000) / 4 } else t
  | none => s
/-- The first failure decides the code. -/
def Command.fail (c : Command) (err : Nat) : Nat := if c.err != 0 then c.err else err

/-- What a piece that must not be poisoned gives: its bytes, or the error that stops the command (R281, R285, R286). -/
def wholePieces (ps : List Piece) : Except Nat (List Byte) :=
  match stopOf ps with
  | some e => .error e
  | none => if ps.any (·.status == 3) then .error 3 else .ok (bytesOf ps)
/-- Whether an operand is local, for what its requests cost. -/
def isLocal (v : Word) : Bool := wbit v 63
/-- Whether there are tokens for the rest of what a command's next requests cost (R307). -/
def State.canPay (s : State) (e : Nat) (c : Command) (cost : Nat) : Bool := s.affords c.ctx (engBulk e) (cost - c.paid)
/-- The requests of a command for which there are tokens leave: reads of one beat, then writes of two up to the whole cost (R307). -/
def State.payPart (s : State) (e : Nat) (c : Command) (reads cost : Nat) : State :=
  let n := s.instalment c.ctx (engBulk e) reads cost c.paid
  (s.charge c.ctx (engBulk e) n).setCommand e { c with paying := true, paid := c.paid + n }
/-- A command waits for the tokens of its next requests. -/
def State.payLater (s : State) (e : Nat) (c : Command) (reads cost : Nat) : State :=
  (s.payPart e c reads cost).pend .engineCommandStart { unit := e, idx := c.num }
/-- The last requests of a command leave: what is not paid yet is paid, and the replies are (R308). -/
def State.pay (s : State) (e : Nat) (c : Command) (requests replies : Nat) : State := s.charge c.ctx (engBulk e) (requests - c.paid + replies)
/-- The command with its requests gone. -/
def Command.sent (c : Command) : Command := { c with paying := false, paid := 0 }

/-- Reads the eight words of a record as a copy-engine read (R281). -/
def readRecordWords (s : State) (e : Nat) (c : Command) (a : Word) : State × Except Nat (List Word) :=
  if !operandFits a 64 then (s, .error 7)
  else match operand a with
    | none => (s, .error 7)
    | some op =>
      let (t, ps) := readRange s c (.copy, engBulk e) op 0 64
      (t.pay e c (readBeats op.1 64) (writeBeats op.1 64), (wholePieces ps).map (fun bs => (List.range 8).map (wordAt bs)))

def Command.len (c : Command) : Nat := match c.ext with | some w => w.toNat | none => 0
/-- The rows of cpy2: middle and outer counts, bytes. -/
def Command.n0 (c : Command) : Nat := wbits (c.word 2) 0 32
def Command.n1 (c : Command) : Nat := wbits (c.word 2) 32 16
def Command.n2 (c : Command) : Nat := wbits (c.word 2) 48 16
def Command.rowSize (c : Command) : Nat := 64 * 2 ^ (c.k % 8)
/-- The tokens and the copies per token of kvw. -/
def Command.tokens (c : Command) : Nat := match c.ext with | some w => w.toNat | none => wbits (c.word 2) 32 32
def Command.planes (c : Command) : Nat := if c.word 4 == 0 then 1 else 2
def Command.tsz (c : Command) : Nat := wbits (c.word 3) 32 16
def Command.tpb (c : Command) : Nat := wbits (c.word 3) 0 16

/-- The rows a command copies. -/
def Command.rows (c : Command) : Nat :=
  match c.opc with
  | 1 => if c.len == 0 then 0 else 1
  | 2 => c.n1 * c.n2
  | 3 | 4 => c.len
  | 5 => c.tokens * c.planes
  | _ => 0
/-- The bytes of one row. -/
def Command.rowBytes (c : Command) : Nat :=
  match c.opc with
  | 1 => c.len
  | 2 => c.n0
  | 3 | 4 => c.rowSize
  | _ => c.tsz

/-- The destination and the source of a row; the table entry of the row is in entry. -/
def Command.rowOps (c : Command) (r : Nat) : Word × Word :=
  let n (i : Nat) : Word := BitVec.ofNat 64 i
  match c.opc with
  | 1 => (c.a, c.b)
  | 2 =>
    let i1 := n (r % c.n1)
    let i2 := n (r / c.n1)
    (c.word 0 + i2 * c.word 6 + i1 * c.word 4, c.word 1 + i2 * c.word 5 + i1 * c.word 3)
  | 3 => (c.a + n (r * c.rowSize), c.entry)
  | 4 => (c.entry, c.b + n (r * c.rowSize))
  | _ =>
    let j := r / c.planes
    let at_ := n (((wbits (c.word 2) 0 32 + j) % c.tpb) * c.tsz)
    if r % c.planes == 0 then (c.word 1 + n (j * c.tsz), c.entry + at_)
    else (c.word 5 + n (j * c.tsz), c.entry + c.word 4 + at_)
/-- Where the table entry of a row stands, if it has one. -/
def Command.entryAt (c : Command) (r : Nat) : Option Word :=
  match c.opc with
  | 3 => some (c.b + BitVec.ofNat 64 (8 * r))
  | 4 => some (c.a + BitVec.ofNat 64 (8 * r))
  | 5 => some (c.word 0 + BitVec.ofNat 64 (8 * ((wbits (c.word 2) 0 32 + r / c.planes) / c.tpb)))
  | _ => none

/-! Converting copies (R283, R97, R194). -/

def isBlock10 (f : Fmt) : Bool := f == .e4m3 || f == .e5m2 || f == .mk8 || f == .i8 || f == .i4
/-- The bytes of a unit in a format; block tells whether units are of 128 elements. -/
def unitBytes (f : Fmt) (block : Bool) : Nat := if isBlock10 f then 256 else if block then 16 * f.width else f.width / 8
/-- The values of one unit. -/
def unitValues (f : Fmt) (bs : List Byte) : List FVal :=
  if isBlock10 f then
    let scale := (bs.getD (16 * f.width) 0).toNat
    (lanesOf f.width 128 (bytesToNat (bs.take (16 * f.width)))).map (fun c =>
      if scale == 0xFF then .nan else scaleNum (decodeNum f c) ((scale : Int) - 127))
  else (lanesOf f.width (8 * bs.length / f.width) (bytesToNat bs)).map (decodeNum f)
/-- A unit in the destination's format. -/
def unitEncode (f : Fmt) (rnd : Rnd) (vs : List FVal) : List Byte :=
  if isBlock10 f then
    let (scale, codes, _) := quantBlock f rnd (fun _ => 0) vs
    natToBytes 256 (packLanes f.width codes + scale * 2 ^ (128 * f.width))
  else
    let codes := vs.map (fun x => (if f.isFloat then roundFloat f rnd 0 .sat x else roundInt f rnd 0 x).1)
    natToBytes (vs.length * f.width / 8) (packLanes f.width codes)
/-- The limits of a converting copy: whole units, each range in one bank. A copy of no bytes meets them. -/
def convertFits (c : Command) (sf df : Fmt) : Bool :=
  c.len == 0 ||
  let block := isBlock10 sf || isBlock10 df
  let su := unitBytes sf block
  let total := c.len / su * unitBytes df block
  c.len % su == 0 && bankOf (wbits c.b 0 20) == bankOf (wbits c.b 0 20 + c.len - 1) && bankOf (wbits c.a 0 20) == bankOf (wbits c.a 0 20 + total - 1)

/-! Starting and stepping (R280 to R287). -/

/-- The checks of a copy command once its record is read: error 6 or 7, or none. -/
def copyCheck (c : Command) : Option Nat :=
  match c.opc with
  | 1 => (match c.conv with
    | some (sf, df, _) => if operandFits c.b c.len && operandFits c.a 0 && convertFits c sf df then none else some 7
    | none => if operandFits c.a c.len && operandFits c.b c.len then none else some 7)
  | 2 =>
    if wbits (c.word 7) 1 63 != 0 then some 6
    else if c.n0 == 0 || c.n0 > 2 ^ 20 || c.n1 == 0 || c.n2 == 0 then some 7
    else if (List.range (c.n1 * c.n2)).all (fun r => operandFits (c.rowOps r).1 c.n0 && operandFits (c.rowOps r).2 c.n0) then none else some 7
  | 3 => if operandFits c.a (c.len * c.rowSize) && operandFits c.b (8 * c.len) then none else some 7
  | 4 => if operandFits c.b (c.len * c.rowSize) && operandFits c.a (8 * c.len) then none else some 7
  | _ =>
    if wbits (c.word 3) 48 16 != 0 || wbits (c.word 3) 16 16 != 0 || c.word 6 != 0 || c.word 7 != 0 then some 6
    else if c.tsz == 0 || c.tpb == 0 || c.tpb > 4096 || wbits (c.word 0) 57 7 != 0 then some 7
    else if operandFits (c.word 1) (c.tokens * c.tsz) && (c.planes == 1 || operandFits (c.word 5) (c.tokens * c.tsz)) then none else some 7

/-- Reads the record that a copy command names. -/
def copyRecord (s : State) (e : Nat) (c : Command) : State × Except Nat Command :=
  if c.opc == 2 || c.opc == 5 then
    let (t, r) := readRecordWords s e c c.a
    (t, r.map (fun ws => { c with words := ws }))
  else (s, .ok c)

/-- The position after a number of delivered units (R287), and back. -/
def Command.seek (c : Command) (done : Nat) : Command :=
  match c.opc with
  | 1 => { c with off := done, row := if done < c.len then 0 else 1 }
  | 2 => { c with row := done / max 1 c.n0, off := done % max 1 c.n0 }
  | 5 => { c with row := done * c.planes }
  | _ => { c with row := done }
def Command.delivered (c : Command) : Nat :=
  match c.opc with
  | 1 => if c.row == 0 then c.off else c.len
  | 2 => c.row * c.n0 + c.off
  | 5 => c.row / c.planes
  | _ => c.row

/-- The words of a restart record that name a command: its reserved bits must be zero, VALID or not (R5, R281); none for a marker. A
copy converts by the formats that the banks had when the cpyr issued (R194). -/
def restartCommand (c : Command) (ws : List Word) : Except Nat (Option Command) :=
  let w0 := ws.getD 0 0
  let opc := wbits w0 0 8
  if wbits w0 11 52 != 0 || wbits (ws.getD 3 0) 32 32 != 0 || (ws.drop 5).any (· != 0) then .error 6
  else if !wbit w0 63 then .ok none
  else if opc == 0 || opc > 5 then .error 6
  else
    let x := BitVec.ofNat 32 (wbits (ws.getD 3 0) 0 32)
    let a := ws.getD 1 0
    let b := ws.getD 2 0
    .ok (some { c with opc := opc, k := wbits w0 8 3, a := a, b := b, ext := if opc == 5 && x == 0 then none else some x, restart := some c.a,
                       conv := if opc == 1 then copyFormats c.bankf a b else none })
/-- cpyr takes over the command of a restart record (R287): none for a marker. -/
def fromRestart (s : State) (e : Nat) (c : Command) : State × Except Nat (Option Command) :=
  let (t, r) := readRecordWords s e c c.a
  match r with
  | .error x => (t, .error x)
  | .ok ws =>
    match restartCommand c ws with
    | .error x => (t, .error x)
    | .ok none => (t, .ok none)
    | .ok (some d) =>
      let (u, q) := copyRecord t e d.sent
      (u, q.map (fun d1 => some (d1.seek (ws.getD 4 0).toNat)))

/-- Whether a migration has still to pull a page that a range of an operand lies on (R346): the first such page. -/
def State.pullingRange (s : State) (c : Command) (w : Word) (n : Nat) : Option Nat :=
  match operand w with
  | some (false, a) => ((List.range (n / 4096 + 2)).map (fun i => max a (alignDown a 4096 + 4096 * i))).findSome? (fun va =>
      if va < a + n then s.pulling c (false, va) 0 else none)
  | _ => none
/-- A command waits for a page that a migration pulls. -/
def State.awaitPage (s : State) (e : Nat) (c : Command) (page : Nat) : State :=
  (s.pendOnce .migrationPagePull { unit := c.ctx, idx := page }).pend .engineCommandStart { unit := e, idx := c.num }

/-- The page of the table entry of the row that is reached, while it has to be pulled. -/
def State.entryPage (s : State) (c : Command) : Option Nat := (c.entryAt c.row).bind (fun a => s.pullingRange c a 8)

/-- The command that a cpyr takes over, while its restart record can be read. -/
def State.resumed (s : State) (e : Nat) (c : Command) : Option Command :=
  match (readRecordWords s e c c.a).2 with
  | .ok ws => (match restartCommand c ws with | .ok d => d | .error _ => none)
  | .error _ => none
/-- The records that a copy command reads when it begins: its own, for a cpyr also that of the command that it takes over. -/
def State.records (s : State) (e : Nat) (c : Command) : List Word :=
  if c.opc == 2 || c.opc == 5 then [c.a]
  else if c.opc == 6 then c.a :: (match s.resumed e c with
    | some d => if d.opc == 2 || d.opc == 5 then [d.a] else []
    | none => [])
  else []
/-- A copy command begins: its record is read and checked, once a migration has pulled its page (R346). -/
def startCopy (s : State) (e : Nat) (c : Command) : State :=
  let go (t : State) (d : Command) : State :=
    match copyCheck d with
    | some err => finishCommand t e d err
    | none => (t.setCommand e { d with started := true }).pend .engineCommandStart { unit := e, idx := c.num }
  let page := (s.records e c).findSome? (fun a => s.pullingRange c a 64)
  let cost := ((s.records e c).map (fun a => readBeats (isLocal a) 64)).sum
  if page.isSome then s.awaitPage e c (page.getD 0)
  else if !s.canPay e c cost then s.payLater e c cost cost
  else if c.opc == 6 then
    match fromRestart s e c with
    | (t, .error err) => finishCommand t e c err
    | (t, .ok none) => finishCommand t e c 0
    | (t, .ok (some d)) => go t d.sent
  else match copyRecord s e c with
    | (t, .error err) => finishCommand t e c err
    | (t, .ok d) => go t d.sent

/-- A copy command has copied its last row. -/
def endCopy (s : State) (e : Nat) (c : Command) : State := finishCommand s e c c.err
/-- The record of a cpyr that retires without error: VALID := 0 (R287). -/
def clearRestart (s : State) (e : Nat) (c : Command) : State :=
  match c.restart.bind operand with
  | some op => (writeTransfer (s.pay e c (writeBeats op.1 8) 0) e c .copy op 0 (natToBytes 8 (c.opc + c.k * 2 ^ 8)) false []).2
  | none => s

/-- The places of some units' output that come from poisoned places of their input (R282): an element, or the whole unit where its
scale, or a scale of its own, comes from one. Places are (offset, bytes). -/
def convertBad (sf df : Fmt) (su du n : Nat) (bad : List (Nat × Nat)) : List (Nat × Nat) :=
  (List.range n).flatMap (fun j =>
    let hit (a m : Nat) : Bool := bad.any (fun (o, k) => overlaps o k (j * su + a) m)
    if isBlock10 sf && !isBlock10 df && !hit (16 * sf.width) 1 then
      ((List.range 128).filter (fun i => hit (i * sf.width / 8) 1)).map (fun i => (j * du + i * df.width / 8, df.width / 8))
    else if hit 0 su then [(j * du, du)] else [])
/-- The parts of places that lie in a range, relative to it. -/
def clipPlaces (bad : List (Nat × Nat)) (o n : Nat) : List (Nat × Nat) :=
  (bad.filter (fun (a, m) => a < o + n && o < a + m)).map (fun (a, m) => (max a o - o, min (a + m) (o + n) - max a o))

/-- One step of a converting copy: the bytes of its output up to the next 256-byte boundary, from the units that give them (R282,
R283). -/
def convertStep (s : State) (e : Nat) (c : Command) (sf df : Fmt) (rnd : Rnd) : State :=
  let block := isBlock10 sf || isBlock10 df
  let su := unitBytes sf block
  let du := unitBytes df block
  let total := c.len / su * du
  let done := max c.wrote (c.off / su * du)
  if total ≤ done then endCopy s e c
  else
    let dst := wbits c.a 0 20
    let m := min (total - done) (256 - (dst + done) % 256)
    let u := done / du
    let n := (done + m + du - 1) / du - u
    let op : Bool × Nat := (true, wbits c.b 0 20)
    let c1 := if done == 0 && overlaps op.2 c.len dst total then { c with buffer := (readRange s c (engReader e) op 0 c.len).2 } else c
    let ps := if c1.buffer.isEmpty then (readRange s c (engReader e) op (u * su) (n * su)).2 else slicePieces c1.buffer (u * su) (n * su)
    let out := (((chunks su n (bytesOf ps)).flatMap (fun b => unitEncode df rnd (unitValues sf b))).drop (done - u * du)).take m
    let bad := clipPlaces (convertBad sf df su du n (poisonOf ps (u * su))) (done - u * du) m
    let c2 := { c1 with wrote := done + m, off := (done + m) / du * su, err := if ps.any (·.status == 3) then c.fail 3 else c.err }
    match writeLocal s c.part c.ctx c.core (dst + done) out c.fills bad with
    | (0, t) => (t.setCommand e c2).pend .engineCommandStart { unit := e, idx := c.num }
    | (err, t) => finishCommand t e c1 (c1.fail err)

/-- The row or token that a table entry serves. -/
def Command.token (c : Command) (r : Nat) : Nat := if c.opc == 5 then r / c.planes else r
/-- The table entry of the row that is reached: it is read once for its row or token (R285, R286). -/
def rowEntry (s : State) (e : Nat) (c : Command) : State × Except Nat Word :=
  match c.entryAt c.row with
  | none => (s, .ok 0)
  | some a =>
    if c.begun.map c.token == some (c.token c.row) then (s, .ok c.entry)
    else match operand a with
      | none => (s, .error 7)
      | some op =>
        let (t, ps) := readRange s c (engReader e) op 0 8
        (t.pay e c (readBeats op.1 8) (writeBeats op.1 8), (wholePieces ps).map bytesToWord)
/-- A row begins: its table entry is read and its source buffered where it overlaps the destination. The error stops
the command. -/
def beginRow (s : State) (e : Nat) (c : Command) : State × Except Nat Command :=
  match rowEntry s e c with
  | (t, .error x) => (t, .error x)
  | (t, .ok w) =>
    if c.opc == 5 && w == 0 then (t, .error 9)
    else if (c.entryAt c.row).isSome && (operand w).isNone then (t, .error 7)
    else
      let d := { c.sent with entry := w, buffer := [], begun := some c.row }
      let (da, sa) := d.rowOps d.row
      match operand da, operand sa with
      | some p, some q =>
        if !operandFits da d.rowBytes || !operandFits sa d.rowBytes then (t, .error 7)
        else if p.1 == q.1 && p.2 != q.2 && overlaps p.2 d.rowBytes q.2 d.rowBytes then
          let (u, ps) := readRange t d (engReader e) q 0 d.rowBytes
          (u, .ok { d with buffer := ps })
        else (t, .ok d)
      | _, _ => (t, .error 7)

/-- The page that a row has to wait for before it begins: that of its table entry, or one of a source that is to be buffered (R346). -/
def State.rowPage (s : State) (e : Nat) (c : Command) : Option Nat :=
  match s.entryPage c with
  | some page => some page
  | none => match (beginRow s e c).2 with
    | .ok d => if d.buffer.isEmpty then none else s.pullingRange d (d.rowOps d.row).2 d.rowBytes
    | .error _ => none

/-- The n bytes at the command's offset are read and written (R282, R285): a poisoned piece marks its destination, a failure
stops the command. -/
def transferPart (s : State) (e : Nat) (d : Command) (p q : Bool × Nat) (n : Nat) : State :=
  let (s1, ps) := if d.buffer.isEmpty then readRange s d (engReader e) q d.off n else (s, slicePieces d.buffer d.off n)
  match stopOf ps with
  | some err => finishCommand s1 e d (d.fail err)
  | none =>
    let bad := poisonOf ps d.off
    let d1 := if bad.isEmpty then d else { d with err := d.fail 3 }
    match writeTransfer s1 e d (engAgent e) p d.off (bytesOf ps) d.fills bad with
    | (0, t) =>
      let d3 := s1.covering d1 (engAgent e) p d.off n
      let d2 := if d.off + n < d.rowBytes then { d3 with off := d.off + n } else { d3 with row := d.row + 1, off := 0, buffer := [] }
      ((coverGranule t d3 (engAgent e) p d.off).setCommand e d2).pend .engineCommandStart { unit := e, idx := d.num }
    | (err, t) => finishCommand t e d1 (d1.fail err)

/-- One transfer of a command that has started, to its next 256-byte boundary of the destination. It waits for a page that a
migration pulls (R346), and for the tokens of its requests (R307). -/
def copyTransfer (s : State) (e : Nat) (c : Command) : State :=
  if c.rows ≤ c.row then endCopy s e c
  else if c.begun != some c.row && (s.rowPage e c).isSome then s.awaitPage e c ((s.rowPage e c).getD 0)
  else if c.begun != some c.row && (c.entryAt c.row).isSome && !s.canPay e c 1 then s.payLater e c 1 1
  else match (if c.begun == some c.row then (s, .ok c) else beginRow s e c) with
    | (t, .error err) => finishCommand t e c (c.fail err)
    | (t, .ok d) =>
      let (da, sa) := d.rowOps d.row
      match operand da, operand sa with
      | some p, some q =>
        let n := min (d.rowBytes - d.off) (256 - (p.2 + d.off) % 256)
        let cost := readBeats q.1 n + writeBeats p.1 n
        match t.pulling d q d.off, t.pulling d p d.off with
        | some page, _ | none, some page => (t.setCommand e d).awaitPage e d page
        | none, none =>
          if !t.canPay e d cost then t.payLater e d (readBeats q.1 n) cost
          else transferPart (t.pay e d cost (writeBeats q.1 n)) e d.sent p q n
      | _, _ => finishCommand t e d (d.fail 7)

/-! Collectives (R288). -/

def collHead (c : Contribution) : Word := c.head
def collNm (h : Word) : Nat := wbits h 32 16
def collRank (h : Word) : Nat := wbits h 16 16
/-- NM, OP, FMT and RND, in which members must agree. -/
def collShape (h : Word) : Nat := wbits h 32 27
def Contribution.same (c : Contribution) (part group : Nat) (key : Word) : Bool := c.part == part && c.group == group && c.key == key
def collFmt (h : Word) : Fmt := match wbits h 48 4 with | 1 => .bf16 | 8 => .i32 | _ => .f32

/-- Completes the command of a contribution. -/
def endContribution (s : State) (c : Contribution) (err : Nat) : State :=
  match s.command c.eng c.num with
  | some m => finishCommand s c.eng m (m.fail err)
  | none => s

/-- Error 6, 7 or 11 of a collective record. -/
def collCheck (opc : Nat) (ws : List Word) : Option Nat :=
  let h := ws.getD 0 0
  if wbits h 59 5 != 0 || wbits h 56 3 > 3 || (opc == 0x40 && wbits h 52 4 > 2) || (opc == 0x41 && wbits h 52 4 != 0)
      || !(wbits h 48 4 == 0 || wbits h 48 4 == 1 || wbits h 48 4 == 8) || wbits (ws.getD 3 0) 32 32 != 0 || (ws.drop 5).any (· != 0) then some 6
  else
    let len := wbits (ws.getD 3 0) 0 32
    let out := if opc == 0x41 then len * collNm h else len
    if collNm h == 0 || collNm h > 256 || len % 256 != 0 || !operandFits (ws.getD 1 0) len || !operandFits (ws.getD 2 0) out then some 7
    else if collRank h ≥ collNm h then some 11
    else none

/-- A member's share, as read, reaches its instance. -/
def shareArrives (s : State) (e : Nat) (c : Command) (ps : List Piece) : State :=
  let h := c.word 0
  let group := wbits h 0 16
  let key := c.word 4
  let len := wbits (c.word 3) 0 32
  let others := s.contribs.filter (fun x => x.same c.part group key)
  let me : Contribution := { part := c.part, group := group, key := key, eng := e, num := c.num, opc := c.opc, head := h, len := len,
                             dst := c.word 2, core := c.core, ctx := c.ctx, data := ps }
  let s1 := s.setCommand e { c.sent with started := true }
  if !s.bulkUp (s.physBulk c.part (group % max 1 (s.partCount c.part))) then finishCommand s e c 5
  else if others.any (fun x => collRank x.head == collRank h) then finishCommand s e c 11
  else if others.any (fun x => x.num == 0 || x.opc != c.opc || collShape x.head != collShape h || x.len != len) then
    let err := if others.any (fun x => x.num == 0 && x.err == 5) then 5 else 10
    let s2 := (others.filter (·.num != 0)).foldl (fun t x => endContribution t x err) (finishCommand s1 e { c with started := true } err)
    let most := (others.map (fun x => collNm x.head)).foldl max (collNm h)
    let keep := if others.length + 1 ≥ most then [] else others.map (fun x => { x with num := 0, err := err }) ++ [{ me with num := 0, err := err }]
    { s2 with contribs := s2.contribs.filter (fun x => !x.same c.part group key) ++ keep }
  else
    let s2 : State := { s1 with contribs := s1.contribs ++ [me] }
    if others.length + 1 == collNm h then s2.pend .collectiveResult { unit := c.part, idx := group, value := key } else s2

/-- A collective command: its record is read and checked, then its share, each once there are tokens for it (R307), and once what a
migration pulls is there (R346). -/
def contribute (s : State) (e : Nat) (c : Command) : State :=
  let fresh := c.words.isEmpty
  let share := c.word 1
  let len := wbits (c.word 3) 0 32
  match (if fresh then s.pullingRange c c.a 64 else s.pullingRange c share len) with
  | some page => s.awaitPage e c page
  | none =>
    let cost := if fresh then readBeats (isLocal c.a) 64 else readBeats (isLocal share) len
    if !s.canPay e c cost then s.payLater e c cost cost
    else if fresh then
      match readRecordWords s e c c.a with
      | (t, .error err) => finishCommand t e c err
      | (t, .ok ws) =>
        (match collCheck c.opc ws with
         | some err => finishCommand t e c err
         | none => (t.setCommand e { c.sent with words := ws }).pend .engineCommandStart { unit := e, idx := c.num })
    else match operand share with
      | none => finishCommand s e c 7
      | some op =>
        let (t, ps) := readRange (s.pay e c (readBeats op.1 len) (writeBeats op.1 len)) c (.coll, engBulk e) op 0 len
        match stopOf ps with
        | some err => finishCommand t e c err
        | none => shareArrives t e c ps

/-- One element reduced over the ranks (R288). -/
def reduceElem (f : Fmt) (op rnd : Nat) (codes : List Nat) : Nat :=
  match codes with
  | [] => 0
  | c0 :: rest =>
    if f == .i32 then
      let vs := codes.map (sxNat 32)
      let v : Int := match op with
        | 0 => vs.foldl (· + ·) 0
        | 1 => vs.foldl max (sxNat 32 c0)
        | _ => vs.foldl min (sxNat 32 c0)
      (BitVec.ofInt 32 (max (-(2 ^ 31)) (min (2 ^ 31 - 1) v))).toNat
    else
      let a := rest.foldl (fun (a : FVal) c =>
        let x := decodeNum f c
        match op with
        | 0 => (addF32 a x).1
        | 1 => if isNaN a || isNaN x then .nan else if ltRank a x then x else a
        | _ => if isNaN a || isNaN x then .nan else if ltRank x a then x else a) (decodeNum f c0)
      (roundNum f ([Rnd.rne, .rtz, .rdn, .rup].getD rnd .rne) 0 a).1

/-- The result of an instance as pieces, with the poison of the shares it comes from. -/
def collData (cs : List Contribution) (opc len : Nat) (h : Word) : List Byte × List (Nat × Nat) :=
  let ranked := (List.range (collNm h)).filterMap (fun r => cs.find? (fun c => collRank c.head == r))
  if opc == 0x41 then
    (ranked.flatMap (fun c => bytesOf c.data),
     (ranked.zipIdx).flatMap (fun (c, r) => (poisonOf c.data 0).map (fun (o, n) => (o + r * len, n))))
  else
    let f := collFmt h
    let cols := transposeCols (len * 8 / f.width) (ranked.map (fun c => lanesOf f.width (len * 8 / f.width) (bytesToNat (bytesOf c.data))))
    (natToBytes len (packLanes f.width (cols.map (reduceElem f (wbits h 52 4) (wbits h 56 3)))), ranked.flatMap (fun c => poisonOf c.data 0))
where
  transposeCols : Nat → List (List Nat) → List (List Nat)
    | 0, _ => []
    | n + 1, rows => rows.map (fun r => r.headD 0) :: transposeCols n (rows.map List.tail)

/-- Writes a result in transfers of 256 bytes; the error of the first that fails. -/
def writeAll (s : State) (e : Nat) (c : Command) (agent : MemAgent) (op : Bool × Nat) (data : List Byte) (bad : List (Nat × Nat)) : Nat → Nat → Nat × State
  | 0, _ => (0, s)
  | fuel + 1, o =>
    let n := min (data.length - o) (256 - (op.2 + o) % 256)
    if n == 0 then (0, s)
    else
      let here := (bad.filter (fun (b, m) => b < o + n && o < b + m)).map (fun (b, m) => (max b o - o, min (b + m) (o + n) - max b o))
      match writeTransfer s e c agent op o ((data.drop o).take n) false here with
      | (0, t) => let d := s.covering c agent op o n; writeAll (coverGranule t d agent op o) e d agent op data bad fuel (o + n)
      | r => r

/-- Every member has contributed: each DST receives the result, and the commands complete. It waits for tokens and for pages that a
migration pulls. -/
def collectiveResult (s : State) (part group : Nat) (key : Word) : State :=
  let cs := s.contribs.filter (fun c => c.same part group key)
  match cs.head? with
  | none => s
  | some c0 =>
    if cs.length != collNm c0.head || cs.any (·.num == 0) then s
    else
    let bytes (c : Contribution) : Nat := if c.opc == 0x41 then c.len * cs.length else c.len
    let cost (c : Contribution) : Nat := writeBeats (isLocal c.dst) (bytes c)
    let page (c : Contribution) : Option (Nat × Nat) := (s.command c.eng c.num).bind (fun m => (s.pullingRange m c.dst (bytes c)).map (fun p => (c.ctx, p)))
    let short (t : State) (c : Contribution) : Bool := match t.command c.eng c.num with | some m => !t.canPay c.eng m (cost c) | none => false
    match cs.findSome? page with
    | some (x, p) => (s.pendOnce .migrationPagePull { unit := x, idx := p }).pend .collectiveResult { unit := part, idx := group, value := key }
    | none =>
    if cs.any (short s) then
      (cs.foldl (fun (t : State) c => match t.command c.eng c.num with
        | some m => t.payPart c.eng m 0 (cost c)
        | none => t) s).pend .collectiveResult { unit := part, idx := group, value := key }
    else
      let (data, bad) := collData cs c0.opc c0.len c0.head
      let s1 : State := { s with contribs := s.contribs.filter (fun c => !c.same part group key) }
      cs.foldl (fun (t : State) c =>
        match t.command c.eng c.num, operand c.dst with
        | some m, some op =>
          let (err, t1) := writeAll (t.pay c.eng m (writeBeats op.1 data.length) 0) c.eng m .coll op data bad (data.length / 256 + 2) 0
          finishCommand t1 c.eng m (if bad.isEmpty then err else 3)
        | _, _ => t) s1

/-! The start of a command, and its retirement (R276, R280, R292). -/

/-- Whether the accesses of the issuing core before a command are performed (R280). -/
def commandReleased (s : State) (c : Command) : Bool :=
  match c.after with
  | none => true
  | some (idx, seq, slot) => s.settled c.core .dev idx seq slot

/-- A command starts once its release has completed, or goes on with its next transfer. -/
def stepCommand (s : State) (e num : Nat) : State :=
  match s.command e num with
  | none => s
  | some c =>
    if c.done.isSome then s
    else if c.started then
      (if 1 ≤ c.opc && c.opc ≤ 5 then
        (match c.conv with
         | some (sf, df, rnd) => convertStep s e c sf df rnd
         | none => copyTransfer s e c)
       else s)
    else if !commandReleased s c then s.pend .engineCommandStart { unit := e, idx := num }
    else if 1 ≤ c.opc && c.opc ≤ 6 then startCopy s e c
    else if c.opc == 0x40 || c.opc == 0x41 then contribute s e c
    else if c.opc == 0xA0 then (s.setCommand e { c with started := true }).pend .bankUnitAccept { unit := (e - 0x100000) / 4 }
    else if c.opc == 0x62 && c.a != 0 then
      (if s.canPay e c 1 then finishCommand (s.pay e c 1 0) e c c.err else s.payLater e c 1 1)
    else finishCommand s e c c.err

/-- A cpyr has its outcome and its record is still to be written (R287). -/
def Command.clears (c : Command) (err : Nat) : Bool := err == 0 && c.restart.isSome
/-- The command at the head of a context retires: a cpyr without error first writes its record, once a migration has pulled the
record's page (R346) and there are tokens (R307), and a peer has acknowledged what the command wrote there (R382). -/
def retireCommand (s : State) (e : Nat) : State :=
  let q := s.eng e
  match q.queue with
  | [] => s
  | c :: rest =>
    match c.done with
    | none => s
    | some err =>
      let a := c.restart.getD 0
      if c.clears err then
        (match s.pullingRange c a 64 with
         | some page => (s.pendOnce .migrationPagePull { unit := c.ctx, idx := page }).pend .commandRetire { unit := e }
         | none =>
           if !s.canPay e c (writeBeats (isLocal a) 8) then (s.payPart e c 0 (writeBeats (isLocal a) 8)).pend .commandRetire { unit := e }
           else ((clearRestart s e c).setCommand e { c with restart := none }).pend .commandRetire { unit := e })
      else if s.unacked e c.num then s
      else
      let s1 := s.setEng e { q with queue := rest }
      retired (if rest.any (fun d => d.done.isSome) then s1.pendOnce .commandRetire { unit := e } else s1) e c err

/-! What a release waits for (R223, R239, R311). -/

/-- Whether a range of an operand has a line whose home, or a scratchpad whose core, lies in a bulkhead (R221). -/
def State.rangeNear (s : State) (c : Command) (b : Nat) (w : Word) (n : Nat) : Bool :=
  match operand w with
  | none => false
  | some (true, _) => bulkOf c.core == b
  | some (false, a) => (List.range (n / 4096 + 2)).any (fun i =>
      let va := max a (alignDown a 4096 + 4096 * i)
      let m := min (a + n - va) (4096 - va % 4096)
      m != 0 && (match s.walk c.ctx va with
        | .error _ => false
        | .ok l => match regionOf (l.pa va) with
          | .hbm | .granary => (linesOf (l.pa va) m).any (fun x => (s.leafHome c.part l.hi (256 * x)).1 == b)
          | .aperture => l.pa va % 0x10000000 / 0x800000 == b
          | .host | .peer | .reserved => false))
/-- Whether a row of a copy reads or writes in a bulkhead, its table entry with it. -/
def State.rowNear (s : State) (e b : Nat) (d : Command) (r : Nat) : Bool :=
  (match d.entryAt r with | some a => s.rangeNear d b a 8 | none => false)
    || (match (beginRow s e { d with row := r, begun := none }).2 with
      | .ok x => s.rangeNear x b (x.rowOps r).1 x.rowBytes || s.rangeNear x b (x.rowOps r).2 x.rowBytes
      | .error _ => false)
/-- Whether a bul reads or writes in a bulkhead: its record, its program and query, its key windows and its output (R316, R317). -/
def State.bulNear (s : State) (b : Nat) (c : Command) : Bool :=
  s.rangeNear c b c.a 64 || (match s.vread c.ctx c.a.toNat 64 .bank with
    | .error _ => false
    | .ok bs =>
      let w (i : Nat) : Word := wordAt bs i
      let window (v : Word) : Nat := match s.walk c.ctx v.toNat with
        | .ok l => min (l.bytes - v.toNat % l.bytes) 0x10000
        | .error _ => 0
      ([(w 0, 2 * wbits (w 1) 0 10), (w 5, if wbits (w 1) 20 4 == 1 then 256 else 512), (w 6, wbits (w 7) 0 13)]
        ++ ((if c.k == 1 then [w 2, w 3, w 4] else [w 2]).map (fun v => (v, window v)))).any (fun (v, n) => s.rangeNear c b v n))
/-- Whether a command has accesses with homes in a bulkhead: of a copy its record, its tables and its rows, of a collective its record,
its share and its result, of tlsig its node, of a bul all that its record names. -/
def State.commandNear (s : State) (e b : Nat) (c : Command) : Bool :=
  let copies (d : Command) : Bool := match d.conv with
    | some _ => bulkOf c.core == b
    | none => ((List.range d.rows).drop d.row).any (s.rowNear e b d)
  match c.opc with
  | 1 | 3 | 4 => copies c
  | 2 | 5 => s.rangeNear c b c.a 64 || (match (copyRecord s e c).2 with | .ok d => copies (if c.started then c else d) | .error _ => false)
  | 6 => s.rangeNear c b c.a 64 || (match (fromRestart s e c).2 with | .ok (some d) => copies d | _ => false)
  | 0x40 | 0x41 => s.rangeNear c b c.a 64 || (match (readRecordWords s e c c.a).2 with
      | .ok ws =>
        let len := wbits (ws.getD 3 0) 0 32
        s.rangeNear c b (ws.getD 1 0) len || s.rangeNear c b (ws.getD 2 0) (if c.opc == 0x41 then len * collNm (ws.getD 0 0) else len)
      | .error _ => false)
  | 0x62 => c.a != 0 && s.rangeNear c b c.a 64
  | 0xA0 => s.bulNear b c
  | _ => true
/-- Whether an engine command that core c issued before a place in issue order still has accesses to make that count at a scope (R221,
R239). -/
def State.commanding (s : State) (c : Nat) (w : Scope) (seq : Nat) : Bool :=
  s.engines.any (fun (e, q) => q.queue.any (fun m => m.core == c && (m.done.isNone || m.restart.isSome || s.unacked e m.num) &&
    (match m.after with | some (_, n, _) => decide (n < seq) | none => false)
    && (match w with | .core => false | .bulk => s.commandNear e (bulkOf c) m | .dev | .sys => true)))
/-- Beside its own accesses, those of the engine commands that the core issued (R239). -/
def State.performed (s : State) (c : Nat) (w : Scope) (idx seq slot : Nat) : Bool :=
  s.settled c w idx seq slot && !s.commanding c w seq
/-- A store of the core that met a bulkhead that is down makes its next release trap (R311). -/
def State.releaseNow (s : State) (body : State → State) : State :=
  if s.me.downNote then s.trap { code := 5, cause := 2, res := 1, note := true } else body s
/-- The wait of a release (R239): the gated stores are performed, then the slot stalls until every earlier access is
performed, of engine commands too unless it waits for the core's own alone; a store that met a bulkhead that is down makes it trap
(R311). -/
def State.releasing (s : State) (w : Scope) (body : State → State) (ownOnly : Bool := false) : State :=
  let s1 := commitGated s s.cur s.now.seq
  let met := if ownOnly then s1.settled s1.cur w s.now.idx s.now.seq s.now.slot else s1.performed s1.cur w s.now.idx s.now.seq s.now.slot
  if !met then s1.stall else s1.releaseNow body


/-! The instructions. -/

def execCpy (g : Guard) (t : TlReg) (a b : SReg) (fill : Bool) (x : Option W32) (s : State) : Outcome :=
  .next (issue g 4 s (fun s => sendCommand s t [0, 1, 2] 1 (b2n fill) (s.me.rs a) (s.me.rs b) x none
    (if x.isSome then copyFormats s.me.bankfs (s.me.rs a) (s.me.rs b) else none)))
def execCpy2 (g : Guard) (t : TlReg) (a : SReg) (s : State) : Outcome :=
  .next (issue g 4 s (fun s => sendCommand s t [0, 1, 2] 2 0 (s.me.rs a) 0 none))
def execGath (g : Guard) (t : TlReg) (a b : SReg) (k : BitVec 3) (x : Option W32) (s : State) : Outcome :=
  .next (issue g 4 s (fun s => sendCommand s t [0, 1, 2] 3 k.toNat (s.me.rs a) (s.me.rs b) x))
def execScat (g : Guard) (t : TlReg) (a b : SReg) (k : BitVec 3) (x : Option W32) (s : State) : Outcome :=
  .next (issue g 4 s (fun s => sendCommand s t [0, 1, 2] 4 k.toNat (s.me.rs a) (s.me.rs b) x))
def execKvw (g : Guard) (t : TlReg) (a : SReg) (x : Option W32) (s : State) : Outcome :=
  .next (issue g 4 s (fun s => sendCommand s t [0, 1, 2] 5 0 (s.me.rs a) 0 x))
def execCpyr (g : Guard) (t : TlReg) (a : SReg) (s : State) : Outcome :=
  .next (issue g 4 s (fun s => sendCommand s t [0, 1, 2] 6 0 (s.me.rs a) 0 none none none false s.me.bankfs))
def execCred (g : Guard) (t : TlReg) (a : SReg) (s : State) : Outcome :=
  .next (issue g 4 s (fun s => sendCommand s t [2] 0x40 0 (s.me.rs a) 0 none))
def execCgath (g : Guard) (t : TlReg) (a : SReg) (s : State) : Outcome :=
  .next (issue g 4 s (fun s => sendCommand s t [2] 0x41 0 (s.me.rs a) 0 none))
def execBul (g : Guard) (t : TlReg) (a : SReg) (dup : Bool) (x : Option (BitVec 8)) (s : State) : Outcome :=
  .next (issue g 4 s (fun s => sendCommand s t [3] 0xA0 (b2n dup) (s.me.rs a) 0 none (x.map (·.toNat))))
def execTlsig (g : Guard) (t : TlReg) (a : SReg) (s : State) : Outcome :=
  .next (issue g 4 s (fun s => sendCommand s t [0, 1, 2, 3] 0x62 0 (s.me.rs a) 0 none none none true))

/-- tlwait (R290): an engine whose bulkhead is down completes it with p(Q) := 1. -/
def timelineWait (s : State) (t : TlReg) (a : SReg) (q : PReg) : State :=
  s.withEngine t [0, 1, 2, 3] none (fun e =>
    let x := s.eng e
    let target := s.me.rs a
    if target.toNat ≤ x.count.toNat then s.emit 1 (.p q (x.errn != 0 && x.errn ≤ target.toNat))
    else if !s.bulkUp (engBulk e) then s.emit 1 (.p q true)
    else s.stall)
def execTlwait (g : Guard) (t : TlReg) (a : SReg) (q : PReg) (s : State) : Outcome := .next (issue g 4 s (fun s => timelineWait s t a q))

/-- The last cycle at which an earlier tlget of a context samples it. -/
def Core.lastSample (k : Core) (e : Nat) : Nat :=
  k.flights.foldl (fun m f => match f.what with | .tlSample x _ _ _ => if x == e then max m f.due else m | _ => m) 0
/-- tlget (R291): the value of a cycle between issue and landing, which one is free; in issue order for one context. -/
def timelineGet (s : State) (t : TlReg) (d : SReg) (sel : TlSel) : State :=
  s.withEngine t [0, 1, 2, 3] none (fun e =>
    let (w, s1) := s.fresh
    let delay := min 4 (max (1 + w.toNat % 4) (s.me.lastSample e - s.now.clk))
    s1.emit delay (.tlSample e sel d (4 - delay)))
def execTlget (g : Guard) (t : TlReg) (d : SReg) (sel : TlSel) (s : State) : Outcome := .next (issue g 4 s (fun s => timelineGet s t d sel))

end Sys2Proof.Machine
end

