-- ==== Sys2Proof/Machine/Home.lean ====
section
/-! DEFINITION. What homes do with requests (spec/13 R220, R223, spec/14 R241 to R250, spec/18 R302 to R311). -/

namespace Sys2Proof.Machine

/-! New values (R241 to R244). -/

/-- The new value of a combinable atomic of n bits. For amoswp it is the operand. -/
def amoNew (op : AmoOp) (n old a : Nat) : Nat :=
  match op with
  | .add => (old + a) % 2 ^ n
  | .and => Nat.land old a
  | .or => Nat.lor old a
  | .xor => Nat.xor old a
  | .min => if sxNat n a < sxNat n old then a else old
  | .max => if sxNat n old < sxNat n a then a else old
  | .minz => min old a
  | .maxz => max old a
  | .swp => a

/-- The FP32 sum of amofadd (R243). -/
def faddNew (old a : Nat) : Nat := (laneRound .f32 .rne 0 (addNum false (decodeNum .f32 old) (decodeNum .f32 a))).1

/-- What an atomic writes; none where it writes nothing (amocas that does not match). data holds the operand, for
amocas the compared value and the new one. -/
def rmwNew (op : ReqOp) (z old : Nat) (data : List Byte) : Option Nat :=
  let a := bytesToNat (data.take z)
  match op with
  | .amo o => some (amoNew o (8 * z) old a)
  | .cas => if old == a then some (bytesToNat ((data.drop z).take z)) else none
  | .fadd => some (faddNew old a)
  | .tktDone => some ((old + 1) % 2 ^ 64)
  | .scAdd => some (amoNew .add (8 * z) old a)
  | .scStore => some a
  | _ => none

/-- The register value of an old value: .w results are sign-extended (R61, R241). -/
def oldValue (z old : Nat) : Word := BitVec.ofInt 64 (sxNat (8 * z) old)

/-! Requests on their way. -/

def State.findReq (s : State) (id : Nat) : Option Req := s.fabric.find? (fun r => r.id == id)
def State.dropReq (s : State) (id : Nat) : State := { s with fabric := s.fabric.filter (fun r => r.id != id) }
/-- Whether two requests touch a line in common. -/
def Req.meets (r q : Req) : Bool := q.pa / 256 ≤ (r.pa + r.size - 1) / 256 && r.pa / 256 ≤ (q.pa + q.size - 1) / 256
/-- Whether a request's turn has come: none of the same cores to the same lines that was sent earlier is still on its way, but for
those that wait at a sync engine (R223 item 2, R227). -/
def State.turnOf (s : State) (r : Req) : Bool :=
  !(s.fabric.takeWhile (fun q => q.id != r.id)).any (fun q => q.cores.any r.cores.contains && !q.parked && !q.op.isTask && r.meets q)
/-- The beats of a request: its header and the data that it carries. -/
def Req.beats (r : Req) : Nat := if r.data.isEmpty then 1 else beatsOf r.data.length

/-- The partition, home and status of a request as its sluice sees it. -/
def permOf (op : ReqOp) : Nat :=
  match op with
  | .read | .wbinv | .fetch => 0
  | .store => 1
  | _ => 2

/-- Whether a request meets its home at all: the status of the sluices of all its lines for device memory, of the host's translation or
the peer's route elsewhere. A read that meets a redirect entry goes to the helper (R302). One that the sluice has admitted is not
judged by the windows again, only by whether the bulkhead is up (R310, R311). -/
def State.reach (s : State) (r : Req) : Nat :=
  match regionOf r.pa with
  | .hbm | .granary =>
    let via := if r.op == .read then s.helperAt (bulkOf r.core) (r.pa / 256) else none
    if r.admitted || r.parked then (if s.bulkUp (via.getD r.home) then stGood else stDown)
    else
      let first := s.sluice (via.getD r.home) r.part r.pa (permOf r.op)
      let src := if r.op == .read then some (bulkOf r.core) else none
      if first != stGood then first
      else (((linesOf r.pa r.size).drop 1).map (fun a => s.sluice (s.metAt src r.part r.hi a) r.part (256 * a) (permOf r.op))).find? (· != stGood)
        |>.getD stGood
  | .host => if (s.hostAddr r.part r.pa).isSome then stGood else stPoison
  | .peer => if s.peerUp r.pa then stGood else stDown
  | .aperture | .reserved => stPoison

/-- Reports a refusal by a sluice (R309). -/
def State.refused (s : State) (r : Req) : State := s.report 6 r.home r.ctx r.pa

/-- The members of a request: itself, or those combined in it, each with what came before it (R300, R301). -/
def Req.everyone (r : Req) : List Member :=
  if r.members.isEmpty then [{ id := r.id, core := r.core, slot := r.slot, operand := bytesToWord (r.data.take 8), before := none }] else r.members

/-- The reply to an atomic is split among the members (R301): each gets the old value with the operands before its own. -/
def splitReply (s : State) (r : Req) (old status : Nat) : State :=
  r.everyone.foldl (fun (t : State) m =>
    let v := match m.before, r.op with
      | some b, .amo o => amoNew o (8 * r.size) old (b.toNat % 2 ^ (8 * r.size))
      | _, _ => old
    t.replyTo { r with id := m.id, core := m.core, slot := m.slot } (BitVec.ofNat 64 v) status) s

/-- The reply of a combined request travels back to its switches before it is split (R301). -/
def answerRmw (s : State) (r : Req) (old status : Nat) : State :=
  if r.members.isEmpty then splitReply s r old status
  else ({ s with fabric := s.fabric ++ [{ r with parked := true, answered := some (old, status) }] } : State).pend .combinedReplySplit { unit := r.id }
/-- The bytes of a request at the home that has admitted it, whichever access the window granted. -/
def State.atHome (s : State) (r : Req) (n : Nat) : List Byte × Nat × State :=
  match regionOf r.pa with
  | .hbm | .granary => let (bs, bad) := s.physRead r.part r.pa n; (bs, if bad then stPoison else stGood, s)
  | .host | .peer | .aperture | .reserved => s.homeRead r.part r.home r.pa n

/-- The sync engine of the home takes the line of a request (R220). -/
def State.holdFor (s : State) (r : Req) : State :=
  match regionOf r.pa with
  | .hbm | .granary => let (b, sl) := s.leafHome r.part r.hi r.pa; s.hold r.ctx (b * 8 + sl) (r.pa / 256)
  | .host | .peer | .aperture | .reserved => s

/-- An atomic, ticket or sail-wheel operation at its home, in one step (FS5): poison writes nothing (R245), and stops all but a plain
write, which reads nothing (R217). -/
def applyRmw (s : State) (r : Req) : State :=
  let (bs, st, s0) := s.atHome r r.size
  if st != stGood && regionOf r.pa != .peer && !(st == stPoison && r.op == .scStore && regionOf r.pa != .host) then answerRmw (if st == stPoison then s0.deliver r.part r.pa r.size else s0) r 0 st
  else
    let old := bytesToNat bs
    let s1 := s0.holdFor r
    match rmwNew r.op r.size old r.data with
    | none => answerRmw s1 r old stGood
    | some v =>
      let (st2, s2) := s1.homeWrite r.ctx r.part r.home r.hi r.pa (natToBytes r.size v) true r.ways
      if st2 == stGood then answerRmw s2 r old stGood else answerRmw s1 r 0 st2

/-- A sail-wheel operation on the core's own scratchpad (R220, R247): its home is the core. -/
def applyOwn (s : State) (r : Req) : State :=
  let k := s.core r.core
  let a := r.pa % 0x100000
  let s1 := s.dropReq r.id
  if r.op != .scStore && k.scratchPoisoned a r.size then s1.replyTo r 0 stPoison
  else
    let old := bytesToNat (k.scratchRead a r.size)
    let s2 := match rmwNew r.op r.size old r.data with
      | some v => s1.modCore r.core (fun k => k.scratchWrite a (natToBytes r.size v))
      | none => s1
    s2.replyTo r (BitVec.ofNat 64 old) stGood

/-- wbinv at the home (R250): the line is written back, which is charged to its owner, and every copy is dropped, the home's with them, and
a sync engine's. A pinned line stays pinned: its next access brings it back into a way (R198; DEDUCED, log entry 24). -/
def dropLine (s : State) (x pa : Nat) : State :=
  let n := pa / 256
  let l := s.line n
  let s1 := dropCopies (if l.dirty then s.chargeLine l else s) x n
  s1.setLine n (if l.pinned then { pinned := true, home := l.home, owner := l.owner } else {})

/-- The type of a request's flits: a read, a write, or an operation by its own number (DESIGN CHOICE, log entry 110). -/
def ReqOp.flitKind : ReqOp → Nat
  | .read => 1 | .store => 2
  | .amo o => 16 + (match o with | .add => 0 | .and => 1 | .or => 2 | .xor => 3 | .min => 4 | .max => 5 | .minz => 6 | .maxz => 7 | .swp => 8)
  | .cas => 3 | .fadd => 4 | .tktWait => 5 | .tktDone => 6 | .scLoad => 7 | .scStore => 8 | .scAdd => 9 | .wbinv => 10 | .fetch => 11
  | .gjoin _ _ | .gleave | .gbar | .gwait | .spawn | .tdec | .tarm _ => 0
/-- A request leaves for a peer module by the port that ROUTE names (R381, R382); it waits there for the reply, or for the
acknowledgement of a store, which comes at a time of its own. -/
def State.leaveModule (s : State) (r : Req) : State :=
  ((s.sendFlit (s.peerPort r.pa) 0 r.op.flitKind (peerModule r.pa) r.part (r.pa % 2 ^ 38) (natToBytes 2 r.size ++ r.data)).setReq
    { r with parked := true }).pend .homeApply { unit := r.id }
/-- The reply of a peer module, with free values or poison (R382, log entry 17). -/
def peerReply (s : State) (r : Req) : State :=
  let bs := (List.range r.size).map (fun i => Config.peerByte s.free (r.pa + i))
  let bad := Config.peerPoison s.free
  let st := if bad then stPoison else stGood
  let s1 : State := { s.dropReq r.id with free := s.free + 1 }
  match r.op with
  | .read => let v := if r.mask.isEmpty then bs else r.overlay bs; s1.replyTo r (bytesToWord (v.take 8)) st v
  | .store =>
    if bad then failRequest s1 r stPoison
    else (match r.cmd with | some (e, _) => s1.pendOnce .commandRetire { unit := e } | none => s1)
  | .tktWait => s1.replyTo r 0 st
  | .wbinv | .fetch => s1
  | .amo _ | .cas | .fadd | .tktDone | .scLoad | .scStore | .scAdd => answerRmw s1 r (if bad then 0 else bytesToNat bs) st
  | .gjoin _ _ | .gleave | .gbar | .gwait | .spawn | .tdec | .tarm _ => s1

/-- The beats of forwarded messages, which no limiter holds, are subtracted afterwards (R308): a read whose helper has lost its replica goes
on to the home (R303), a read or store of a line that the sync engine holds goes on to it from the slice (R220). -/
def State.chargeForward (s : State) (r : Req) : State :=
  let lost := match r.helper with | some h => !(s.line (r.pa / 256)).replicas.contains h | none => false
  let held := (r.op == .read || r.op == .store) && (s.line (r.pa / 256)).held
  s.charge r.ctx (bulkOf r.core) ((b2n lost + b2n held) * r.beats)

/-- Puts the request out of the way and does what its home does (R220). A reply is one event more. -/
def applyRequest (s : State) (r : Req) : State :=
  let s1 := s.dropReq r.id
  if r.own then applyOwn s r
  else if regionOf r.pa == .peer && r.parked then peerReply s r
  else match s.reach r with
  | 0 =>
    if regionOf r.pa == .peer then s.leaveModule r
    else
     let s1 := s1.chargeForward r
     (match r.op with
     | .read =>
       let (bs, st, s2) := s1.atHome r r.size
       let bs' := if r.mask.isEmpty then bs else r.overlay bs
       (s2.readsLines r.ctx r.part r.hi (bulkOf r.core) r.pa r.size r.ways).replyTo r (bytesToWord (bs'.take 8)) st bs'
     | .store =>
       let old := (s1.atHome r r.data.length).1
       let (st, s2) := s1.homeWrite r.ctx r.part r.home r.hi r.pa (r.overlay old) false r.ways
       if st == stGood then s2 else failRequest s r st
     | .tktWait =>
       let (bs, st, s2) := s1.atHome r 8
       if st != stGood then s2.replyTo r 0 st
       else if r.served || ticketReached (bytesToWord bs) (bytesToWord r.data) then (s2.holdFor r).replyTo r 0 stGood
       else (s.setReq { r with parked := true }).holdFor r
     | .amo _ | .cas | .fadd | .tktDone | .scLoad | .scStore | .scAdd => applyRmw s1 r
     | .wbinv => dropLine s1 r.ctx r.pa
     | .fetch => let (b, sl) := s1.leafHome r.part r.hi r.pa; s1.fetchLine r.ctx r.hi (b * 8 + sl) (r.pa / 256) r.ways
     | .gjoin _ _ | .gleave | .gbar | .gwait | .spawn | .tdec | .tarm _ => s1)
  | st =>
    let s2 := if st == stPoison then s.refused r else s
    failRequest s2 r st

/-- The requests of core c to the lines of a range that are still on their way are applied, in the order in which
they were sent: what the core reads there next comes after them (R223 item 2). Requests that still wait for tokens (R307), sail-wheel
operations and parked waits keep their time. -/
def settleHome (s : State) (c pa z : Nat) : State :=
  let mine (q : Req) : Bool := q.cores.contains c && !q.op.isTask && q.stamp == 0 && !q.parked && !q.limited && q.answered.isNone
    && q.pa / 256 ≤ (pa + z - 1) / 256 && pa / 256 ≤ (q.pa + q.size - 1) / 256
  (s.fabric.filter mine).foldl applyRequest s

/-- What a request that still waits for tokens will do to memory, for its own core's loads. -/
def State.applyEarly (s : State) (r : Req) : State :=
  match r.op with
  | .store => s.applyStore r
  | _ => match rmwNew r.op r.size (bytesToNat (s.mem.read r.pa r.size)) r.data with
    | some v => s.physWrite r.part r.pa (natToBytes r.size v)
    | none => s
/-- Memory with the requests of core c that wait for tokens (R307), which it follows at its own locations (R223 item 2). -/
def State.earlyOf (s : State) (c : Nat) : State :=
  (s.fabric.filter (fun r => r.core == c && r.limited && !r.op.isTask && r.stamp == 0)).foldl State.applyEarly s
/-- Memory as core c sees it: with those, and then with its gated stores applied (R339). -/
def State.viewOf (s : State) (c : Nat) : State := ((s.core c).mark.gated.filterMap (·.req)).foldl State.applyStore (s.earlyOf c)

end Sys2Proof.Machine
end

