-- ==== Sys2Proof/Machine/BankUnit.lean ====
section
/-! DEFINITION. Bank units (spec/20): channels and banks, acceptance of a command, the runs of the move machine, the
result and STAT. -/

namespace Sys2Proof.Machine

/-! Channels and banks (R314). -/

def channelOf (pa : Nat) : Nat := 32 * bits pa 36 3 + bits pa 31 5
def bankAt (pa : Nat) : Nat := bits pa 12 5

/-- The formats of R315. -/
def keyFormat (n : Nat) : Option Fmt :=
  match n with
  | 0 => some .f32 | 1 => some .bf16 | 3 => some .e4m3 | 4 => some .e5m2 | 6 => some .i8 | 9 => some .i4
  | _ => none
def queryFormat (n : Nat) : Option Fmt := match n with | 0 => some .f32 | 1 => some .bf16 | _ => none
/-- The bytes of a row of 128 elements. -/
def rowBytesOf (f : Fmt) : Nat := 16 * f.width

/-- Element i of a row, decoded exactly to FP32 (R321). An FP32 element is taken as it stands, a NaN with its sign and payload; the NaN of
another format is the canonical one (DESIGN CHOICE, log entry 114). -/
def elementF32 (f : Fmt) (row : List Byte) (i : Nat) : W32 :=
  let code := bytesToNat row / 2 ^ (f.width * i) % 2 ^ f.width
  BitVec.ofNat 32 (match f with
    | .f32 => code
    | _ => (roundNum .f32 .rne 0 (decodeNum f code)).1)

/-! Reading for acceptance (R316, R317). -/

/-- Reads n bytes of a context page by page as a bank-unit read: bytes, or the error of R282. -/
def readPaged (s : State) (x : Nat) : Nat → Nat → Nat → Except Nat (List Byte)
  | 0, _, _ => .ok []
  | fuel + 1, va, n =>
    let k := min n (4096 - va % 4096)
    match s.vread x va k .bank with
    | .error e => .error e
    | .ok bs => if n ≤ k then .ok bs else (match readPaged s x fuel (va + k) (n - k) with
      | .error e => .error e
      | .ok rest => .ok (bs ++ rest))

/-- The first refusal of a translation or permission on the pages of a range: 1 or 2. Host memory that the host does not translate
counts as untranslated (R378). -/
def pagedRefusal (s : State) (x va n : Nat) : Option Nat :=
  (List.range (n / 4096 + 2)).findSome? (fun i =>
    let a := va - va % 4096 + 4096 * i
    if a < va + n then (match s.translate x (max a va) .bank false with
      | .error (e, _) => some e
      | .ok (pa, _) => if regionOf pa == .host && (s.hostAddr (s.ctxPart x) pa).isNone then some 2 else none)
    else none)

/-- The bytes of PROG and QRY that a record names. -/
def progBytes (w : Nat → Word) : Nat := 2 * min (max (wbits (w 1) 0 10) 1) 512
def queryBytes (w : Nat → Word) : Nat := if wbits (w 1) 20 4 == 1 then 256 else 512

/-- The record as accepted: its fields, or (ERRC, STAT). The order is that of R316. -/
def checkBankRecord (s : State) (ch x part : Nat) (dup : Bool) (w : Nat → Word) : Except (Nat × Nat) BankUnit :=
  let prog := w 0
  let qry := w 5
  let out := w 6
  let keys : List Word := if dup then [w 2, w 3, w 4] else [w 2]
  let plen := wbits (w 1) 0 10
  let olen := wbits (w 7) 0 13
  let used := [prog, qry, out] ++ keys
  let at_ (v : Word) : Nat := wbits v 0 57
  let pn := progBytes w
  let qn := queryBytes w
  if used.any (fun v => wbit v 63) then .error (7, 0x87)
  else match pagedRefusal s x (at_ prog) pn, pagedRefusal s x (at_ qry) qn with
    | some e, _ | none, some e => .error (e, 0x80 + e)
    | none, none =>
      let leaves := keys.map (fun v => s.translate x (at_ v) .bank false)
      match leaves.mapM (fun (r : Except (Nat × Nat) (Nat × Leaf)) => r.toOption), s.translate x (at_ out) .bank true with
      | some ls, .ok (opa, ol) =>
        (match readPaged s x 3 (at_ prog) pn, readPaged s x 3 (at_ qry) qn with
         | .error 5, _ | _, .error 5 => .error (5, 0x85)
         | .error _, _ | _, .error _ => .error (3, 0x83)
         | .ok pb, .ok qb =>
           match queryFormat (wbits (w 1) 20 4), keyFormat (wbits (w 1) 16 4) with
           | some qf, some kf =>
             let rs := rowBytesOf kf
             let reserved := [0, 2, 3, 4, 5, 6].any (fun i => wbits (w i) 57 7 != 0) || wbits (w 1) 24 40 != 0 || wbits (w 1) 10 6 != 0 || wbits (w 7) 13 43 != 0
             let window (e : (Nat × Leaf) × Word) : Nat × Nat := (e.1.1, min (e.1.2.bytes - at_ e.2 % e.1.2.bytes) 0x10000)
             let spots := (ls.zip keys).map window
             let outside (e : Nat × Nat) : Bool := regionOf e.1 != .hbm || regionOf (e.1 + e.2 - 1) != .hbm || channelOf e.1 != ch || channelOf (e.1 + e.2 - 1) != ch
             let banks := spots.map (fun e => bankAt e.1)
             if reserved || plen == 0 || plen > 512 then .error (6, 0x86)
             else if prog.toNat % 2 != 0 || olen < 4 || olen > 4096 || olen % 4 != 0 || at_ out % ol.bytes + olen > ol.bytes
                 || keys.any (fun v => at_ v % rs != 0) then .error (7, 0x87)
             else if spots.any outside || outside (opa, olen) || (dup && banks.eraseDups.length < 3) then .error (12, 6)
             else .ok { busy := true, ctx := x, part := part, dup := dup, qfmt := qf, kfmt := kf, query := qb, keys := spots, out := opa, olen := olen,
                        prog := (List.range plen).map (fun i => BitVec.ofNat 16 (bytesToNat ((pb.drop (2 * i)).take 2))),
                        runs := ({ copy := 0 } : MoveRun) :: (if dup then [{ copy := 1 }] else []) }
           | _, _ => .error (6, 0x86))
      | _, _ => .error (1, 0x81)

/-- The homes of the lines of a physical range in a partition, and whether all of them answer (R325). -/
def homesUp (s : State) (part hi pa n : Nat) : Bool :=
  (List.range (n / 256 + 2)).all (fun i =>
    let a := pa - pa % 256 + 256 * i
    a ≥ pa + n || s.bulkUp (s.leafHome part hi a).1)

/-- Step 3 of R317: the lines of OUT are written back and dropped with every copy; step 4: those of the key windows are written
back. Write-backs are charged to the lines' owners (R308). -/
def writeBackLines (s : State) (x pa n : Nat) (drop : Bool) : State :=
  (linesOf pa n).foldl (fun (t : State) a =>
    let l := t.line a
    if drop then dropLine t x (256 * a)
    else if l.dirty then (t.chargeLine l).setLine a { l with dirty := false } else t) s
/-- The reads of a range page by page count at the homes of its lines as reads of bulkhead b (R302, R304), poison that they deliver is
counted (R386), a refusal is reported (R309), and the replies are paid for (R308). -/
def fetchPaged (s : State) (x b va n : Nat) : State :=
  (List.range (n / 4096 + 2)).foldl (fun (t : State) i =>
    let a := max va (va - va % 4096 + 4096 * i)
    let m := min (va + n) (a - a % 4096 + 4096) - a
    if a ≥ va + n then t
    else match t.translate x a .bank false with
      | .ok _ => (t.reading x a m .bank b).charge x b (writeBeats false m)
      | .error _ => t.countWalk x a) s
/-- Whether the checks of R316 that come before PROG and QRY are read let them be read, by the error of the first that fails. -/
def readsInputs (dup : Bool) (w : Nat → Word) (err : Nat) : Bool :=
  err != 1 && err != 2 && !((if dup then [0, 2, 3, 4, 5, 6] else [0, 2, 5, 6]).any (fun i => wbit (w i) 63))
/-- The requests of an acceptance in beats: its record, and what that names. -/
def State.acceptBeats (s : State) (c : Command) : Nat :=
  1 + (match s.vread c.ctx c.a.toNat 64 .bank with
    | .ok bs => readBeats false (progBytes (wordAt bs)) + readBeats false (queryBytes (wordAt bs))
    | .error _ => 0)

/-- The context of a bank unit whose head command it takes next: round-robin after the one it took last (R317). -/
def nextContext (s : State) (ch : Nat) : Option (Nat × Command) :=
  ([1, 2, 3, 4].map (fun i => engKey 3 0 ch (((s.bank ch).turn + i) % 4))).findSome? (fun e =>
    match (s.eng e).queue.find? (fun c => c.done.isNone) with
    | some c => if c.opc == 0xA0 && c.started then some (e, c) else none
    | none => none)

/-- STAT goes to bits 63:56 of word 7, as a bank-unit write (R208): 0, 1 where it is refused, 5 when the record's home is down (R325). -/
def writeStat (s : State) (b x part recPa recHome recHi stat : Nat) : Nat × State :=
  if (permRefusal .bank true false false recHi).isSome then (1, s)
  else match (s.charge x b 2).homeWrite x part recHome recHi (recPa + 63) [BitVec.ofNat 8 stat] false with
    | (st, t) => if st == stGood then (0, t) else if st == stDown then (5, t) else (1, t.report 6 recHome x recPa)

/-- The command of a unit completes; the unit is idle and looks for the next one. -/
def endBank (s : State) (ch e num err : Nat) : State :=
  let s1 := match s.command e num with | some c => finishCommand s e c err | none => s
  (s1.setBank ch { turn := (s1.bank ch).turn }).pendOnce .bankUnitAccept { unit := ch }

/-- A command that ends without output: STAT where the record can take it. -/
def refuseBank (s : State) (ch e : Nat) (c : Command) (recPa recHome recHi err stat : Nat) : State :=
  match writeStat s (ch / 8) c.ctx c.part recPa recHome recHi stat with
  | (5, t) => endBank t ch e c.num 5
  | (_, t) => endBank t ch e c.num err

/-- The first page that a command's record names and a migration has still to pull (R346). -/
def bankPage (s : State) (c : Command) (w : Nat → Word) : Option Nat :=
  ([(w 0, 2 * min (max (wbits (w 1) 0 10) 1) 512), (w 5, 512), (w 6, wbits (w 7) 0 13), (w 2, 1)]
    ++ (if c.k == 1 then [(w 3, 1), (w 4, 1)] else [])).findSome? (fun (v, n) => s.pullingRange c v n)
/-- The reads of an acceptance in bulkhead b: its record and, with inputs, the program and the query; their requests are paid. -/
def acceptReads (s : State) (e b : Nat) (c : Command) (inputs : Bool) (cost : Nat) (w : Nat → Word) : State :=
  let get (t : State) (va : Word) (n : Nat) : State := fetchPaged t c.ctx b (wbits va 0 57) n
  if inputs then get (get (get (s.pay e c cost 0) c.a 64) (w 0) (progBytes w)) (w 5) (queryBytes w) else get (s.pay e c 1 0) c.a 64
/-- What the reads of a record that is refused do; the walk that a poisoned entry ends counts too (R386). -/
def refusedReads (s : State) (e b : Nat) (c : Command) (cost err : Nat) (w : Nat → Word) : State :=
  let t := acceptReads s e b c (readsInputs (c.k == 1) w err) cost w
  if err == 2 then (if c.k == 1 then [0, 5, 6, 2, 3, 4] else [0, 5, 6, 2]).foldl (fun (u : State) i => u.countWalk c.ctx (wbits (w i) 0 57)) t else t
/-- BANK_UNIT_ACCEPT: an idle unit takes the next command, checks it, writes lines back and starts its runs. It waits for tokens and
for pages that a migration pulls. -/
def acceptBank (s : State) (ch : Nat) : State :=
  if (s.bank ch).busy then s
  else match nextContext s ch with
    | none => s
    | some (e, c) =>
      let s1 := s.setBank ch { s.bank ch with turn := e % 4 }
      let pull (page : Nat) : State :=
        (s.pendOnce .migrationPagePull { unit := c.ctx, idx := page, flag := true }).pend .bankUnitAccept { unit := ch }
      let cost := s.acceptBeats c
      if wbits c.a 57 7 != 0 || c.a.toNat % 64 != 0 then endBank s1 ch e c.num 7
      else if (s.pullingRange c c.a 64).isSome then pull ((s.pullingRange c c.a 64).getD 0)
      else if !s.canPay e c cost then (s.payPart e c cost cost).pend .bankUnitAccept { unit := ch }
      else match s1.translate c.ctx c.a.toNat .bank false, s1.vread c.ctx c.a.toNat 64 .bank none (some (ch / 8)) with
        | .error (err, _), _ => endBank (s1.countWalk c.ctx c.a.toNat) ch e c.num err
        | _, .error err => endBank (acceptReads s1 e (ch / 8) c false cost (fun _ => 0)) ch e c.num err
        | .ok (recPa, rl), .ok bs =>
          let home := (s1.leafHome c.part rl.hi recPa).1
          if (bankPage s c (wordAt bs)).isSome then pull ((bankPage s c (wordAt bs)).getD 0)
          else match checkBankRecord s1 ch c.ctx c.part (c.k == 1) (wordAt bs) with
          | .error (err, stat) =>
            refuseBank (refusedReads s1 e (ch / 8) c cost err (wordAt bs)) ch e c recPa home rl.hi err stat
          | .ok u =>
            let hiOf (va : Word) : Nat := match s1.walk c.ctx (wbits va 0 57) with | .ok l => l.hi | .error _ => 0
            let up := homesUp s1 c.part (hiOf (wordAt bs 6)) u.out u.olen
              && (u.keys.zip [wordAt bs 2, wordAt bs 3, wordAt bs 4]).all (fun (k, va) => homesUp s1 c.part (hiOf va) k.1 k.2)
            if !up then refuseBank s1 ch e c recPa home rl.hi 5 0x85
            else
              let s2 := (acceptReads s1 e (ch / 8) c true cost (wordAt bs)).setCommand e c.sent
              let s3 := u.keys.foldl (fun t k => writeBackLines t c.ctx k.1 k.2 false) (writeBackLines s2 c.ctx u.out u.olen true)
              s3.setBank ch { u with eng := e, num := c.num, recPa := recPa, recHome := home, recHi := rl.hi, turn := e % 4, born := s.nextReq }

/-! The move machine (R319 to R323). -/

/-- The bank unit under the step: the one of channel ev.unit. -/
def State.unit (s : State) : BankUnit := s.bank s.ev.unit
def State.setUnit (s : State) (u : BankUnit) : State := s.setBank s.ev.unit u
/-- The run under the step. -/
def State.run (s : State) : Option MoveRun := s.unit.runs.head?

/-- The run under the step goes on as r; the next move is another run's if there is one. -/
def State.goOn (s : State) (r : MoveRun) : State :=
  s.setUnit { s.unit with runs := s.unit.runs.drop 1 ++ [r] }
/-- The run under the step ends with its output or a cause; when no run is left, the result can be given. -/
def State.endRun (s : State) (r : MoveRun) (out : Option (List Byte)) (cause : Nat) : State :=
  let u := s.unit
  let s1 := s.setUnit { u with runs := u.runs.drop 1, results := mput u.results r.copy (out, cause) }
  if (u.runs.drop 1).isEmpty then s1.pendOnce .bankUnitResult { unit := s.ev.unit } else s1

/-- Whether the channel's controller holds another agent's request for a bank (R327). -/
def State.bankBusy (s : State) (ch bank : Nat) : Bool :=
  s.fabric.any (fun r => regionOf r.pa == .hbm && channelOf r.pa == ch && bankAt r.pa == bank && !r.parked)

/-- Counts a promotion of a channel's request: PROMO rises (R327). -/
def countPromo (s : State) (ch : Nat) : State :=
  let v := s.buctlReg ch
  { s with buctl := mput s.buctl ch (wput v 16 32 (wbits v 16 32 + 1)) }
/-- BANK_REQUEST_PROMOTION: every run whose row request has waited AGE µs of TIME is promoted. -/
def promoteRuns (s : State) (ch : Nat) : State :=
  let age := wbits (s.buctlReg ch) 0 16 * 1000
  let due (r : MoveRun) : Bool := !r.promoted && (match r.waitSince with | some t => s.time ≥ t + age | none => false)
  let u := s.bank ch
  if u.runs.any due then
    (u.runs.filter due).foldl (fun t _ => countPromo t ch)
      (s.setBank ch { u with runs := u.runs.map (fun r => if due r then { r with promoted := true } else r) })
  else s

/-- The words a source takes. -/
def moveSize (src : MoveSrc) : Nat := match src with | .imm _ => 2 | _ => 1

/-- What the source port gives, and the run after the read (R321); none for a read of KEL before the first ROWK. -/
def readPort (u : BankUnit) (r : MoveRun) (src : MoveSrc) : Option (W32 × MoveRun) :=
  match src with
  | .zero => some (0, r)
  | .kel => r.row.map (fun row => (elementF32 u.kfmt row r.kel, { r with kel := (r.kel + 1) % 128 }))
  | .qel => some (elementF32 u.qfmt u.query r.qel, { r with qel := (r.qel + 1) % 128 })
  | .acc => some (r.acc, r)
  | .lc => some (r.lc, r)
  | .acc1 => some (r.acc1, r)
  | .addR => some (r.addR, r)
  | .mulR => some (r.mulR, r)
  | .kidx => some (r.kidx, r)
  | .oidx => some (BitVec.ofNat 32 r.oidx, r)
  | .imm v => some (v.signExtend 32, r)

/-- Whether a move's guard holds (R320). -/
def moveGuard (g : BitVec 2) (r : MoveRun) : Bool :=
  match g.toNat with | 0 => true | 1 => r.g0 | 2 => r.g1 | _ => !r.g0

/-- One move (R320, R323): the step limit, the immediate word inside the program, the guard, the source; then body with
the word, on the run with its counter past the move. A unit that makes no run does nothing. -/
def move (src : MoveSrc) (g : BitVec 2) (s : State) (body : State → MoveRun → W32 → State) : State :=
  match s.run with
  | none => s
  | some r =>
    let next := r.pc + moveSize src
    let r1 := { r with pc := next, moves := r.moves + 1 }
    if r1.moves > 2 ^ 24 then s.endRun r none 5
    else if next > s.unit.prog.length then s.endRun r none 3
    else if !moveGuard g r then s.goOn r1
    else match readPort s.unit r1 src with
      | none => s.endRun r none 3
      | some (v, r2) => body s r2 v

/-- FP32 arithmetic of the move machine, rounded to nearest even (R322). -/
def f32 (x : W32) : FVal := decodeNum .f32 x.toNat
def roundF32 (x : FVal) : W32 := BitVec.ofNat 32 (roundNum .f32 .rne 0 x).1

/-- The next key row of the run (R322, R323): it waits for its bank (R327) and ends the run past the window or on poison. -/
def nextRow (s : State) (r : MoveRun) : State :=
  let u := s.unit
  let ch := s.ev.unit
  let k := r.kidx + 1
  let (base, window) := u.keys.getD r.copy (0, 0)
  let n := rowBytesOf u.kfmt
  let a := base + k.toNat * n
  let load (s : State) : State :=
    let (bs, bad) := s.physRead u.part a n
    if bad then (s.deliver u.part a n).endRun r none 2 else s.goOn { r with kidx := k, row := some bs, kel := 0, waitSince := none, promoted := false }
  let wait (s : State) : State :=
    s.setUnit { u with runs := u.runs.drop 1 ++ (u.runs.take 1).map (fun q => { q with waitSince := some (q.waitSince.getD s.time) }) }
  if (k.toNat + 1) * n > window then s.endRun r none 4
  else if r.promoted then load s
  else if wbits (s.buctlReg ch) 0 16 == 0 then load (countPromo s ch)
  else if s.bankBusy ch (bankAt a) then wait s
  else load s

/-- What comes out of a finished program: the bytes written and zeros. -/
def outputOf (u : BankUnit) (r : MoveRun) : List Byte := r.out ++ List.replicate (u.olen - r.out.length) 0

/-- The turn of a bank unit's run: the next move, or the illegal move of R323. -/
def fetchMove (s : State) : Option Instr :=
  match s.run with
  | none => none
  | some r =>
    match s.unit.prog[r.pc]? with
    | none => none
    | some w => decodeMove w.toNat ((s.unit.prog.getD (r.pc + 1) 0).toNat)

/-! The result (R324, R325). -/

/-- The outcome of the runs made: the result, or STAT. -/
def decideBank (u : BankUnit) : Except Nat (List Byte) :=
  let get (i : Nat) : Option (Option (List Byte) × Nat) := mfind u.results i
  let made := u.results.map (·.2)
  let causes := made.map (·.2)
  let failure : Nat := match causes with
    | c :: rest => if made.all (fun r => r.1.isNone) && rest.all (· == c) then c else 1
    | [] => 1
  if !u.dup then (match get 0 with
    | some (some bs, _) => .ok bs
    | some (none, c) => .error c
    | none => .error 1)
  else match get 0, get 1, get 2 with
    | some (some a, _), some (some b, _), _ =>
      if a == b then .ok a
      else (match get 2 with
        | some (some c, _) => if c == a || c == b then .ok c else .error failure
        | _ => .error failure)
    | some (some a, _), _, some (some c, _) => if a == c then .ok c else .error failure
    | _, some (some b, _), some (some c, _) => if b == c then .ok c else .error failure
    | _, _, _ => .error failure

/-- Whether the first two runs of a .dup command call for a third. -/
def wantsThird (u : BankUnit) : Bool :=
  u.dup && (mfind u.results 2).isNone && (match mfind u.results 0, mfind u.results 1 with
    | some (some a, _), some (some b, _) => a != b
    | _, _ => true)

/-- BANK_UNIT_RESULT: a third run on disagreement, otherwise the result goes to OUT by 64-bit words, each once its bank is idle, so that a
read in between sees old words and new ones (R318, R327), then STAT to the record, and the command completes. Nothing is written at OUT on an error. A STAT write that is refused gives
error 1 (DEDUCED from R282, log entry 59). -/
def bankResult (s : State) (ch : Nat) : State :=
  let u := s.bank ch
  let again (t : State) : State := t.pend .bankUnitResult { unit := ch }
  if !u.busy || !u.runs.isEmpty then s
  else if wantsThird u then s.setBank ch { u with runs := [{ copy := 2 }] }
  else match decideBank u with
    | .error stat =>
      if !s.affords u.ctx (ch / 8) 2 then again s
      else (match writeStat s (ch / 8) u.ctx u.part u.recPa u.recHome u.recHi stat with
       | (5, t) => endBank t ch u.eng u.num 5
       | (_, t) => endBank t ch u.eng u.num 12)
    | .ok bs =>
      let a := u.out + u.wrote
      let n := min (bs.length - u.wrote) (8 - a % 8)
      let lo := max u.out (a - a % 64)
      if n != 0 then
        if s.bankBusy ch (bankAt a) then again s
        else
          let t := (s.physWrite u.part a ((bs.drop u.wrote).take n)).retest a n
          again (({ t with poison := clearMarks t.poison lo (a + n - lo) } : State).setBank ch { u with wrote := u.wrote + n })
      else if !s.affords u.ctx (ch / 8) 2 then again s
      else match writeStat s (ch / 8) u.ctx u.part u.recPa u.recHome u.recHi 0 with
        | (err, t) => endBank t ch u.eng u.num err

end Sys2Proof.Machine
end

