-- ==== Sys2Proof/Machine/Continuation.lean ====
section
/-! DEFINITION. How a continuation's run begins and ends (spec/04 R82, R83, spec/16 R253 to R257, R272, spec/21 R342,
R344): safe points, the save area, pick-up, yield, suspension, end and pre-emption. -/

namespace Sys2Proof.Machine

/-! Safe points (R256). -/

/-- The entry of a bundle in the safe-point table of a partition. -/
def State.safePoint (s : State) (part adr : Nat) : Option SafePoint := (mget [] s.safePoints part).find? (fun p => p.adr == adr)
/-- Whether a bundle with SAFE is a safe point: one without an entry is treated as a bundle without SAFE. -/
def State.isSafe (s : State) (part adr : Nat) (safe : Bool) : Bool := safe && (s.safePoint part adr).isSome

/-- The live scalars; bit 0 is ignored. -/
def SafePoint.scalars (p : SafePoint) : List Nat := (liveBits p.smask 64).filter (· != 0)

/-! The save area (R257). -/

/-- A buffer's descriptor as it stands (R29); an unconfigured one saves zeros, which no descriptor is. -/
def Cb.descriptor (b : Cb) : Nat :=
  if b.conf then b.base + b.cap * 2 ^ 32 + b.esz * 2 ^ 48 + b.prd * 2 ^ 64 + b.con * 2 ^ 80 + b.cnt * 2 ^ 96 else 0

/-- A descriptor's buffer, or none where R29 calls it invalid. -/
def parseDescriptor (v : Nat) : Option Cb :=
  let base := bits v 0 20
  let cap := bits v 32 13
  let esz := bits v 48 4
  let prd := bits v 64 13
  let con := bits v 80 13
  let cnt := bits v 96 13
  let reserved := bits v 20 12 + bits v 45 3 + bits v 52 12 + bits v 77 3 + bits v 93 3 + bits v 109 19
  if reserved != 0 || cap == 0 || cap > 4096 || esz > 12 then none
  else if base % (min (2 ^ esz) 256) != 0 || base + cap * 2 ^ esz > 0x100000 then none
  else if prd ≥ cap || con ≥ cap || cnt > cap || con != (prd + cap - cnt) % cap then none
  else some { conf := true, base := base, cap := cap, esz := esz, prd := prd, con := con, cnt := cnt, room := cap - cnt }

/-- What a save writes: offsets in the save area and bytes. seg is the header address of the segment that holds RESUME. -/
def Core.saveImage (k : Core) (p : SafePoint) (seg : Nat) : List (Nat × List Byte) :=
  let word (off : Nat) (v : Word) : Nat × List Byte := (off, natToBytes 8 v.toNat)
  (p.scalars.drop 5).map (fun i => word (8 * i) (k.rs (BitVec.ofNat 6 i)))
    ++ (if bits p.pmask 1 7 != 0 then [(0x200, [k.p &&& BitVec.ofNat 8 (p.pmask / 2 * 2)])] else [])
    ++ [word 0x208 (k.sysReg 0), word 0x210 (k.sysReg 1), word 0x218 (k.sysReg 8), word 0x350 (k.sysReg 7),
        word 0x358 (BitVec.ofNat 64 seg)]
    ++ (liveBits p.lmask 4).map (fun i => let l := k.loop i
        (0x220 + 16 * i, natToBytes 16 (l.count.toNat + (if l.active then 2 ^ 63 + l.first * 2 ^ 64 else 0))))
    ++ (liveBits p.hmask 15).map (fun i => let h := mget {} k.h i
        (0x260 + 16 * i, natToBytes 16 (h.vbase.toNat + b2n h.ronly * 2 ^ 64)))
    ++ (liveBits p.cmask 32).map (fun i => (0x360 + 16 * i, natToBytes 16 (k.cbReg i).descriptor))
    ++ (liveBits p.vmask 32).map (fun i => (0x600 + 256 * i, vecBytes (k.rv (BitVec.ofNat 5 i))))

/-- Writes pieces of memory of a context in order, by the tables of a core; the address of the first that fails. -/
def writePieces (s : State) (x : Nat) (root : Option (Nat × Nat)) : List (Nat × List Byte) → State × Option Nat
  | [] => (s, none)
  | (a, bs) :: rest =>
    match s.vwrite x a bs .core root with
    | .error _ => (s.refusal x a bs.length .core true root, some a)
    | .ok t => writePieces t x root rest

/-- The words of a record after a save (R255): RESUME, STATUS, LIVE with up to five scalars, GROUP. -/
def Core.recordWords (k : Core) (p : SafePoint) (r : Running) (status resume : Nat) (w0 w1 : Word) : List (Nat × List Byte) :=
  let live := p.scalars.take 5
  let mask := (live.zipIdx.map (fun (i, n) => i * 2 ^ (6 * n))).sum
  let word (off : Nat) (v : Word) : Nat × List Byte := (r.recA + off, natToBytes 8 v.toNat)
  [word 0 (wput (wput w0 0 48 resume) 57 7 status), word 8 (wput (wput w1 32 30 mask) 0 16 r.group)]
    ++ live.zipIdx.map (fun (i, n) => word (24 + 8 * n) (k.rs (BitVec.ofNat 6 i)))

/-- Saves the continuation of core c with RESUME and STATUS: the state, or the failing address beside what was written. -/
def saveContinuation (s : State) (c : Nat) (p : SafePoint) (status resume : Nat) : State × Option Nat :=
  let k := s.core c
  match k.running with
  | none => (s, none)
  | some r =>
    let found := s.segmentOf (s.ctxAt c) resume (s.rootOf c) % 2 ^ 48
    let seg := match k.seg with
      | some g => if g.holds resume then g.head else found
      | none => match k.refillTo with
        | some (head, dst) => if dst == resume then head else found
        | none => found
    let root := s.rootOf c
    let b := some (bulkOf c)
    let s := s.reading r.ctx r.recA 16 .core (bulkOf c) root
    match s.vread r.ctx r.recA 8 .core root b, s.vread r.ctx (r.recA + 8) 8 .core root b with
    | .ok v0, .ok v1 =>
      let w0 := bytesToWord v0
      let w1 := bytesToWord v1
      let (s1, bad) := writePieces s r.ctx root ((k.saveImage p seg).map (fun (o, bs) => (r.frame + o, bs)) ++ k.recordWords p r status resume w0 w1)
      ({ s1 with
         savedAt := (r.ctx, r.recA, p.adr) :: s1.savedAt.filter (fun (x, a, _) => !(x == r.ctx && a == r.recA))
         nodeOwner := (if r.node != 0 then [(r.ctx, r.recA, r.node)] else [])
           ++ s1.nodeOwner.filter (fun (x, a, _) => !(x == r.ctx && a == r.recA)) }, bad)
    | _, _ => (s, some r.recA)

/-- A record that its run leaves goes to the tail of its base level (R83, R265). -/
def requeue (s : State) (c : Nat) (r : Running) : State :=
  match s.vreadWord r.ctx r.recA .core, s.vreadWord r.ctx (r.recA + 8) .core with
  | .ok w0, .ok w1 =>
    enterReady s (if recAff w0 then recCore w1 / 8 else bulkOf c)
      { recA := r.recA, ctx := r.ctx, part := r.part, level := recPrio w0, aff := if recAff w0 then some (recCore w1) else none,
        entered := s.time, node := 0, param := r.param }
  | _, _ => s

/-- Saves and gives up the core (R82, R255, R272): a failed save ends the continuation and is reported. -/
def leaveCore (s : State) (c : Nat) (adr status resume : Nat) (again : Bool) : State :=
  match (s.core c).running with
  | none => s.modCore c (fun k => { k.giveUp with active := false })
  | some r =>
    match saveContinuation s c ((s.safePoint r.part adr).getD { adr := adr }) status resume with
    | (t, some bad) => (endContinuation t c).report 4 c r.ctx bad
    | (t, none) =>
      let t1 := t.modCore c Core.giveUp
      if again then requeue t1 c r else t1

/-- Takes a pre-emption at a safe point (R272); IRQ.PRE is cleared when it is taken, and only then (R341). -/
def preemptCore (s : State) (c adr : Nat) : State :=
  leaveCore (s.modCore c (fun k => { k.setSys 9 (k.sysReg 9 &&& 0xFFFFFFFFFFFFFFFE#64) with preAge := 0 })) c adr 1 adr true

/-- The end of a continuation by tend or halt (R83): STATUS 4, a normal leave, its node completed while s61 holds it. -/
def finishContinuation (s : State) (c : Nat) (halt : Bool) : State :=
  let k := s.core c
  let s1 := s.setCore c { k.giveUp with halted := halt || k.halted }
  match k.running with
  | none => s1
  | some r =>
    let s2 := writeStatus s1 r.ctx r.recA 4
    let s3 := if r.group != 0 then leaveGroup s2 r.ctx r.part r.group r.recA false else s2
    let s4 := s3.forget r.ctx r.recA
    if r.node != 0 && (k.rs 61).toNat == r.node then completeNode s4 r.ctx (bulkOf c) r.node r.param else s4

/-! The end of a bundle (R78, R273). -/

/-- LDRAIN at a back edge of the loop it names, decremented to m (R273); with N 0 a drain leaves no trip, and the loop exits. -/
def Core.drainLoop (k : Core) (level m : Nat) : Core :=
  let v := k.sysReg 8
  let n := wbits v 52 6
  let p : PReg := BitVec.ofNat 3 (wbits v 58 3)
  if !wbit v 63 || wbits v 61 2 != level then k
  else if m == n then k.wp p false
  else if m > n && wbit (k.sysReg 9) 0 then
    (({ k with sys := mset 0 k.sys 8 (wput v 0 32 (m - n)) } : Core).setLoop level { k.loop level with count := BitVec.ofNat 32 n }).wp p false
  else k

/-- The end of a bundle whose BR operation made no taken transfer (R78): the loop levels in a list whose end it is are tested
in turn. The core after it, and the first body bundle that a back edge goes to. -/
def Core.closeLoops (k : Core) (adr : Nat) : List Nat → Core × Option Nat
  | [] => (k, none)
  | i :: is =>
    let l := k.loop i
    if l.active && l.last == adr then
      let m := (l.count.toNat + 2 ^ 32 - 1) % 2 ^ 32
      let k1 := k.setLoop i { l with count := BitVec.ofNat 32 m }
      let k2 := if m != 0 then k1.drainLoop i m else k1
      if (k2.loop i).count != 0 then (k2, some l.first)
      else (k2.setLoop i { k2.loop i with active := false }).closeLoops adr is
    else k.closeLoops adr is
/-- All levels, from the highest counter down. -/
def Core.endBundle (k : Core) (adr : Nat) : Core × Option Nat := k.closeLoops adr [3, 2, 1, 0]

/-- yield and susp resume behind their bundle: at the back edge of a loop that ends there, otherwise at its fall-through (R78). R83 names
the fall-through alone and R78 has the loop engine test every loop that ends at the bundle: which of them RESUME follows at a back edge is
the model's choice (DESIGN CHOICE, log entry 113). -/
def leaveBehind (s : State) (c adr fall status : Nat) (again : Bool) : State :=
  let (k, back) := (s.core c).endBundle adr
  leaveCore (s.setCore c k) c adr status (back.getD fall) again

/-- What the core does when it has drained (R82, R272, R349, R59, R76). -/
def finishDrain (s : State) (c : Nat) : State :=
  let k := s.core c
  match k.drain with
  | .op (.yield _) adr fall _ _ => leaveBehind s c adr fall 1 true
  | .op (.susp _) adr fall _ _ => leaveBehind s c adr fall 2 false
  | .op (.tend _) _ _ _ _ => finishContinuation s c false
  | .op (.halt _) _ _ _ _ => finishContinuation s c true
  | .op (.eret _) _ _ _ _ => resume s c
  | .preempt adr => preemptCore s c adr
  | _ => s

/-- Once every slot is through its queued issues and every result has landed, the gated stores are performed and the mark is
disarmed (R82, R272, R339); eret leaves a mark armed (R333). -/
def performGated (s : State) (c : Nat) : State :=
  let k := s.core c
  let leaves := match k.drain with
    | .op (.eret _) _ _ _ _ => false
    | .op _ _ _ _ _ => true
    | .preempt _ => true
    | _ => false
  if leaves && k.mark.armed && k.flights.isEmpty && k.slots.all (fun sl => k.nextIdx ≤ sl.next) then commitDisarm s c else s
/-- What waits for the core to drain is done as soon as it has. -/
def drainStep (s : State) (c : Nat) : State :=
  let s1 := performGated s c
  if drained s1 c then finishDrain s1 c else s1
/-- Stops dispatch until the core has drained. -/
def drainThen (s : State) (d : Drain) : State := drainStep (s.modMe (fun k => { k with drain := d })) s.cur

/-! Pick-up (R255). -/

/-- The context's registers as its descriptor holds them (R352). -/
def Core.loadContext (k : Core) (s : State) (x : Nat) : Core :=
  let k1 := [(0x06, 0x10), (0x31, 0x08), (0x33, 0x18), (0x34, 0x20)].foldl (fun (j : Core) (n, off) => j.setSys n (s.ctxd x off)) k
  let k2 := (List.range 16).foldl (fun (j : Core) i => j.setSys (0x50 + i) (s.ctxd x (0xC0 + 8 * i))) k1
  { k2 with tlctx := (List.range 16).map (fun i => (i, s.ctxd x (0x40 + 8 * i))) }

/-- The end bundle of a restored loop (R257): that of the loop instruction in the bundle before its first body bundle, in the
segment that holds the body. -/
def Seg.loopEnd (g : Seg) (first : Nat) : Nat :=
  match (g.starts.map (fun n => g.first + 4 * n)).find? (fun a => a + 4 * (g.bundleAt a).len == first) with
  | none => first
  | some a =>
    match (g.bundleAt a).syls.find? (fun y => y.1 == 7) with
    | some (_, w, ext) =>
      (match decodeSyllable 7 w ext with
       | .ok (.loop _ _ _ e) => a + 4 * e.toNat
       | .ok (.loopi _ _ _ e) => a + 4 * e.toNat
       | _ => first)
    | none => first

/-- The end bundle of a loop that RESUME's segment g or another one holds (R79). -/
def State.loopEnd (s : State) (x : Nat) (g : Seg) (first : Nat) : Nat :=
  if g.holds first then g.loopEnd first else (s.readSegment x (s.segmentOf x first)).loopEnd first

/-- Reads a piece of the save area from bulkhead b; none where it cannot be read. -/
def State.savedPiece (s : State) (x b frame off n : Nat) : Option Nat :=
  match s.vread x (frame + off) n .core none (some b) with
  | .ok bs => some (bytesToNat bs)
  | .error _ => none

/-- What reading the save area does at the homes of its lines: those of its fixed part and of the vectors that are live. -/
def readArea (s : State) (c x frame : Nat) (p : SafePoint) : State :=
  (((List.range 6).map (256 * ·)) ++ (liveBits p.vmask 32).map (fun i => 0x600 + 256 * i)).foldl
    (fun (t : State) o => t.reading x (frame + o) 256 .core (bulkOf c)) s

/-- Restores the save area into core c (R257), or the address of the first piece that cannot be read (R255). Restored handles are
translated as by xlat, and pending until then (R212). -/
def restoreArea (s : State) (c x frame : Nat) (p : SafePoint) (g : Seg) : Except Nat State :=
  let each (xs : List Nat) (off size : Nat) (f : Core → Nat → Nat → Core) (o : Except Nat Core) : Except Nat Core :=
    xs.foldl (fun acc i => match acc, s.savedPiece x (bulkOf c) frame (off + size * i) size with
      | .ok k, some v => .ok (f k i v)
      | .ok _, none => .error (frame + off + size * i)
      | .error a, _ => .error a) o
  let k0 : Except Nat Core := .ok (s.core c)
  let k1 := each (p.scalars.drop 5) 0 8 (fun k i v => k.ws (BitVec.ofNat 6 i) (BitVec.ofNat 64 v)) k0
  let k2 := if bits p.pmask 1 7 == 0 then k1 else
    each [0] 0x200 1 (fun k _ v => (liveBits p.pmask 8).foldl (fun j i => j.wp (BitVec.ofNat 3 i) (bits v i 1 == 1)) k) k1
  let k3 := [(0x208, 0), (0x210, 1), (0x218, 8), (0x350, 7)].foldl (fun acc (e : Nat × Nat) => each [0] e.1 8 (fun k _ v =>
    k.setSys e.2 (if e.2 == 0 then felValue (BitVec.ofNat 64 v) else BitVec.ofNat 64 v &&& sysMask e.2)) acc) k2
  let k4 := each (liveBits p.lmask 4) 0x220 16 (fun k i v =>
    let first := bits v 64 48
    k.setLoop i { count := BitVec.ofNat 32 v, active := bits v 63 1 == 1, first := first, last := if bits v 63 1 == 1 then s.loopEnd x g first else first }) k3
  let k5 := each (liveBits p.hmask 15) 0x260 16 (fun k i v =>
    k.setHandle i { state := 1, vbase := BitVec.ofNat 57 v, ronly := bits v 64 1 == 1, gen := (mget {} k.h i : Handle).gen + 1 }) k4
  let k6 := each (liveBits p.cmask 32) 0x360 16 (fun k i v =>
    match parseDescriptor v with
    | some d => k.setCb i { d with gen := (k.cbReg i).gen / 2 * 2 + 2 }
    | none => k) k5
  let k7 := each (liveBits p.vmask 32) 0x600 256 (fun k i v => k.wv (BitVec.ofNat 5 i) (BitVec.ofNat 2048 v)) k6
  k7.map (fun k => s.setCore c { k with flights := k.flights ++ (liveBits p.hmask 15).map (fun i =>
    { slot := 1, due := k.slotCycle + 32, seq := 0, what := .handle i (mget {} k.h i : Handle).gen.toNat }) })

/-- Applies the logged writes of core c in log order, up to a barrier answer of it that has not been taken (R344): the core
and what stays in the log. -/
def replayWrites (c : Nat) : List Arrival → Core → Core × List Arrival
  | [], k => (k, [])
  | e :: es, k =>
    if e.core == c && e.kind == 3 then (k, e :: es)
    else if e.core == c && e.kind == 1 then
      replayWrites c es (let base := wbits (k.sysReg 0x30) 0 5 * 0x8000; k.steepWrite (e.tgt - base) e.data e.fill e.bad (e.more.map (· - base / 8)))
    else if e.core == c && e.kind == 2 then replayWrites c es (k.liveWrite e.tgt e.data e.fill e.bad e.more)
    else let (k1, rest) := replayWrites c es k; (k1, e :: rest)
/-- Replays the writes logged for core c into it. -/
def replayLog (s : State) (c : Nat) : State :=
  let (k, keep) := replayWrites c s.arrivals (s.core c)
  let xs := ((s.arrivals.filter (fun e => e.core == c)).map (·.ctx)).eraseDups
  xs.foldl (fun (t : State) x => dropArrivals t x keep) (s.setCore c k)
/-- The answer that a continuation's arrival log holds (R344) reaches its EN slot on core c before its first bundle; a
barrier's swap comes first, then the writes logged after it. -/
def replayAnswer (s : State) (c x a : Nat) : State :=
  match s.arrivals.find? (fun e => 3 ≤ e.kind && e.ctx == x && e.tgt == a) with
  | none => s
  | some e =>
    let s1 := dropArrivals s x (s.arrivals.erase e)
    let s2 := if e.kind == 3 && e.abn == 0 then replayLog (s1.modCore c Core.swapWindow) c else s1
    s2.modCore c (fun k => k.modSlot 6 (fun sl => { sl with reply := some { id := 0, value := BitVec.ofNat 64 e.abn, status := stGood } }))

/-- Core c picks up a record that waits for it (R255): STATUS 3, scalars, save area, node registers, context registers,
then the segment of RESUME after a refill. A record or save area that cannot be read ends the continuation. -/
def pickUp (s0 : State) (c : Nat) (e : Ready) : State :=
  let x := e.ctx
  let s := s0.reading x e.recA 64 .core (bulkOf c)
  match s.vread x e.recA 64 .core none (some (bulkOf c)) with
  | .error _ =>
    let s1 := leaveAll ((writeStatus s x e.recA 5).forget x e.recA) x e.part e.recA
    (if e.node != 0 then nodeError s1 x e.node else s1).report 4 c x e.recA
  | .ok bs =>
    let w0 := wordAt bs 0
    let w1 := wordAt bs 1
    let frame := (wordAt bs 2).toNat
    let st := recStatus w0
    let resumeA := recResume w0
    let saved := st == 1 || st == 2
    let owner := if saved then (s.nodeOwner.find? (fun y => y.1 == x && y.2.1 == e.recA)).map (fun y => y.2.2) else none
    let run : Running := { recA := e.recA, ctx := x, part := e.part, group := recGroup w1,
                           node := if e.node != 0 then e.node else owner.getD 0, param := e.param, frame := frame, flagged := s.ctxDebug x }
    let s1 := writeStatus (if saved then s else s.forget x e.recA) x e.recA 3
    let b := bulkOf c
    let s2 := (s1.setBucket x b { s1.bucket x b with cfg := some (s1.ctxd x 0x20) }).modCore c (fun k =>
      let k0 : Core := { k.giveUp with
        running := some run, active := true, lastCtx := x
        h := k.h.map (fun (i, y) => (i, { y with state := 0 }))
        cb := k.cb.map (fun (i, y) => (i, { gen := y.gen + 1 })) }
      let k1 := (k0.loadContext s1 x).ws 62 (wordAt bs 2)
      let k2 := (List.range 5).foldl (fun (j : Core) i => j.ws (BitVec.ofNat 6 (wbits w1 (32 + 6 * i) 6)) (wordAt bs (3 + i))) k1
      let k3 := [0, 1, 7, 8].foldl (fun (j : Core) n => j.setSys n 0) k2
      { k3 with felSeq := 0, felHold := 0, slots := k3.slots.map (fun sl => { sl with clk := 0 }) })
    let nodeRegs (t : State) : State := if e.node != 0 then
        t.modCore c (fun k => (k.ws 61 (BitVec.ofNat 64 e.node)).ws 60 e.param) else t
    let start (t : State) (head : Nat) : State := t.modCore c (fun k => { k with pc := resumeA, rptK := 0, refill := 40, refillTo := some (head, resumeA) })
    if saved then
      let at_ := ((s.savedAt.find? (fun y => y.1 == x && y.2.1 == e.recA)).map (fun y => y.2.2)).getD resumeA
      let point := (s.safePoint e.part at_).getD { adr := at_ }
      let s2 := readArea s2 c x frame point
      let fail (a : Nat) : State := (endContinuation s2 c).report 4 c x a
      match s2.savedPiece x (bulkOf c) frame 0x358 8 with
      | none => fail (frame + 0x358)
      | some seg =>
        let head := seg % 2 ^ 48
        match restoreArea s2 c x frame point (s2.readSegment x head none (some (bulkOf c))) with
        | .error a => fail a
        | .ok s3 =>
          start (replayAnswer (nodeRegs s3) c x e.recA) head
    else start (nodeRegs s2) ((resumeA + 2 ^ 48 - 16) % 2 ^ 48)

/-- The record that an idle core takes next (R266): the first level from 7 down with one that it may run, the earlier
entry first, its affinity queue on equal times. -/
def chooseReady (q : List Ready) (c : Nat) : Option Ready :=
  ([7, 6, 5, 4, 3, 2, 1, 0].map (fun level =>
    let here := q.filter (fun e => e.level == level && (e.aff.isNone || e.aff == some c))
    here.foldl (fun (best : Option Ready) e => match best with
      | none => some e
      | some b => if e.entered < b.entered || (e.entered == b.entered && e.aff.isSome && b.aff.isNone) then some e else some b) none)).findSome? id

/-- Whether core c may take a record now; while its bulkhead changes partitions, none does (R275). -/
def Core.idle (k : Core) : Bool := k.running.isNone && !k.halted
def State.takes (s : State) (c : Nat) : Bool :=
  !isMgmt c && s.bootOk && (s.core c).idle && !(s.bulk (bulkOf c)).switching && (s.bulk (bulkOf c)).sched && (s.bulk (bulkOf c)).state == 0 && !(s.bulk (bulkOf c)).pre

end Sys2Proof.Machine
end

