-- ==== Sys2Proof/Machine/Branch.lean ====
section
/-! DEFINITION. The instructions of slot BR (spec/04 R73 to R83, spec/21 R347 to R350): transfers, loops, bucket dispatch,
task control, traps and returns. -/

namespace Sys2Proof.Machine

/-! Loops (R77, R78). -/

/-- Control after such a bundle: a back edge, or the fall-through. -/
def resolveBranch (s : State) (c adr fall : Nat) : State :=
  let (k, back) := { s.core c with brWait := none }.endBundle adr
  let s1 := s.setCore c k
  { (match back with | some first => transfer s1 c first | none => fallThrough s1 c fall) with now := s.now }

/-- The trip count of loop (R77). -/
def tripCount (v : Word) : Nat := if v.toInt ≤ 0 then 0 else min v.toNat (2 ^ 32 - 1)

/-- loop and loopi (R77). -/
def startLoop (s : State) (l : LcReg) (n : Nat) (e : BitVec 11) : State :=
  let c := s.cur
  let last := s.now.adr + 4 * e.toNat
  let s1 := s.modCore c (fun k =>
    let k1 := { k with loops := k.loops.zipIdx.map (fun (y : Loop × Nat) => if y.2 ≥ l.toNat then { y.1 with active := false } else y.1) }
    k1.setLoop l.toNat { count := BitVec.ofNat 32 n, active := n != 0, first := s.now.fall, last := last })
  if n != 0 then s1
  else
    let out := match s.me.seg with | some g => g.fall last (g.bundleAt last) | none => s.now.fall
    let s2 := fallThrough s1 c out
    { s2 with now := { s2.now with taken := true } }

def execLoop (g : Guard) (l : LcReg) (c : SReg) (e : BitVec 11) (s : State) : Outcome :=
  .next (issue g 1 s (fun s => startLoop s l (tripCount (s.me.rs c)) e))
def execLoopi (g : Guard) (l : LcReg) (c : Count) (e : BitVec 11) (s : State) : Outcome :=
  .next (issue g 1 s (fun s => startLoop s l (match c with | .short i => i.toNat | .ext w => w.toNat) e))

/-! Transfers (R73 to R76). -/

/-- A transfer to a target from a register or a jump table: a target that fails R76 raises the illegal-bundle trap once
the earlier bundles have issued. -/
def jump (s : State) (target : Word) : State :=
  if s.me.targetOk target then transfer s s.cur target.toNat
  else trapWhenDrained { code := 1, cause := 0, res := 3, adr := target.toNat, ilb := ilbWord 3 [] } s

def execB (g : Guard) (o : BitVec 19) (s : State) : Outcome :=
  .next (issue g 1 s (fun s => transfer s s.cur (branchTarget s.now.adr o)))
def execBl (g : Guard) (o : BitVec 19) (s : State) : Outcome :=
  .next (issue g 1 s (fun s => transfer (s.result 1 63 (BitVec.ofNat 64 s.now.fall)) s.cur (branchTarget s.now.adr o)))
def execBr (g : Guard) (a : SReg) (s : State) : Outcome :=
  .next (issue g 1 s (fun s => jump s (s.me.rs a)))
def execCall (g : Guard) (d a : SReg) (s : State) : Outcome :=
  .next (issue g 1 s (fun s => jump (s.result 1 d (BitVec.ofNat 64 s.now.fall)) (s.me.rs a)))
def execRet (g : Guard) (a : SReg) (s : State) : Outcome :=
  .next (issue g 1 s (fun s => jump (s.modMe (fun k => { k with returns := k.returns + 1 })) (s.me.rs a)))

/-! Bucket dispatch (R80, R81). -/

/-- The entry that a count selects: thresholds are BKT0 to BKT7. -/
def bucketEntry (k : Core) (cnt : Nat) : Nat :=
  if cnt == 0 then 0
  else match (List.range 8).find? (fun i => wbits (k.sysReg (0x18 + i)) 0 32 ≥ cnt) with
    | some i => i + 1
    | none => 9

/-- The entry is read in the four cycles after the disp bundle, here at their end (log entry 93); the transfer counts from
there. -/
def dispJump (s : State) (c : Nat) : State :=
  match (s.core c).dispAt with
  | none => s
  | some a =>
    let t := landDue (s.modCore c (fun k => { k with dispAt := none })) c
    jump t (bytesToWord ((t.core c).gatedView.scratchRead a 8))
/-- disp: the checks of its table, bound before alignment, and the wait for its entry. The trap record names the handle 15, as
that of an access through h15 (DEDUCED, log entry 94). -/
def execDisp (g : Guard) (a b : SReg) (s : State) : Outcome :=
  .next (issue g 1 s (fun s =>
    let table := (s.me.rs b).toNat
    if table + 80 > 0x100000 then s.trap { code := 8, cause := 2, res := 1, hnd := 15, va := table }
    else if table % 8 != 0 then s.trap { code := 8, cause := 3, res := 1, hnd := 15, va := table }
    else
      let t := s.modMe (fun k => { k with dispAt := some (table + 8 * bucketEntry k (k.rs a).toNat), refill := 4 })
      { t with now := { t.now with taken := true } }))

/-! Task control (R82, R83). -/

/-- yield and susp need a save area; both drain the core, perform its gated stores and disarm the mark. -/
def leaveRun (i : Instr) (s : State) : State :=
  match s.me.running with
  | some r =>
    if r.frame == 0 then s.trap { code := 8, cause := 5, res := 1 }
    else drainThen s (.op i s.now.adr s.now.fall s.now.safe s.now.seq)
  | none => drainThen s (.op i s.now.adr s.now.fall s.now.safe s.now.seq)
/-- tend and halt. -/
def endRun (i : Instr) (s : State) : State :=
  drainThen s (.op i s.now.adr s.now.fall s.now.safe s.now.seq)

def execYield (g : Guard) (s : State) : Outcome := .next (issue g 1 s (fun s => leaveRun (.yield g) s))
def execSusp (g : Guard) (s : State) : Outcome := .next (issue g 1 s (fun s => leaveRun (.susp g) s))
def execTend (g : Guard) (s : State) : Outcome := .next (issue g 1 s (fun s => endRun (.tend g) s))
def execHalt (g : Guard) (s : State) : Outcome := .next (issue g 1 s (fun s => endRun (.halt g) s))

/-! Waiting for an interrupt (R350). -/

/-- What an iwait does when the core has drained: once IRQ and the mask meet, the result lands and dispatch goes on. A
pre-emption request at a safe point is taken there, and the iwait executes again on resumption. -/
def finishWait (s : State) (c : Nat) : State :=
  let k := s.core c
  match k.drain with
  | .iwaiting d mask adr safe seq =>
    if !drained s c then s
    else if safe && wbit (k.sysReg 9) 0 && !k.svc && (match k.running with | some r => r.frame != 0 | none => false) then
      let t := commitDisarm s c
      if drained t c then preemptCore t c adr else t
    else
      let hit := wbits (k.sysReg 9) 0 5 &&& mask
      if hit == 0 then s
      else
        let k1 := { k with drain := .none
                           flights := k.flights ++ [{ slot := 7, due := (k.slot 7).clk, seq := seq, what := .s d (BitVec.ofNat 64 hit), adr := adr }] }
        let fall := match k.seg with | some g => g.fall adr (g.bundleAt adr) | none => 0
        resolveBranch (s.setCore c k1) c adr fall
  | _ => s

def execIwait (g : Guard) (d : SReg) (i : BitVec 7) (s : State) : Outcome :=
  .next (issue g 1 s (fun s =>
    let s1 := s.modMe (fun k => { k with drain := .iwaiting d i.toNat s.now.adr (s.isSafe k.partOf s.now.adr s.now.safe) s.now.seq })
    finishWait s1 s1.cur))

/-! Traps and the return from service (R348, R349). -/

/-- A trap of BR: it is taken once the other slots have issued its bundle, and resumption goes on behind it. -/
def softTrap (s : State) (code k : Nat) : State :=
  trapWhenDrained { code := code, cause := k, res := 0, slot := 7, adr := s.now.adr, after := true } (resolveBranch s s.cur s.now.adr s.now.fall)

def execTrap (g : Guard) (i : BitVec 7) (s : State) : Outcome :=
  .next (issue g 1 s (fun s => softTrap s 4 i.toNat))
/-- brk under the context's debug flag freezes the core for the management core instead. -/
def execBrk (g : Guard) (i : BitVec 7) (s : State) : Outcome :=
  .next (issue g 1 s (fun s =>
    match s.me.running with
    | some r =>
      if r.flagged then
        let s1 := (resolveBranch s s.cur s.now.adr s.now.fall).modMe (fun k => { k with running := some { r with dbg := true } })
        ((({ s1 with now := { s1.now with taken := true } } : State).report 5 s.cur r.ctx i.toNat).pend .debugFreezeResume
          { unit := s.cur, idx := i.toNat, aux := s.now.adr }).pend .debugFreezeResume
          { unit := s.cur, idx := i.toNat, aux := s.now.adr, flag := true }
      else softTrap s 3 i.toNat
    | none => softTrap s 3 i.toNat))
def execEret (g : Guard) (s : State) : Outcome :=
  .next (issue g 1 s (fun s => drainThen s (.op (.eret g) s.now.adr s.now.fall s.now.safe s.now.seq)))

end Sys2Proof.Machine
end

