-- ==== Sys2Proof/Machine/LoadStore.lean ====
section
/-! DEFINITION. Plain loads and stores and widening loads (spec/14 R232, R237). -/

namespace Sys2Proof.Machine

/-- The weight of a plain scalar access (R36). -/
def plainWeight (h : HReg) : Nat := if h == 15 then 4 else 6

/-- A read through h15: it lands after 4 cycles; poison makes a trap when it lands (R193). -/
def State.scratchLoad (s : State) (a z : Nat) (land : List Byte → Landing) : State :=
  let v := s.me.gatedView
  s.emit 4 (land (v.scratchRead a z)) 0 (v.scratchPoisoned a z) a 15 0

/-- A read of a pinned page of the core's own bulkhead: it lands after 24 cycles (R199). The core's earlier stores to its lines and
reads of them come first at the home (R223 item 2). -/
def State.nearLoad (s0 : State) (h : Nat) (hd : Handle) (off pa home hi z : Nat) (land : List Byte → Landing) : State :=
  let s := (settleHome s0 s0.cur pa z).readsLines s0.me.ctxOf s0.me.partOf hi (bulkOf s0.cur) pa z
  let (bs, st, _) := (s.viewOf s.cur).homeRead s.me.partOf home pa z
  s.emit 24 (land bs) 0 (st != stGood) (hd.vbase.toNat + off) h hd.gen.toNat

/-- A plain load (R229, R232): r names the register of a load from the management or hub space. -/
def loadPlain (s : State) (h : HReg) (o : SReg) (t : Step) (z : Nat) (plain8 : Bool) (r : SReg) (land : List Byte → Landing) : State :=
  let off := s.offset o (stepBytes t z)
  let hd := s.handle s.cur h.toNat
  s.using (s.access s.cur h.toNat off z false false plain8) (fun target =>
    match target with
    | .scratch a => s.scratchLoad a z land
    | .space hub a => s.emit 24 (.mgmtLoad hub a r)
    | .mem pa home hi =>
      let cause := farCause s s.cur hi pa
      if cause != 0 then s.trap (handleTrap h.toNat hd 7 cause 0)
      else s.nearLoad h.toNat hd off.toNat pa home hi z land)

/-- A load into a scalar register, sign- or zero-extended. -/
def loadScalar (g : Guard) (d : SReg) (h : HReg) (o : SReg) (t : Step) (z : Nat) (signed : Bool) (s : State) : State :=
  issue g (plainWeight h) s (fun s => loadPlain s h o t z (z == 8) d (fun bs =>
    .s d (if signed then BitVec.ofInt 64 (sxNat (8 * z) (bytesToNat bs)) else bytesToWord bs)))

/-- A store's effect once its checks have passed: through h15 after one cycle, elsewhere posted to the home. -/
def State.storeTo (s : State) (target : Target) (va : Nat) (data : List Byte) : State :=
  match target with
  | .scratch a => s.emit 1 (.store a data)
  | .space hub a => s.emit 1 (.mgmt hub a (bytesToWord data))
  | .mem pa home hi =>
    if s.queued s.cur ≥ 16 then s.stall
    else s.emit 1 (.post (s.request .store data.length pa home va .dev data hi))

/-- A plain store (R229, R232). -/
def storePlain (s : State) (h : HReg) (o : SReg) (t : Step) (z : Nat) (plain8 : Bool) (data : List Byte) : State :=
  let off := s.offset o (stepBytes t z)
  s.using (s.access s.cur h.toNat off z true false plain8) (fun target =>
    s.storeTo target ((s.handle s.cur h.toNat).vbase.toNat + off.toNat) data)
def storeScalar (g : Guard) (d : SReg) (h : HReg) (o : SReg) (t : Step) (z : Nat) (s : State) : State :=
  issue g (plainWeight h) s (fun s => storePlain s h o t z (z == 8) (natToBytes z (s.me.rs d).toNat))

def execLdb (g : Guard) (d : SReg) (h : HReg) (o : SReg) (t : Step) (s : State) : Outcome := .next (loadScalar g d h o t 1 true s)
def execLdh (g : Guard) (d : SReg) (h : HReg) (o : SReg) (t : Step) (s : State) : Outcome := .next (loadScalar g d h o t 2 true s)
def execLdw (g : Guard) (d : SReg) (h : HReg) (o : SReg) (t : Step) (s : State) : Outcome := .next (loadScalar g d h o t 4 true s)
def execLdd (g : Guard) (d : SReg) (h : HReg) (o : SReg) (t : Step) (s : State) : Outcome := .next (loadScalar g d h o t 8 true s)
def execLdbz (g : Guard) (d : SReg) (h : HReg) (o : SReg) (t : Step) (s : State) : Outcome := .next (loadScalar g d h o t 1 false s)
def execLdhz (g : Guard) (d : SReg) (h : HReg) (o : SReg) (t : Step) (s : State) : Outcome := .next (loadScalar g d h o t 2 false s)
def execLdwz (g : Guard) (d : SReg) (h : HReg) (o : SReg) (t : Step) (s : State) : Outcome := .next (loadScalar g d h o t 4 false s)
def execStb (g : Guard) (d : SReg) (h : HReg) (o : SReg) (t : Step) (s : State) : Outcome := .next (storeScalar g d h o t 1 s)
def execSth (g : Guard) (d : SReg) (h : HReg) (o : SReg) (t : Step) (s : State) : Outcome := .next (storeScalar g d h o t 2 s)
def execStw (g : Guard) (d : SReg) (h : HReg) (o : SReg) (t : Step) (s : State) : Outcome := .next (storeScalar g d h o t 4 s)
def execStd (g : Guard) (d : SReg) (h : HReg) (o : SReg) (t : Step) (s : State) : Outcome := .next (storeScalar g d h o t 8 s)

def execVld (g : Guard) (d : VReg) (h : HReg) (o : SReg) (t : Step) (s : State) : Outcome :=
  .next (issue g 12 s (fun s => loadPlain s h o t 256 false 0 (fun bs => .v d (bytesVec bs))))
def execVst (g : Guard) (d : VReg) (h : HReg) (o : SReg) (t : Step) (s : State) : Outcome :=
  .next (issue g 12 s (fun s => storePlain s h o t 256 false (vecBytes (s.me.rv d))))
/-- The 8 bytes fill each of the 32 words of vD. -/
def broadcastWord (bs : List Byte) : Vec := bytesVec (List.replicate 32 bs).flatten
def execVldb (g : Guard) (d : VReg) (h : HReg) (o : SReg) (t : Step) (s : State) : Outcome :=
  .next (issue g 12 s (fun s => loadPlain s h o t 8 false 0 (fun bs => .v d (broadcastWord bs))))

/-! Widening loads (R237). -/

/-- The BF16 code of an element's value: exact, infinities kept, NaN and NaR canonical. -/
def widen (f : Fmt) (code : Nat) : Nat := (roundFloat .bf16 .rne 0 .plain (decodeNum f code)).1
/-- 128 elements of a format as the lanes of a vector. -/
def widenLanes (f : Fmt) (bs : List Byte) : Vec := vecOf .bf16 ((lanesOf f.width 128 (bytesToNat bs)).map (widen f))
/-- The format wld8 decodes in: that of the addressed bank through h15 where it has 8 bits, otherwise i8. -/
def wld8Format (s : State) (h : HReg) (off : Word) : Fmt :=
  if h == 15 then
    (match wbits (s.me.sysReg (0x60 + bankOf off.toNat % 32)) 0 4 with
     | 3 => .e4m3
     | 4 => .e5m2
     | 5 => .mk8
     | _ => .i8)
  else .i8

def execWld4 (g : Guard) (d : VReg) (h : HReg) (o : SReg) (t : Step) (s : State) : Outcome :=
  .next (issue g 12 s (fun s => loadPlain s h o t 64 false 0 (fun bs => .v d (widenLanes .i4 bs))))
def execWld8 (g : Guard) (d : VReg) (h : HReg) (o : SReg) (t : Step) (s : State) : Outcome :=
  .next (issue g 12 s (fun s =>
    let f := wld8Format s h (s.offset o (stepBytes t 128))
    loadPlain s h o t 128 false 0 (fun bs => .v d (widenLanes f bs))))

end Sys2Proof.Machine
end

