-- ==== Sys2Proof/Machine/Buffers.lean ====
section
/-! DEFINITION. Circular-buffer moves (spec/14 R233 to R236). -/

namespace Sys2Proof.Machine

/-- cbput (R234): one element from the low bytes of a vector register. -/
def cbPut (s : State) (d : VReg) (n : CbReg) : State :=
  let b := s.me.cbReg n.toNat
  if b.conf && b.esz > 8 then s.trap (cbTrap 4)
  else s.producing n.toNat 1 (fun s b =>
    (s.emit 1 (.bytes (b.elemAddr b.prd) ((vecBytes (s.me.rv d)).take b.size))).emit 1 (.cnt n.toNat b.gen 1))

/-- cbget (R234): one element into the low bytes of a vector register, the others zero. -/
def cbGet (s : State) (d : VReg) (n : CbReg) : State :=
  let b := s.me.cbReg n.toNat
  if b.conf && b.esz > 8 then s.trap (cbTrap 4)
  else s.consuming n.toNat 1 (fun t b =>
    let (bs, bad) := s.me.element b b.con
    if bad then s.trap (poisonElem s.me b)
    else (t.emit 4 (.v d (bytesVec bs))).emit 1 (.room n.toNat b.gen 1))

/-- ldc (R233): the access is checked in the cycle in which it would fire; the element is filled when its data arrives. -/
def ldc (s : State) (d : CbReg) (h : HReg) (o : SReg) (t : Step) : State :=
  let cb := d.toNat
  let b := s.me.cbReg cb
  let z := b.size
  let off := s.offset o (stepBytes t z)
  match cbLimit b 1 with
  | some tr => s.trap tr
  | none =>
    if b.room < 1 || (s.handle s.cur h.toNat).state == 1 then s.stall
    else s.using (s.access s.cur h.toNat off z false false false) (fun target =>
      let fire (t : State) (id : Nat) (homes : List Nat) : State := t.modMe (fun k =>
        { k.setCb cb (b.produce 1) with elems := k.elems ++ [{ id := id, cb := cb, gen := b.gen, off := b.elemAddr b.prd, size := z, seq := s.now.seq, homes := homes }] })
      match target with
      | .scratch a =>
        let v := s.me.gatedView
        (fire { s with nextReq := s.nextReq + 1 } s.nextReq [bulkOf s.cur]).emit 4 (.elem s.nextReq (v.scratchRead a z)) 0 (v.scratchPoisoned a z)
      | .mem pa home hi =>
        if s.queued s.cur ≥ 16 then s.stall
        else
          let (data, mask) := gatedOver s.me pa z
          let r := s.request .read z pa home ((s.handle s.cur h.toNat).vbase.toNat + off.toNat) .dev data hi
          let (id, s1) := s.send { r with mask := mask, elem := some s.nextReq }
          fire s1 id (s.homesOf s.me.partOf hi home pa z)
      | .space _ _ => s)

/-- stc (R233): an element is written to memory like a store; a marked element writes nothing. -/
def stc (s : State) (d : CbReg) (h : HReg) (o : SReg) (t : Step) : State :=
  let cb := d.toNat
  let b := s.me.cbReg cb
  let z := b.size
  let off := s.offset o (stepBytes t z)
  match cbLimit b 1 with
  | some tr => s.trap tr
  | none =>
    if b.cnt < 1 || (s.handle s.cur h.toNat).state == 1 then s.stall
    else s.using (s.access s.cur h.toNat off z true false false) (fun target =>
      let (bs, bad) := s.me.element b b.con
      let full := match target with | .mem _ _ _ => decide (s.queued s.cur ≥ 16) | _ => false
      if bad then s.trap { poisonElem s.me b with hnd := h.toNat, gen := (s.handle s.cur h.toNat).gen.toNat }
      else if full then s.stall
      else ((s.modMe (fun k => k.setCb cb (b.consume 1))).emit 1 (.room cb b.gen 1)).storeTo target
        ((s.handle s.cur h.toNat).vbase.toNat + off.toNat) bs)

/-- cbadvp (R235): n elements already in place. -/
def cbAdvance (s : State) (d : CbReg) (o : SReg) (prod : Bool) : State :=
  let n := (s.me.rs o).toNat
  if prod then s.producing d.toNat n (fun s b => s.emit 1 (.cnt d.toNat b.gen n))
  else s.consuming d.toNat n (fun s b => s.emit 1 (.room d.toNat b.gen n))

/-- cbcfg (R236): the descriptor is read and checked now; the buffer is cut off from its old state at once. -/
def cbConfigure (s : State) (d : CbReg) (o : SReg) (t : Step) : State :=
  let off := s.offset o (stepBytes t 16)
  s.using (checkScratch off.toNat 16) (fun target =>
    match target with
    | .scratch a =>
      let v := s.me.gatedView
      if v.scratchPoisoned a 16 then s.trap { code := 5, cause := 1, res := 1, hnd := 15, va := a }
      else match parseDescriptor (bytesToNat (v.scratchRead a 16)) with
        | none => s.trap { code := 8, cause := 4, res := 1, hnd := 15, va := a }
        | some b => (s.modMe (fun k => let old := k.cbReg d.toNat; k.setCb d.toNat { old with gen := old.gen / 2 * 2 + 1 })).emit 4 (.cbcfg d.toNat b)
    | _ => s)

def execCbput (g : Guard) (d : VReg) (n : CbReg) (s : State) : Outcome := .next (issue g 12 s (fun s => cbPut s d n))
def execCbget (g : Guard) (d : VReg) (n : CbReg) (s : State) : Outcome := .next (issue g 12 s (fun s => cbGet s d n))
def execLdc (g : Guard) (d : CbReg) (h : HReg) (o : SReg) (t : Step) (s : State) : Outcome := .next (issue g 12 s (fun s => ldc s d h o t))
def execStc (g : Guard) (d : CbReg) (h : HReg) (o : SReg) (t : Step) (s : State) : Outcome := .next (issue g 12 s (fun s => stc s d h o t))
def execCbadvp (g : Guard) (d : CbReg) (o : SReg) (s : State) : Outcome := .next (issue g 4 s (fun s => cbAdvance s d o true))
def execCbadvc (g : Guard) (d : CbReg) (o : SReg) (s : State) : Outcome := .next (issue g 4 s (fun s => cbAdvance s d o false))
def execCbcfg (g : Guard) (d : CbReg) (o : SReg) (t : Step) (s : State) : Outcome := .next (issue g 4 s (fun s => cbConfigure s d o t))

end Sys2Proof.Machine
end

