-- ==== Sys2Proof/Machine/FullEmpty.lean ====
section
/-! DEFINITION. Full/empty words (spec/12 R195, spec/14 R238). -/

namespace Sys2Proof.Machine

/-- The access of a full/empty operation: only through h15, 8 bytes (R195, R238). -/
def State.wordAccess (s : State) (h : HReg) (o : SReg) (t : Step) (body : Nat → State) : State :=
  let off := s.offset o (stepBytes t 8)
  let hd := s.handle s.cur h.toNat
  if h != 15 then s.trap (handleTrap h.toNat hd 8 2 (hd.vbase.toNat + off.toNat))
  else s.using (checkScratch off.toNat 8) (fun target => match target with | .scratch a => body a | _ => s)

/-- Whether the bit of the word at an offset is full. -/
def Core.isFull (k : Core) (a : Nat) : Bool := shas k.full (a / 8)
/-- Sets the bit of the word at an offset. -/
def Core.setFull (k : Core) (a : Nat) (b : Bool) : Core := { k with full := if b then sadd k.full (a / 8) else sdel k.full (a / 8) }

/-- A full/empty operation takes its place after the stores of lower slots (R219), performs the gated stores and
disarms the mark (R339). -/
def State.ownStep (s : State) (a z : Nat) : State := commitDisarm (settleBytes s a z) s.cur

/-- The word whose fill slot i waits for with an ldfe or ldff that it takes next. -/
def Core.awaits (k : Core) (i : Nat) : Option Nat :=
  let sl := k.slot i
  let at_ (o : SReg) (t : Step) (install : Bool) : Nat :=
    (if install then k.rs o else sl.a0 + BitVec.ofNat 64 (sl.k + 1) * stepBytes t 8).toNat
  match (k.issueAt i).bind (fun q => q.operation i sl) with
  | some (.ldfe _ _ h o t, install) | some (.ldff _ _ h o t, install) => if h == 15 then some (at_ o t install) else none
  | _ => none
/-- Whether every slot has issued what bundles before one hold, but for those that wait for the word at an offset to be filled. -/
def Core.passedBundles (k : Core) (idx slot a : Nat) : Bool :=
  (List.range 7).all (fun i => i == slot || idx ≤ ((k.slotsAt idx).getD i {}).next || k.awaits i == some a)
/-- Whether a fill of the word at an offset is still held: the fill is done, its word full and its slot gone on, but as a release towards
the word's core (R222) it takes effect for an ldfe or ldff only once the bundles before its own have issued in every slot (R223 item 4,
R239). The slots of its own bundle do not hold it: issue order does not rank them (R18), and in the table of R238 a stef fills the word
for which an ldfe of its bundle waits. Nor does a slot that waits for this very fill, which happens before what that slot reads (R223
item 7; DEDUCED, log entry 109). -/
def Core.fillHeld (k : Core) (a : Nat) : Bool := k.fills.any (fun (b, idx, slot) => b == a && !k.passedBundles idx slot a)
/-- The word at an offset is filled by slot i at a bundle issue: the fill is held while it has to be, and the holds that are over go. -/
def Core.noteFill (k : Core) (a idx i : Nat) : Core :=
  { k with fills := (k.fills ++ [(a, idx, i)]).filter (fun (b, n, j) => !k.passedBundles n j b) }

/-- ldfe and ldff (R238). -/
def takeWord (s : State) (d : SReg) (h : HReg) (o : SReg) (t : Step) (empty : Bool) : State :=
  s.wordAccess h o t (fun a =>
    if !s.me.isFull a || s.me.fillHeld a then s.stall
    else
      let s1 := s.ownStep a 8
      if s1.me.scratchPoisoned a 8 then s.trap { code := 5, cause := 1, res := 1, hnd := 15, va := a }
      else (if empty then s1.modMe (fun k => k.setFull a false) else s1).result 4 d (bytesToWord (s1.me.scratchRead a 8)))
/-- stef and stff (R238). -/
def fillWord (s : State) (d : SReg) (h : HReg) (o : SReg) (t : Step) (wait : Bool) : State :=
  s.wordAccess h o t (fun a =>
    if wait && s.me.isFull a then s.stall
    else s.releaseNow (fun s => (s.ownStep a 8).modMe (fun k =>
      ((k.scratchWrite a (natToBytes 8 (k.rs d).toNat)).setFull a true).noteFill a s.now.idx s.now.slot)))
/-- feset, which fills as well, and feclr (R238). -/
def markWord (s : State) (h : HReg) (o : SReg) (t : Step) (b : Bool) : State :=
  s.wordAccess h o t (fun a =>
    if b then s.releaseNow (fun s => (s.ownStep a 8).modMe (fun k => (k.setFull a true).noteFill a s.now.idx s.now.slot))
    else (s.ownStep a 8).modMe (fun k => { k.setFull a false with fills := k.fills.filter (fun f => f.1 != a) }))

def execLdfe (g : Guard) (d : SReg) (h : HReg) (o : SReg) (t : Step) (s : State) : Outcome := .next (issue g 4 s (fun s => takeWord s d h o t true))
def execLdff (g : Guard) (d : SReg) (h : HReg) (o : SReg) (t : Step) (s : State) : Outcome := .next (issue g 4 s (fun s => takeWord s d h o t false))
def execStef (g : Guard) (d : SReg) (h : HReg) (o : SReg) (t : Step) (s : State) : Outcome := .next (issue g 4 s (fun s => fillWord s d h o t true))
def execStff (g : Guard) (d : SReg) (h : HReg) (o : SReg) (t : Step) (s : State) : Outcome := .next (issue g 4 s (fun s => fillWord s d h o t false))
def execFeset (g : Guard) (h : HReg) (o : SReg) (t : Step) (s : State) : Outcome := .next (issue g 4 s (fun s => markWord s h o t true))
def execFeclr (g : Guard) (h : HReg) (o : SReg) (t : Step) (s : State) : Outcome := .next (issue g 4 s (fun s => markWord s h o t false))

end Sys2Proof.Machine
end

