-- ==== Sys2Proof/Machine/Handles.lean ====
section
/-! DEFINITION. Handle and cache operations (spec/12 R210 to R212, spec/14 R248 to R250). -/

namespace Sys2Proof.Machine

/-- What hget returns (R249). PBASE is never returned. -/
def handleField (hd : Handle) (sel : Nat) : Word :=
  match sel with
  | 0 => BitVec.ofNat 64 (hd.gen.toNat * 2 ^ 16 + hd.cause % 16 * 16 + b2n hd.ronly * 4 + hd.state % 4)
  | 1 => hd.vbase.setWidth 64
  | 2 => BitVec.ofNat 64 hd.limit
  | _ => BitVec.ofNat 64 (hd.size.toNat * 2 ^ 48 + hd.leaf.toNat)

/-- wbinv and pfl2 (R250): checked as a read of one byte; through h15 they do nothing. wbinv is posted like a store; pfl2 is dropped
where a check fails or the interface queue is full. -/
def lineOp (s : State) (op : ReqOp) (h : HReg) (o : SReg) (drops : Bool) : State :=
  if h == 15 then s
  else
    let off := s.offset o 0
    let act (t : Target) : State := match t with
      | .mem pa home hi =>
        if s.queued s.cur ≥ 16 then (if drops then s else s.stall)
        else s.emit 1 (.through (s.request op 256 (alignDown pa 256) home ((s.handle s.cur h.toNat).vbase.toNat + off.toNat) .dev [] hi))
      | _ => s
    match s.access s.cur h.toNat off 1 false false false with
    | .ok t => act t
    | .wait => s.stall
    | .trap t => if drops then s else s.trap t

def execXlat (g : Guard) (d : HReg) (a : SReg) (kind : Bool) (s : State) : Outcome :=
  .next (issue g 4 s (fun s => s.emit 1 (.xlat d.toNat (wbits (s.me.rs a) 0 57) kind)))
def execHinv (g : Guard) (d : HReg) (s : State) : Outcome := .next (issue g 4 s (fun s => s.emit 1 (.hinv d.toNat)))
def execHget (g : Guard) (d : SReg) (a : HReg) (sel : BitVec 2) (s : State) : Outcome :=
  .next (issue g 4 s (fun s => s.result 2 d (handleField (s.handle s.cur a.toNat) sel.toNat)))
def execHchk (g : Guard) (d : SReg) (a : HReg) (s : State) : Outcome :=
  .next (issue g 4 s (fun s =>
    let hd := s.handle s.cur a.toNat
    if hd.state == 1 then s.stall else s.result 1 d (BitVec.ofNat 64 hd.state)))
def execWbinv (g : Guard) (h : HReg) (o : SReg) (s : State) : Outcome := .next (issue g 4 s (fun s => lineOp s .wbinv h o false))
def execPfl2 (g : Guard) (h : HReg) (o : SReg) (s : State) : Outcome := .next (issue g 4 s (fun s => lineOp s .fetch h o true))

end Sys2Proof.Machine
end

