-- ==== Sys2Proof/Machine/Fabric.lean ====
section
/-! DEFINITION. Atomics, acquire and release, fences, tickets and the sail wheel (spec/14 R239 to R247), and what a home
and the switches do with requests (spec/13 R220, R224, spec/18 R296 to R311). -/

namespace Sys2Proof.Machine

/-! The core's side. -/

/-- A read-modify-write through h15, done by the core itself (R241): poison makes it a trap without effect. -/
def ownRmw (s : State) (op : ReqOp) (a z : Nat) (data : List Byte) (body : State → Nat → State) : State :=
  let s1 := s.ownStep a z
  if s1.me.scratchPoisoned a z then s.trap { code := 5, cause := 1, res := 1, hnd := 15, va := a }
  else
    let old := bytesToNat (s1.me.scratchRead a z)
    let s2 := match rmwNew op z old data with
      | some v => s1.modMe (fun k => k.scratchWrite a (natToBytes z v))
      | none => s1
    body s2 old

/-- An operation that hears from a home (R230): its checks, the release it makes first, the commit point, its request,
and on the reply its result. took gets the old value. An atomic needs both bits of its permission, a
ticket is checked as a write (R207, R229). -/
def farOp (s : State) (op : ReqOp) (h : HReg) (o : SReg) (step : Word) (z : Nat) (atomic : Bool) (w : Scope) (rel : Bool)
    (data : State → List Byte) (own : State → Nat → State) (took : State → Word → State) : State :=
  let off := s.offset o step
  let hd := s.handle s.cur h.toNat
  s.waiting
    (fun s => s.using (s.access s.cur h.toNat off z true atomic false) (fun target =>
      let go (s : State) : State := match target with
        | .scratch a => own s a
        | .mem pa home hi => (commitDisarm s s.cur).ask
            { s.request op z pa home (hd.vbase.toNat + off.toNat) w (data s) hi with wantReply := true } off
        | .space _ _ => s
      if rel then s.releasing w go else go s))
    (fun s r =>
      if r.status != stGood then s.trap (replyTrap h.toNat (hd.vbase.toNat + off.toNat) r.status hd) else took s r.value)

/-- The combinable atomics and amofadd (R241, R243). -/
def amo (s : State) (op : ReqOp) (z : Nat) (d : SReg) (h : HReg) (o : SReg) (w : Scope) (q : Bool) (x : Option W32) : State :=
  let data (s : State) : List Byte := natToBytes z (s.me.rs d).toNat
  farOp s op h o (atStep x) z true w q data
    (fun s a => ownRmw s op a z (data s) (fun t old => t.result 4 d (oldValue z old)))
    (fun s v => s.result 1 d (oldValue z v.toNat))
/-- amocas on the pair s(2d), s(2d + 1) (R242). -/
def amocas (s : State) (z : Nat) (d : BitVec 5) (h : HReg) (o : SReg) (w : Scope) (q : Bool) (x : Option W32) : State :=
  let data (s : State) : List Byte := natToBytes z (s.me.rs (d ++ 0#1)).toNat ++ natToBytes z (s.me.rs (d ++ 1#1)).toNat
  farOp s .cas h o (atStep x) z true w q data
    (fun s a => ownRmw s .cas a z (data s) (fun t old => t.result 4 (d ++ 0#1) (oldValue z old)))
    (fun s v => s.result 1 (d ++ 0#1) (oldValue z v.toNat))

/-- ldacq (R239): 4 cycles through h15, 24 through a pinned page of the core's own bulkhead, otherwise with its reply. A
poisoned reply counts as done (RES 0). -/
def acquire (s : State) (d : SReg) (h : HReg) (o : SReg) (w : Scope) (x : Option W32) : State :=
  let off := s.offset o (atStep x)
  let hd := s.handle s.cur h.toNat
  let va := hd.vbase.toNat + off.toNat
  let land (bs : List Byte) : Landing := .s d (bytesToWord bs)
  s.waiting
    (fun s => s.using (s.access s.cur h.toNat off 8 false false false) (fun target =>
      match target with
      | .scratch a => (settleBytes s a 8).scratchLoad a 8 land
      | .mem pa home hi =>
        if farCause s s.cur hi pa == 0 then (settlePosts s s.cur).nearLoad h.toNat hd off.toNat pa home hi 8 land
        else
          let (data, mask) := gatedOver s.me pa 8
          s.ask { s.request .read 8 pa home va w data hi with mask := mask, wantReply := true } off
      | .space _ _ => s))
    (fun s r =>
      if r.status != stGood then s.trap { replyTrap h.toNat va r.status hd with res := 0, consumed := true }
      else s.result 1 d r.value)

/-- strel (R239): after its release it makes its write, at its place among the operations of its cycle (R219). The write is never
gated. -/
def release (s : State) (d : SReg) (h : HReg) (o : SReg) (w : Scope) (x : Option W32) : State :=
  let off := s.offset o (atStep x)
  s.using (s.access s.cur h.toNat off 8 true false false) (fun target =>
    s.releasing w (fun s =>
      let data := natToBytes 8 (s.me.rs d).toNat
      match target with
      | .scratch a => (settleBytes s a 8).modMe (fun k => k.scratchWrite a data)
      | .mem pa home hi =>
        if s.queued s.cur ≥ 16 then s.stall
        else ((settlePosts s s.cur).send (s.request .store 8 pa home ((s.handle s.cur h.toNat).vbase.toNat + off.toNat) w data hi)).2
      | .space _ _ => s))

/-- fence (R240): it holds its slot until every earlier read has returned and every earlier access, reads and writes alike, is
performed at its scope, which R240 says conforms (DESIGN CHOICE, log entry 102). -/
def fence (s : State) (w : Scope) : State :=
  if s.returned s.cur s.now.seq then s.releasing w id else s.stall

/-- tktwait (R246): it waits at the sync engine, or on the core's own word. -/
def ticketWait (s : State) (d : SReg) (h : HReg) (o : SReg) : State :=
  let data (s : State) : List Byte := natToBytes 8 (s.me.rs d).toNat
  farOp s .tktWait h o 0 8 false .dev false data
    (fun s a =>
      let s1 := s.ownStep a 8
      if s1.me.scratchPoisoned a 8 then s.trap { code := 5, cause := 1, res := 1, hnd := 15, va := a }
      else if ticketReached (bytesToWord (s1.me.scratchRead a 8)) (s.me.rs d) then s1 else s.stall)
    (fun s _ => s)
/-- tktdone (R246): releases as strel.dev, then adds 1 to now-serving. -/
def ticketDone (s : State) (h : HReg) (o : SReg) : State :=
  farOp s .tktDone h o 0 8 false .dev true (fun _ => []) (fun s a => ownRmw s .tktDone a 8 [] (fun t _ => t)) (fun s _ => s)

/-- The stamp of a sail-wheel operation that leaves its slot now (R224): the first position of its core that no other
operation of the core holds. -/
def State.stamp (s : State) (c : Nat) : Nat :=
  let own := c % 256
  let first := s.time / 256 * 256 + own + (if s.time % 256 ≤ own then 0 else 256)
  (s.fabric.filter (fun r => r.core == c && r.stamp != 0)).foldl (fun m r => max m (r.stamp - 1 + 256)) first

/-- A sail-wheel operation (R247): it releases, takes its stamp and waits for its reply. The stamp of a request is kept
plus one. Through h15 its home is the core (R220), which applies it at its time as any other home does: the request stays within the
core, and its address lies outside the physical space (log entry 81). -/
def sailOp (s : State) (op : ReqOp) (z : Nat) (h : HReg) (o : SReg) (w : Scope) (data : State → List Byte)
    (lat : State → Nat → Nat → State) : State :=
  let off := s.offset o 0
  let hd := s.handle s.cur h.toNat
  let va := hd.vbase.toNat + off.toNat
  s.waiting
    (fun s => s.using (s.access s.cur h.toNat off z (op != .scLoad) false false) (fun target =>
      s.releasing w (fun s => match target with
        | .scratch a => (s.ownStep a z).ask
            { s.request op z (2 ^ 60 + a) 32 a w (data s) with wantReply := true, stamp := s.stamp s.cur + 1, mgmt := true, own := true } off
        | .mem pa home hi => (commitDisarm s s.cur).ask
            { s.request op z pa home va w (data s) hi with wantReply := true, stamp := s.stamp s.cur + 1 } off
        | .space _ _ => s)))
    (fun s r => if r.status != stGood then s.trap (replyTrap h.toNat va r.status hd) else lat s 1 r.value.toNat)

def execLdacq (g : Guard) (d : SReg) (h : HReg) (o : SReg) (w : Scope) (x : Option W32) (s : State) : Outcome := .next (issue g 6 s (fun s => acquire s d h o w x))
def execStrel (g : Guard) (d : SReg) (h : HReg) (o : SReg) (w : Scope) (x : Option W32) (s : State) : Outcome := .next (issue g 6 s (fun s => release s d h o w x))
def execFence (g : Guard) (w : Scope) (s : State) : Outcome := .next (issue g 6 s (fun s => fence s w))
def execAmoaddW (g : Guard) (d : SReg) (h : HReg) (o : SReg) (w : Scope) (q : Bool) (x : Option W32) (s : State) : Outcome := .next (issue g 6 s (fun s => amo s (.amo .add) 4 d h o w q x))
def execAmoaddD (g : Guard) (d : SReg) (h : HReg) (o : SReg) (w : Scope) (q : Bool) (x : Option W32) (s : State) : Outcome := .next (issue g 6 s (fun s => amo s (.amo .add) 8 d h o w q x))
def execAmoandW (g : Guard) (d : SReg) (h : HReg) (o : SReg) (w : Scope) (q : Bool) (x : Option W32) (s : State) : Outcome := .next (issue g 6 s (fun s => amo s (.amo .and) 4 d h o w q x))
def execAmoandD (g : Guard) (d : SReg) (h : HReg) (o : SReg) (w : Scope) (q : Bool) (x : Option W32) (s : State) : Outcome := .next (issue g 6 s (fun s => amo s (.amo .and) 8 d h o w q x))
def execAmoorW (g : Guard) (d : SReg) (h : HReg) (o : SReg) (w : Scope) (q : Bool) (x : Option W32) (s : State) : Outcome := .next (issue g 6 s (fun s => amo s (.amo .or) 4 d h o w q x))
def execAmoorD (g : Guard) (d : SReg) (h : HReg) (o : SReg) (w : Scope) (q : Bool) (x : Option W32) (s : State) : Outcome := .next (issue g 6 s (fun s => amo s (.amo .or) 8 d h o w q x))
def execAmoxorW (g : Guard) (d : SReg) (h : HReg) (o : SReg) (w : Scope) (q : Bool) (x : Option W32) (s : State) : Outcome := .next (issue g 6 s (fun s => amo s (.amo .xor) 4 d h o w q x))
def execAmoxorD (g : Guard) (d : SReg) (h : HReg) (o : SReg) (w : Scope) (q : Bool) (x : Option W32) (s : State) : Outcome := .next (issue g 6 s (fun s => amo s (.amo .xor) 8 d h o w q x))
def execAmominW (g : Guard) (d : SReg) (h : HReg) (o : SReg) (w : Scope) (q : Bool) (x : Option W32) (s : State) : Outcome := .next (issue g 6 s (fun s => amo s (.amo .min) 4 d h o w q x))
def execAmominD (g : Guard) (d : SReg) (h : HReg) (o : SReg) (w : Scope) (q : Bool) (x : Option W32) (s : State) : Outcome := .next (issue g 6 s (fun s => amo s (.amo .min) 8 d h o w q x))
def execAmomaxW (g : Guard) (d : SReg) (h : HReg) (o : SReg) (w : Scope) (q : Bool) (x : Option W32) (s : State) : Outcome := .next (issue g 6 s (fun s => amo s (.amo .max) 4 d h o w q x))
def execAmomaxD (g : Guard) (d : SReg) (h : HReg) (o : SReg) (w : Scope) (q : Bool) (x : Option W32) (s : State) : Outcome := .next (issue g 6 s (fun s => amo s (.amo .max) 8 d h o w q x))
def execAmominzW (g : Guard) (d : SReg) (h : HReg) (o : SReg) (w : Scope) (q : Bool) (x : Option W32) (s : State) : Outcome := .next (issue g 6 s (fun s => amo s (.amo .minz) 4 d h o w q x))
def execAmominzD (g : Guard) (d : SReg) (h : HReg) (o : SReg) (w : Scope) (q : Bool) (x : Option W32) (s : State) : Outcome := .next (issue g 6 s (fun s => amo s (.amo .minz) 8 d h o w q x))
def execAmomaxzW (g : Guard) (d : SReg) (h : HReg) (o : SReg) (w : Scope) (q : Bool) (x : Option W32) (s : State) : Outcome := .next (issue g 6 s (fun s => amo s (.amo .maxz) 4 d h o w q x))
def execAmomaxzD (g : Guard) (d : SReg) (h : HReg) (o : SReg) (w : Scope) (q : Bool) (x : Option W32) (s : State) : Outcome := .next (issue g 6 s (fun s => amo s (.amo .maxz) 8 d h o w q x))
def execAmoswpW (g : Guard) (d : SReg) (h : HReg) (o : SReg) (w : Scope) (q : Bool) (x : Option W32) (s : State) : Outcome := .next (issue g 6 s (fun s => amo s (.amo .swp) 4 d h o w q x))
def execAmoswpD (g : Guard) (d : SReg) (h : HReg) (o : SReg) (w : Scope) (q : Bool) (x : Option W32) (s : State) : Outcome := .next (issue g 6 s (fun s => amo s (.amo .swp) 8 d h o w q x))
def execAmofaddW (g : Guard) (d : SReg) (h : HReg) (o : SReg) (w : Scope) (q : Bool) (x : Option W32) (s : State) : Outcome := .next (issue g 6 s (fun s => amo s .fadd 4 d h o w q x))
def execAmocasW (g : Guard) (d : BitVec 5) (h : HReg) (o : SReg) (w : Scope) (q : Bool) (x : Option W32) (s : State) : Outcome := .next (issue g 6 s (fun s => amocas s 4 d h o w q x))
def execAmocasD (g : Guard) (d : BitVec 5) (h : HReg) (o : SReg) (w : Scope) (q : Bool) (x : Option W32) (s : State) : Outcome := .next (issue g 6 s (fun s => amocas s 8 d h o w q x))
def execTktwait (g : Guard) (d : SReg) (h : HReg) (o : SReg) (s : State) : Outcome := .next (issue g 6 s (fun s => ticketWait s d h o))
def execTktdone (g : Guard) (h : HReg) (o : SReg) (s : State) : Outcome := .next (issue g 6 s (fun s => ticketDone s h o))
def execScld (g : Guard) (d : SReg) (h : HReg) (o : SReg) (w : Scope) (s : State) : Outcome :=
  .next (issue g 6 s (fun s => sailOp s .scLoad 8 h o w (fun _ => []) (fun t lat old => t.result lat d (oldValue 8 old))))
def execScst (g : Guard) (d : SReg) (h : HReg) (o : SReg) (w : Scope) (s : State) : Outcome :=
  .next (issue g 6 s (fun s => sailOp s .scStore 8 h o w (fun s => natToBytes 8 (s.me.rs d).toNat) (fun t _ _ => t)))
def execScaddW (g : Guard) (d : SReg) (h : HReg) (o : SReg) (w : Scope) (s : State) : Outcome :=
  .next (issue g 6 s (fun s => sailOp s .scAdd 4 h o w (fun s => natToBytes 4 (s.me.rs d).toNat) (fun t lat old => t.result lat d (oldValue 4 old))))
def execScaddD (g : Guard) (d : SReg) (h : HReg) (o : SReg) (w : Scope) (s : State) : Outcome :=
  .next (issue g 6 s (fun s => sailOp s .scAdd 8 h o w (fun s => natToBytes 8 (s.me.rs d).toNat) (fun t lat old => t.result lat d (oldValue 8 old))))

/-! The switches (R300, R301), and lines that leave their homes. -/

/-- COMBINED_REPLY_SPLIT: the way to the home and back takes 3 cycles at least, as the table of R301 shows. -/
def splitCombined (s : State) (id : Nat) : State :=
  match s.findReq id with
  | some r => (match r.answered with
    | some (old, status) =>
      if s.time < r.sent + 3 then s.pend .combinedReplySplit { unit := id } else splitReply (s.dropReq id) r old status
    | none => s)
  | none => s

/-- SWITCH_COMBINE (R300): the held request and the matching one leave the switch as one; i came in by the lower port. Its beats are
subtracted afterwards (R308), from the bucket of i's context, which the spec does not name (DESIGN CHOICE, log entry 122). -/
def combineAt (s : State) (sw i j : Nat) : State :=
  match s.findReq i, s.findReq j with
  | some a, some b =>
    (match meeting a b with
     | none => s
     | some (sw', p, p') =>
       let out := match a.route.head? with | some e => stageKey e | none => 0
       if !agree a b || sw' != sw || p' < p || !s.turnOf a || !s.turnOf b || s.waitEntries out ≥ 64 then s
       else
         let z := 8 * a.size
         let x := bytesToNat a.data
         let op (u v : Nat) : Nat := match a.op with | .amo o => amoNew o z u v | _ => v
         let late := b.everyone.map (fun m => { m with before := some (match m.before with
           | none => BitVec.ofNat 64 x
           | some w => BitVec.ofNat 64 (op x w.toNat)) })
         let r := { a with data := natToBytes a.size (op x (bytesToNat b.data)), members := a.everyone ++ late,
                           stages := a.stages ++ b.stages ++ [out], held := none, born := min a.born b.born, passed := a.passed + 1,
                           sent := max a.sent b.sent }
         (((s.dropReq j).setReq r).charge r.ctx (bulkOf r.core) r.beats).depart r)
  | _, _ => s

/-- How long a request is held at the stage it stands at: 8 fabric cycles, 4 of TIME, at a switch (R300); at a Scair port 8 flit times
(R383), 21 of TIME for flits of 256 bytes at 800 Gb/s (DEDUCED, log entry 110). -/
def Req.holdTime (r : Req) : Nat := match r.route.head? with | some (32, _, _) => 21 | _ => 4
/-- COMBINE_HOLD_EXPIRY: a request held for its time goes on to the next switch or its home. -/
def expireHold (s : State) (id : Nat) : State :=
  match s.findReq id with
  | some r => (match r.held with
    | some t =>
      if s.time < t + r.holdTime then s.pend .combineHoldExpiry { unit := id }
      else s.enterStage { r with held := none, passed := r.passed + 1 } 12
    | none => s)
  | none => s

/-- HOT_LINE_WITHDRAW: the copies of a line are withdrawn; when the line is evicted, it is written back as well, and a
line of the sync engine is handed over (R220, R303). Pinned lines stay. -/
def evictLine (s : State) (n : Nat) (evict : Bool) : State :=
  let s1 := dropCopies s (s.line n).owner n
  let l := s1.line n
  if evict && !l.pinned && !s1.fabric.any (fun r => r.parked && r.pa / 256 == n) then (s1.chargeLine l).setLine n {} else s1

end Sys2Proof.Machine
end

