-- ==== Sys2Proof/Machine/Groups.lean ====
section
/-! DEFINITION. Group and task instructions of slot EN, and what group homes, schedulers and node homes do with them
(spec/16 R261 to R271, spec/17 R293, R294). -/

namespace Sys2Proof.Machine

/-! The core's side. -/

/-- A group request names the group and the continuation's record. -/
def groupRequest (s : State) (op : ReqOp) (g : Nat) : Req :=
  s.request op 0 (match s.me.running with | some r => r.recA | none => 0) (s.groupHome s.me.partOf g) g .dev []

/-- A posted request: it commits and disarms the mark (R339), and counts as an access of the core (R293). -/
def postTask (s : State) (r : Req) : State :=
  if s.queued s.cur ≥ 16 then s.stall else ((commitDisarm s s.cur).send r).2

/-- The group of the continuation under the step. -/
def Core.groupOf (k : Core) : Nat := match k.running with | some r => r.group | none => 0
def Core.setGroup (k : Core) (g : Nat) : Core := { k with running := k.running.map (fun r => { r with group := g }) }

/-- gjoin (R268, R293): GROUP := g at once; the home makes the leave and the join. Group 0 does nothing. -/
def groupJoin (s : State) (a b : SReg) : State :=
  let g := wbits (s.me.rs a) 0 16
  if g == 0 then commitDisarm s s.cur
  else
    let t := postTask s (groupRequest s (.gjoin s.me.groupOf (s.me.rs b).toNat) g)
    if t.now.stalled then t else t.modMe (fun k => k.setGroup g)

/-- gleave (R268). -/
def groupLeave (s : State) (a : SReg) : State :=
  let g := wbits (s.me.rs a) 0 16
  if g == 0 || g != s.me.groupOf then commitDisarm s s.cur
  else
    let t := postTask s (groupRequest s .gleave g)
    if t.now.stalled then t else t.modMe (fun k => k.setGroup 0)

/-- The slot goes on waiting for an arrival or a wait that stands already (R272). -/
def waitOn (s : State) : State := (s.modMe (fun k => k.modSlot s.now.slot (fun sl => { sl with waiting := some 0 }))).stall

/-- Whether an arrival (or a gwait) of the continuation under the step stands or is on its way. -/
def State.standing (s : State) (op : ReqOp) (g : Nat) : Bool :=
  match s.me.running with
  | none => false
  | some r =>
    let here (y : Nat × Nat × Nat) : Bool := y.1 == r.ctx && y.2.1 == r.recA
    (match s.group (groupKey r.part g) with
     | some y => (if op == .gbar then y.arrived else y.waiters).any here
     | none => false)
    || s.fabric.any (fun q => q.op == op && q.ctx == r.ctx && q.pa == r.recA && q.va == g)

/-- The wait of gbar and gwait: an answer completes it, otherwise the request goes out once. -/
def groupWait (s : State) (op : ReqOp) (g : Nat) (send took : State → State) (answer : Reply → State → State) : State :=
  let sl := s.me.slot s.now.slot
  match sl.reply with
  | some r => answer r (s.modMe (fun k => k.modSlot s.now.slot (fun y => { y with waiting := none, reply := none })))
  | none =>
    if sl.waiting.isSome then s.stall
    else if s.standing op g then waitOn s
    else if s.me.groupOf == g || g == 0 then took s
    else send s

/-- gbar (R269, R293). -/
def groupBarrier (s : State) (a : SReg) (q : PReg) : State :=
  let g := wbits (s.me.rs a) 0 16
  let enter (s : State) : State := s.releasing .dev (fun s => (commitDisarm s s.cur).ask { groupRequest s .gbar g with wantReply := true } 0) true
  groupWait s .gbar g (fun s => (commitDisarm s s.cur).emit 1 (.p q true))
    (fun s => if g == 0 then (commitDisarm s s.cur).emit 1 (.p q true) else enter s)
    (fun r s => s.emit 1 (.p q (r.status != stGood || r.value != 0)))

/-- gwait (R270, R293). -/
def groupAwait (s : State) (d : SReg) (q : PReg) (a : SReg) : State :=
  let g := wbits (s.me.rs a) 0 16
  let give (s : State) (v : Nat) : State := (s.emit 1 (.s d (BitVec.ofNat 64 v))).emit 1 (.p q (v != 0))
  groupWait s .gwait g (fun s => (commitDisarm s s.cur).ask { groupRequest s .gwait g with wantReply := true } 0)
    (fun s => give (commitDisarm s s.cur) (if g == 0 then 0 else 0xFFFFFFFF))
    (fun r s => give s (if r.status == stGood then r.value.toNat else 0xFFFFFFFF))

/-- The home of a node: that of its word 0; the core's own bulkhead where it does not translate. -/
def State.nodeHome (s : State) (c node : Nat) : Nat :=
  match s.walk (s.ctxAt c) node (s.rootOf c) with
  | .ok l => (s.leafHome (s.core c).partOf l.hi (l.pa node)).1
  | .error _ => bulkOf c

/-- tspawn, tdec, tarm (R294): posted without a wait. The request carries the node that launched the issuing task. -/
def postNode (s : State) (op : ReqOp) (a : SReg) : State :=
  let x := (s.me.rs a).toNat
  postTask s { s.request op 0 0 (match op with | .spawn => bulkOf s.cur | _ => s.nodeHome s.cur x) x .dev [] with
    pa := (match s.me.running with | some r => r.node | none => 0) }

def execGjoin (g : Guard) (a b : SReg) (s : State) : Outcome := .next (issue g 4 s (fun s => groupJoin s a b))
def execGleave (g : Guard) (a : SReg) (s : State) : Outcome := .next (issue g 4 s (fun s => groupLeave s a))
def execGbar (g : Guard) (a : SReg) (q : PReg) (s : State) : Outcome := .next (issue g 4 s (fun s => groupBarrier s a q))
def execGwait (g : Guard) (d : SReg) (q : PReg) (a : SReg) (s : State) : Outcome := .next (issue g 4 s (fun s => groupAwait s d q a))
def execTspawn (g : Guard) (a : SReg) (s : State) : Outcome := .next (issue g 4 s (fun s => postNode s .spawn a))
def execTdec (g : Guard) (a : SReg) (s : State) : Outcome := .next (issue g 4 s (fun s => postNode s .tdec a))
def execTarm (g : Guard) (a b : SReg) (s : State) : Outcome :=
  .next (issue g 4 s (fun s => postNode s (.tarm ((s.me.rs b).setWidth 32)) a))

/-! The other side: group homes, schedulers and node homes. -/

/-- The error of a task instruction goes to SCHERR of the continuation that issued it, while it runs. -/
def taskError (s : State) (r : Req) (op cause : Nat) : State :=
  if (s.core r.core).running.isSome && (s.core r.core).ctxOf == r.ctx then noteSchErr s r.core op cause r.va else s

/-- An arrival at a barrier, or the answer to one that is no member (R269). -/
def arriveGroup (s : State) (r : Req) : State :=
  let k := groupKey r.part r.va
  match s.group k with
  | none => answerGroup s r.ctx r.pa 3 1 stGood
  | some y =>
    if y.members.contains (r.ctx, r.pa) then
      testBarrier (s.setGroup k { y with arr := y.arr + 1, arrived := y.arrived ++ [(r.ctx, r.pa, r.id)] }) k
    else answerGroup s r.ctx r.pa 3 1 stGood

/-- A gwait reaches the home (R270). -/
def waitGroup (s : State) (r : Req) : State :=
  let k := groupKey r.part r.va
  match s.group k with
  | none => answerGroup s r.ctx r.pa 4 0 stGood
  | some y => if y.mem == 0 then answerGroup s r.ctx r.pa 4 y.abn stGood
    else s.setGroup k { y with waiters := y.waiters ++ [(r.ctx, r.pa, r.id)] }

/-- GROUP of a continuation's record (R268). -/
def writeGroup (s : State) (x a g : Nat) : State :=
  match s.vreadWord x (a + 8) .core with
  | .ok w => s.vwriteTry x (a + 8) (wput w 0 16 g) .core
  | .error _ => s

/-- A group or task request is applied (R267, R268, R294). A continuation that has been ended while its join was on its
way joins and then leaves abnormally, as its end came after the join in its own order. -/
def applyTask (s : State) (r : Req) : State :=
  let s1 := s.dropReq r.id
  let live := (s.coreRunning r.ctx r.pa).isSome || s.savedAt.any (fun y => y.1 == r.ctx && y.2.1 == r.pa)
  match r.op with
  | .gjoin old notify =>
    if old == r.va then
      (match s1.group (groupKey r.part r.va) with
       | some y => if notify != 0 then s1.setGroup (groupKey r.part r.va) { y with notify := notify, notifyCtx := r.ctx } else s1
       | none => s1)
    else
      let s2 := joinGroup (if old == 0 then s1 else leaveGroup s1 r.ctx r.part old r.pa false) r.ctx r.part r.va r.pa notify
      if live then writeGroup s2 r.ctx r.pa r.va else leaveGroup s2 r.ctx r.part r.va r.pa true
  | .gleave =>
    let s2 := leaveGroup s1 r.ctx r.part r.va r.pa false
    if live then writeGroup s2 r.ctx r.pa 0 else s2
  | .gbar => if live then arriveGroup s1 r else s1
  | .gwait => if live then waitGroup s1 r else s1
  | .spawn =>
    (match presentRecord s1 r.ctx (bulkOf r.core) r.va [0, 1] 0 0 with
     | (cause, t) => taskError t r 0 cause)
  | .tdec =>
    (match decrementNode s1 r.ctx (bulkOf r.core) r.va r.pa 0 with
     | (cause, t) => taskError t r 1 cause)
  | .tarm n =>
    (match armNode s1 r.ctx r.va n with
     | (cause, t) => taskError t r 2 cause)
  | _ => s1

end Sys2Proof.Machine
end

