-- ==== Sys2Proof/Machine/Tile.lean ====
section
/-! DEFINITION. The tile cache (spec/09 R145 to R160, R170 to R172) and the tile instructions of slot MX (spec/10 R182 to
R189). -/

namespace Sys2Proof.Machine

/-! Records (R145, R146). -/

def recordBytes : Nat := 16640
/-- The format that byte 0x4080 names, if it is one of the five. -/
def recordFmt (data : List Byte) : Option Fmt :=
  match (data.getD 0x4080 0).toNat with
  | 3 => some .e4m3
  | 4 => some .e5m2
  | 5 => some .mk8
  | 6 => some .i8
  | 9 => some .i4
  | _ => none
def TileSlot.fmt (t : TileSlot) : Fmt := (recordFmt t.data).getD .e4m3
/-- The parity bits of a record (R147): bit 64i is the parity of its bytes 8i to 8i + 7. -/
def recordPar (data : List Byte) : Nat :=
  let fold (x k : Nat) : Nat := Nat.xor x (x >>> k)
  Nat.land ([32, 16, 8, 4, 2, 1].foldl fold (bytesToNat data)) ((2 ^ (64 * 2080) - 1) / (2 ^ 64 - 1))
/-- Whether the parity bits of a slot agree with what it holds (R172). -/
def TileSlot.sound (t : TileSlot) : Bool := t.par == recordPar t.data
/-- A record whose format or reserved bytes are bad. -/
def recordBad (data : List Byte) : Bool := (recordFmt data).isNone || (data.drop 0x4081).any (· != 0)

/-! Slots and bindings (R147 to R152). -/

def arrayOf (g : Nat) : Nat := g / 8
/-- Whether a binding names a slot. -/
def Binding.names (b : Binding) : Bool := 1 ≤ b.status && b.status ≤ 3
def Core.bound (k : Core) (g : Nat) : Bool := k.tb.any (fun (_, b) => b.names && b.slot == g)
def Core.bindReady (k : Core) (t : Nat) : Bool := (k.bind t).names && (k.tile (k.bind t).slot).v
/-- Whether a slot holds or fetches the record at a physical address of a partition. -/
def TileSlot.holds (t : TileSlot) (pa part : Nat) : Bool := (t.v || t.filling) && t.tag == pa && t.part == part
def Core.matching (k : Core) (pa part : Nat) : List Nat := (List.range 64).filter (fun g => (k.tile g).holds pa part)
/-- Bindings of a slot take a status and let go of it. -/
def Core.loseBindings (k : Core) (g status : Nat) : Core :=
  { k with tb := k.tb.map (fun (i, b) => if b.names && b.slot == g then (i, { b with status := status }) else (i, b)) }
/-- Every slot that matches is invalidated, its fill abandoned (R160), and its pin with it, that of a slot whose fill has failed too
(R157). -/
def Core.invalidateTile (k : Core) (pa part : Nat) : Core :=
  let mine (g : Nat) : Bool := (k.tile g).holds pa part || ((k.tile g).pin && (k.tile g).tag == pa && (k.tile g).part == part)
  ((List.range 64).filter mine).foldl (fun (j : Core) g => (j.loseBindings g 7).setTile g {}) k

/-! Victims (R149 to R151). -/

def Core.candidate (k : Core) (excluded : List Nat) (g : Nat) : Bool :=
  let t := k.tile g
  !t.filling && !k.bound g && !t.pin && !excluded.contains (arrayOf g)

def Core.victim (k : Core) (excluded : List Nat) : Option Nat :=
  let cands := (List.range 64).filter (k.candidate excluded)
  match cands.find? (fun g => !(k.tile g).v) with
  | some g => some g
  | none => if cands.isEmpty then none else some (treeWalk 64 k.tree (fun g => cands.contains g) 6 1)

def Core.touch (k : Core) (g : Nat) : Core := { k with tree := touchFrom k.tree 7 (64 + g) }

/-! Fills (R155 to R159). -/

/-- The fill engines in use. -/
def Core.fillsRunning (k : Core) : Nat := ((List.range 64).filter (fun g => (k.tile g).running)).length
/-- Demand fills that wait, earliest lookup first. -/
def Core.fillsWaiting (k : Core) : List Nat :=
  let w := (List.range 64).filter (fun g => (k.tile g).filling && !(k.tile g).running)
  (w.map (fun g => ((k.tile g).order, g))).foldl (fun (acc : SMap Nat) (o, g) => mput acc o g) [] |>.map (·.2)

/-- A slot is claimed for a record: a fill begins to wait for an engine. born is the next request number (R213). -/
def Core.claim (k : Core) (g pa part hi : Nat) (source : Option Nat) (born : Nat) : Core :=
  let old := k.tile g
  { k.setTile g { filling := true, tag := pa, part := part, pin := old.pin, source := source, hi := hi, order := k.fillOrder + 1,
                  due := k.cycle + 90, born := born } with fillOrder := k.fillOrder + 1 }
/-- A slot whose record comes back on demand starts to fetch it (R275). -/
def Core.wakeTile (k : Core) (g born : Nat) : Core :=
  let t := k.tile g
  if t.stale then k.claim g t.tag t.part t.hi none born else k

/-- Gives free engines to the demand fills that can run: one from memory at once, a copy when its source is valid; a
copy whose source is gone is filled from memory. A copy whose source still fills waits without an engine, and later fills pass it
(DESIGN CHOICE, log entry 106). A copy takes the parity bits with the data, as it reads its source without a beat (R172). It completes in the 66th cycle after the one in which it starts (R155): copied is
its time from the core's cycle counter, 65 between two cycles. -/
def pumpFills (s : State) (c copied : Nat) : List Nat → State
  | [] => s
  | g :: gs =>
    let k := s.core c
    let t := k.tile g
    if k.fillsRunning ≥ 8 then s
    else
      let src := match t.source with | some q => if (k.tile q).holds t.tag t.part then some q else none | none => none
      match src with
      | some q =>
        if (k.tile q).v then
          pumpFills (s.setCore c (k.setTile g { t with running := true, due := k.cycle + copied, data := (k.tile q).data, par := (k.tile q).par })) c copied gs
        else pumpFills s c copied gs
      | none =>
        pumpFills ((s.setCore c (k.setTile g { t with running := true, source := none })).pend .tileFillComplete
          { unit := c, idx := g, aux := t.order }) c copied gs
def startFills (s : State) (c : Nat) (copied : Nat := 66) : State := pumpFills s c copied (s.core c).fillsWaiting

/-- Bytes merged into a record (offset, value, mask). -/
def mergeBytes (data : List Byte) (ms : List (Nat × Byte × Byte)) : List Byte :=
  ms.foldl (fun d (o, v, m) => d.set o (maskByte (d.getD o 0) v m)) data
/-- The parity bits of a record into which bytes are merged: those of the words that change turn with them, so that an error in another
place stays one (R147). -/
def mergedPar (data : List Byte) (ms : List (Nat × Byte × Byte)) (par : Nat) : Nat :=
  if ms.isEmpty then par else Nat.xor par (Nat.xor (recordPar data) (recordPar (mergeBytes data ms)))

/-- The record at a physical address as an MX tile fill of core c reads it, line by line through the homes or their helpers, after the
core's own stores to it that are still on their way (R170, R187). A refusal by a sluice is reported (R309). -/
def readRecord (s : State) (c part hi pa : Nat) : List Byte × Bool × State :=
  let t := (settleHome (settlePosts s c) c pa recordBytes).readsLines (s.core c).ctxOf part hi (bulkOf c) pa recordBytes
  let from_ (a : Nat) : Nat := (t.helperAt (bulkOf c) (a / 256)).getD (t.leafHome part hi a).1
  let lines := (List.range (recordBytes / 256)).map (fun i => pa + 256 * i)
  let rs := lines.map (fun a => (t.earlyOf c).homeRead part (from_ a) a 256)
  let u := match lines.find? (fun a => t.sluice (from_ a) part a 0 == stPoison) with
    | some a => t.report 6 (from_ a) (s.core c).ctxOf a
    | none => t
  (rs.flatMap (fun r => r.1), rs.any (fun r => r.2.1 != stGood), u)

/-- A slot's fill ends: with data, or with the status that its bindings take; a pin outlives it (R157). -/
def Core.endFill (k : Core) (g : Nat) (r : Except Nat (List Byte)) : Core :=
  let t := k.tile g
  match r with
  | .ok data => k.setTile g { t with v := true, filling := false, running := false, source := none, merges := [], seq := none,
                                     data := mergeBytes data t.merges,
                                     par := mergedPar data t.merges (if t.source.isSome then t.par else recordPar data) }
  | .error status => (k.loseBindings g status).setTile g { tag := t.tag, part := t.part, pin := t.pin }

/-- A fill from memory completes (R155, R156), no sooner than 89 cycles after its lookup. -/
def completeFill (s : State) (c g order : Nat) : State :=
  let k := s.core c
  let t := k.tile g
  if !(t.filling && t.running && t.order == order && t.source.isNone) then s
  else if k.cycle < t.due then s.pend .tileFillComplete { unit := c, idx := g, aux := order }
  else
    let (data, bad, u) := readRecord s c t.part t.hi t.tag
    let r : Except Nat (List Byte) := if bad then .error 5 else if recordBad data then .error 6 else .ok data
    startFills ((u.charge k.ctxOf (bulkOf c) (65 * beatsOf 256)).modCore c (fun k => k.endFill g r)) c 65

/-- A replica completes 66 cycles after its copy started (R155). -/
def completeReplica (s : State) (c g : Nat) : State :=
  let k := s.core c
  let t := k.tile g
  if t.filling && t.running && t.source.isSome && t.due ≤ k.cycle then startFills (s.setCore c (k.endFill g (.ok t.data))) c else s
def completeReplicas (s : State) (c : Nat) : State := (List.range 64).foldl (fun t g => completeReplica t c g) s

/-- The waiting prefetches start while an engine is free and no demand fill waits, a copy that waits for its source among them (R158;
DESIGN CHOICE, log entry 106). Each takes the victim that the
core as it stood at the start of the cycle shows; where a tbind of the cycle took that slot, it chooses again in the next
cycle (R159). R158 looks the tile up at the tpf and does not say whether a prefetch that has waited looks again: it does, and one whose
tile has come into a slot meanwhile is dropped (DESIGN CHOICE, log entry 115). -/
def startPrefetches (s : State) (c : Nat) (before : Core) : List (Nat × Nat × Nat × Nat) → State
  | [] => s
  | (pa, part, hi, born) :: rest =>
    let k := s.core c
    let k' := { k with prefetches := k.prefetches.erase (pa, part, hi, born) }
    if k.fillsRunning ≥ 8 || !k.fillsWaiting.isEmpty then s
    else if !(k.matching pa part).isEmpty then startPrefetches (s.setCore c k') c before rest
    else match before.victim [] with
      | none => startPrefetches (s.setCore c k') c before rest
      | some g =>
        if k.candidate [] g && !(k.tile g).filling then
          let b' := before.claim g pa part hi none born
          startPrefetches (startFills (s.setCore c (k'.claim g pa part hi none born)) c) c b' rest
        else s
def prefetchStep (s : State) (c : Nat) (before : Core) : State := startPrefetches s c before (s.core c).prefetches

/-- A parity error in a slot (R172): a bound or pinned slot is refilled from memory, any other is invalidated. A refill has no lookup:
it waits behind the fills that wait already, and takes the 89 cycles of R155 from the error on (DESIGN CHOICE, log entry 107). -/
def parityError (s : State) (c g : Nat) (copied : Nat := 65) : State :=
  let k := s.core c
  let t := k.tile g
  if !t.v then s
  else if k.bound g || t.pin then startFills (s.setCore c (k.claim g t.tag t.part t.hi none s.nextReq)) c copied
  else s.setCore c (k.setTile g {})
/-- The scrubber checks a slot (R172). -/
def scrubTile (s : State) (c g : Nat) : State := if ((s.core c).tile g).sound then s else parityError s c g
/-- A bit of a byte of a valid slot turns over, and its parity bit does not (R172, R214). -/
def flipTile (s : State) (c g byte : Nat) : State :=
  let t := (s.core c).tile g
  if t.v then s.modCore c (fun k => k.setTile g { t with data := t.data.set byte (t.data.getD byte 0 ^^^ 1#8) }) else s

/-! Lookups (R153, R154). -/

/-- The arrays that hold a slot bound by another binding of the set of tb t. -/
def Core.setArrays (k : Core) (t : Nat) : List Nat :=
  ((List.range 8).map (· + t / 8 * 8)).filterMap (fun j => if j != t && (k.bind j).names then some (arrayOf (k.bind j).slot) else none)

/-- A lookup for tb t: the slot and the status. The fill or copy it starts waits for an engine; seq is its place in issue order. -/
def Core.lookup (k : Core) (t pa part hi : Nat) (excl : Bool) (born seq : Nat) : Option Nat × Nat × Core :=
  let marked (g : Nat) (j : Core) : Core := j.setTile g { j.tile g with seq := some seq }
  let taken := k.setArrays t
  let hits := k.matching pa part
  let free := hits.filter (fun g => !taken.contains (arrayOf g))
  match free.head?, excl, hits.head? with
  | some g, _, _ => (some g, 1, k.wakeTile g born)
  | none, false, some g => (some g, 1, k.wakeTile g born)
  | none, true, some q =>
    (match k.victim taken with
     | some g => (some g, 2, marked g ((k.wakeTile q born).claim g pa part hi (some q) born))
     | none => (none, 4, k))
  | none, _, none =>
    (match k.victim (if excl then taken else []) with
     | some g => (some g, 3, marked g (k.claim g pa part hi none born))
     | none => (none, 4, k))

/-! The tile instructions (R182 to R189). -/

/-- The check of a record's address (R146, R183); a space of the management core takes no tile (R354). -/
def State.tileAccess (s : State) (h : HReg) (o : SReg) (agent : Option MemAgent) : Access :=
  if isMgmt s.cur && (h == 13 || h == 14) then checkSpace h.toNat (s.me.rs o).toNat false
  else checkHandle s s.cur h.toNat (s.handle s.cur h.toNat) agent (s.me.rs o).toNat recordBytes false false

/-- tbind (R184). -/
def tileBind (s : State) (t : TbReg) (h : HReg) (o : SReg) (excl : Bool) : State :=
  s.using (s.tileAccess h o (some .fill)) (fun target =>
    match target with
    | .mem pa _ hi =>
      let hd := s.handle s.cur h.toNat
      let k := s.me.setBind t.toNat {}
      let (slot, status, k1) := k.lookup t.toNat pa k.partOf hi excl s.nextReq s.now.seq
      let b : Binding := { status := status, slot := slot.getD 0, hnd := h.toNat, gen := hd.gen, va := hd.vbase.toNat + (s.me.rs o).toNat }
      let k2 := k1.setBind t.toNat b
      startFills (s.setMe (match slot with | some g => k2.touch g | none => k2)) s.cur
    | _ => s)

/-- tpf (R158): a failed check drops it. -/
def tilePrefetch (s : State) (h : HReg) (o : SReg) : State :=
  match s.tileAccess h o (some .fill) with
  | .ok (.mem pa _ hi) =>
    let k := s.me
    if (k.matching pa k.partOf).isEmpty then s.setMe { k with prefetches := k.prefetches ++ [(pa, k.partOf, hi, s.nextReq)] } else s
  | .wait => s.stall
  | _ => s

/-- tinv (R160, R185). -/
def tileInvalidate (s : State) (h : HReg) (o : SReg) : State :=
  s.using (s.tileAccess h o none) (fun target =>
    match target with
    | .mem pa _ _ => startFills (s.modMe (fun k => k.invalidateTile pa k.partOf)) s.cur
    | _ => s)
def bindingInvalidate (s : State) (t : TbReg) : State :=
  let b := s.me.bind t.toNat
  let g := s.me.tile b.slot
  if b.names then startFills (s.modMe (fun k => k.invalidateTile g.tag g.part)) s.cur else s

def setPin (s : State) (t : TbReg) (on : Bool) : State :=
  let b := s.me.bind t.toNat
  if b.names then s.modMe (fun k => k.setTile b.slot { k.tile b.slot with pin := on }) else s

/-- The trap of a binding that cannot serve (R152, R166 steps 2 and 3). -/
def bindingTrap (b : Binding) : Option TrapRec :=
  match b.status with
  | 0 => some { code := 6, cause := 1, res := 1 }
  | 4 => some { code := 6, cause := 2, res := 1 }
  | 5 => some { code := 5, cause := 1, res := 1, va := b.va }
  | 6 => some { code := 6, cause := 3, res := 1 }
  | 7 => some { code := 6, cause := 4, res := 1 }
  | _ => none

/-- What twst writes: offset in the record, and bytes with their masks. -/
def twstByte (f : Fmt) (i v : Nat) : Nat × List (Byte × Byte) :=
  if f == .i4 then
    let hi := i / 128 % 2 == 1
    (128 * (i / 256) + i % 128, [(BitVec.ofNat 8 (v % 16 * (if hi then 16 else 1)), if hi then 0xF0 else 0x0F)])
  else (i, [(BitVec.ofNat 8 v, 0xFF)])

/-- The slot writes and the write-through of twst (R170, R186, R187): never held in the gated store buffer. -/
def storeTile (s : State) (b : Binding) (off : Nat) (bs : List (Byte × Byte)) : State :=
  let t := s.me.tile b.slot
  let ms := bs.zipIdx.map (fun ((v, m), i) => (off + i, v, m))
  let s1 := s.modMe (fun k => (k.matching t.tag t.part).foldl (fun (j : Core) g =>
    let x := j.tile g
    j.setTile g (if x.v then { x with data := mergeBytes x.data ms, par := mergedPar x.data ms x.par }
      else { x with merges := x.merges ++ ms })) k)
  let pa := t.tag + off
  let r := s.request .store bs.length pa (s.leafHome t.part t.hi pa).1 (b.va + off) .dev (bs.map (·.1)) t.hi
  s1.emit 1 (.through { r with mask := if bs.all (fun x => x.2 == 0xFF) then [] else bs.map (·.2) })

/-- The checks that both forms of twst make first (R186). Their traps come before the place that is written is known: the address of the
trap record is that of the tile's record (DESIGN CHOICE, log entry 116). -/
def tileStore (s : State) (t : TbReg) (body : Binding → TrapRec → Fmt → State) : State :=
  let b := s.me.bind t.toNat
  let hd := s.handle s.cur b.hnd
  match bindingTrap b with
  | some tr => s.trap tr
  | none =>
    if !s.me.bindReady t.toNat || s.queued s.cur ≥ 16 then s.stall
    else if hd.gen != b.gen || hd.state != 2 then
      s.trap (handleTrap b.hnd hd 9 (if hd.state == 3 then hd.cause else 6) b.va)
    else match permRefusal .twst true false hd.ronly hd.leaf.toNat with
      | some cause => s.trap (handleTrap b.hnd hd 10 cause b.va)
      | none => body b (handleTrap b.hnd hd 8 2 b.va) (s.me.tile b.slot).fmt

/-- twst: one element. -/
def twstElement (s : State) (t : TbReg) (o : SReg) (v : BitVec 8) : State :=
  tileStore s t (fun b bound f =>
    let i := (s.me.rs o).toNat
    if i ≥ 128 * (if f == .i4 then 256 else 128) then s.trap bound
    else let (off, bs) := twstByte f i v.toNat; storeTile s b off bs)
/-- twst.row: 128 bytes from a buffer element. -/
def twstElements (s : State) (t : TbReg) (o : SReg) (n : CbReg) : State :=
  tileStore s t (fun b bound _ =>
    let i := (s.me.rs o).toNat
    let cb := s.me.cbReg n.toNat
    if i ≥ 128 then s.trap bound
    else if cb.conf && cb.esz != 7 then s.trap (cbTrap 4)
    else s.consuming n.toNat 1 (fun u cb =>
      let (bs, bad) := s.me.element cb cb.con
      if bad then s.trap (poisonElem s.me cb)
      else storeTile (u.emit 1 (.room n.toNat cb.gen 1)) b (128 * i) (bs.map (·, 0xFF))))

/-- What tstat returns (R188). -/
def Core.tileStatus (k : Core) (t : Nat) : Word :=
  let b := k.bind t
  if !b.names then BitVec.ofNat 64 b.status
  else
    let g := k.tile b.slot
    BitVec.ofNat 64 ((if g.v then (g.data.getD 0x4080 0).toNat % 16 else 0) * 2 ^ 12 + b2n g.filling * 2 ^ 11 + b2n g.pin * 2 ^ 10
      + b.slot % 8 * 2 ^ 7 + arrayOf b.slot * 2 ^ 4 + b2n g.v * 8 + b.status)

def execTbind (g : Guard) (t : TbReg) (h : HReg) (o : SReg) (excl : Bool) (s : State) : Outcome := .next (issue g 4 s (fun s => tileBind s t h o excl))
def execTunbind (g : Guard) (t : TbReg) (s : State) : Outcome := .next (issue g 4 s (fun s => s.modMe (fun k => k.setBind t.toNat {})))
def execTpin (g : Guard) (t : TbReg) (s : State) : Outcome := .next (issue g 4 s (fun s => setPin s t true))
def execTunpin (g : Guard) (t : TbReg) (s : State) : Outcome := .next (issue g 4 s (fun s => setPin s t false))
def execTpf (g : Guard) (h : HReg) (o : SReg) (s : State) : Outcome := .next (issue g 4 s (fun s => tilePrefetch s h o))
def execTinvAddr (g : Guard) (h : HReg) (o : SReg) (s : State) : Outcome := .next (issue g 4 s (fun s => tileInvalidate s h o))
def execTinvBinding (g : Guard) (t : TbReg) (s : State) : Outcome := .next (issue g 4 s (fun s => bindingInvalidate s t))
def execTwst (g : Guard) (t : TbReg) (o : SReg) (v : BitVec 8) (s : State) : Outcome := .next (issue g 4 s (fun s => twstElement s t o v))
def execTwstRow (g : Guard) (t : TbReg) (o : SReg) (n : CbReg) (s : State) : Outcome := .next (issue g 4 s (fun s => twstElements s t o n))
def execTstat (g : Guard) (t : TbReg) (d : SReg) (s : State) : Outcome :=
  .next (issue g 4 s (fun s => s.result 2 d (s.me.tileStatus t.toNat)))

end Sys2Proof.Machine
end

