-- ==== Sys2Proof/Machine/Matrix.lean ====
section
/-! DEFINITION. The beat machine: beats, groups, rank mode and the setup instructions (spec/05 R100, spec/09 R161 to R169,
spec/10 R175 to R181). -/

namespace Sys2Proof.Machine

/-! Elements (R162, R164). -/

def f32Code (x : W32) : FVal := decodeNum .f32 x.toNat
def isBlockFmt (f : Fmt) : Bool := f == .e4m3 || f == .e5m2 || f == .mk8 || f == .i8
/-- log2 of the size of a drain or fill element. -/
def drainEsz (f : Fmt) : Nat := if f == .f32 || f == .i32 then 9 else 8
/-- The planes of a format. -/
def planesOf (f : Fmt) : Nat := f.width

/-- The 128 encodings and the scale that one source element holds: a block vector, or 128 bare lanes. -/
def elementCodes (f : Fmt) (bs : List Byte) : List Nat × Nat :=
  (lanesOf f.width 128 (bytesToNat (bs.take (16 * f.width))), if isBlockFmt f then (bs.getD 128 0).toNat else 0x7F)

/-! Groups (R100, R163, R169). -/

/-- The rows of weights of a record, 128 columns each. -/
def weightRows (f : Fmt) (data : List Byte) : List (List Nat) :=
  let rows := (chunks 128 128 data).map (fun r => r.map (·.toNat))
  if f == .i4 then rows.flatMap (fun r => [r.map (· % 16), r.map (· / 16)]) else rows

/-- Turns rows into columns. -/
def transposeRows : Nat → List (List Nat) → List (List Nat)
  | 0, _ => []
  | n + 1, rows => rows.map (fun r => r.headD 0) :: transposeRows n (rows.map List.tail)

/-- The A elements from the stepped planes: the lower bits are zero. -/
def stepped (f : Fmt) (pc code : Nat) : Nat := code - code % 2 ^ (f.width - pc)

/-- The sum of a list of products: whether one was invalid or infinities of both signs met, and the exact value. -/
def sumProducts (ps : List (FVal × Bool)) : Bool × FVal :=
  ps.foldl (fun (acc : Bool × FVal) p =>
    let (v, bad) := addNum false acc.2 p.1
    (acc.1 || p.2 || bad, v)) (false, .fin false 0 0)

/-- One column of a group in multiply mode: its FP32 encoding and event. -/
def groupColumn (sa sb : Nat) (as bs : List FVal) : Nat × Nat :=
  if sa == 0xFF || sb == 0xFF || as.any isNaN || bs.any isNaN then (canonicalNaN .f32, 0)
  else
    let (bad, t) := sumProducts (List.zipWith mulNum as bs)
    if bad then (canonicalNaN .f32, 1)
    else if isZero t then (0, 0)
    else roundNum .f32 .rne 0 (scaleNum t ((sa : Int) - 127 + ((sb : Int) - 127)))

/-- One column of a group in rank mode. -/
def rankColumn (n sa sb : Nat) (as bs : List FVal) : Nat × Nat :=
  if sa == 0xFF || sb == 0xFF || as.any isNaN || bs.any isNaN then (canonicalNaN .f32, 0)
  else
    let above := (as.zip bs).zipIdx.filter (fun ((a, b), k) =>
      let x := scaleNum a ((sa : Int) - 127)
      let y := scaleNum b ((sb : Int) - 127)
      ltNum y x || (eqNum x y && k < n))
    ((roundNum .f32 .rne 0 (.fin false above.length 0)).1, 0)

/-- The group that an array adds at macc: 128 FP32 encodings with events. Elements 128 to 255 of an AREG that a one-element mpush left
read 0 where INT4 planes use them (DESIGN CHOICE, log entry 49). -/
def groupOf (x : ArraySt) (rank : Bool) (t : TileSlot) : List (Nat × Nat) :=
  let f := t.fmt
  let rows := weightRows f t.data
  let as := (List.range rows.length).map (fun k => decodeNum x.af (stepped x.af x.pc (x.codes.getD k 0).toNat))
  let cols := transposeRows 128 rows
  cols.zipIdx.map (fun (col, n) =>
    let sb := (t.data.getD (0x4000 + n) 0).toNat
    let bs := col.map (decodeNum f)
    if rank then rankColumn n x.sa.toNat sb as bs else groupColumn x.sa.toNat sb as bs)

/-- The exact sum of macc: an exact zero is +0, also of two negative zeros (R100). -/
def maccSum (x y : FVal) : FVal × Bool :=
  let p := addNum false x y
  if isZero p.1 then (.fin false 0 0, p.2) else p

/-- acc := acc + g in every column (R100), with the events of the additions. -/
def accumulate (row : List W32) (g : List (Nat × Nat)) : List W32 × Nat :=
  let res := (row.zip g).map (fun (a, (c, k)) =>
    let (v, k2) := laneRound .f32 .rne 0 (maccSum (f32Code a) (decodeNum .f32 c))
    (BitVec.ofNat 32 v, worseKind k k2))
  (res.map (·.1), res.foldl (fun k p => worseKind k p.2) 0)

/-! The common steps of a beat (R164 to R166, R175, R176). -/

/-- The selected bindings: index within the set, and tb number. -/
def selected (m : BitVec 8) (st : Bool) : List (Nat × Nat) := (liveMask m.toNat).map (fun i => (i, if st then i + 8 else i))
where liveMask (m : Nat) : List Nat := (List.range 8).filter (fun i => bits m i 1 == 1)

/-- Whether a list of arrays names one twice. -/
def hasTwice (xs : List Nat) : Bool := xs.any (fun a => xs.count a > 1)

/-- The weight of a beat (R36): the figure of each array that holds a selected ready binding. -/
def beatWeight (s : State) (m : BitVec 8) (st : Bool) (per : Fmt → Nat) : Nat :=
  let ready := (selected m st).filter (fun y => s.me.bindReady y.2)
  let arrays := (ready.map (fun y => arrayOf (s.me.bind y.2).slot)).eraseDups
  (arrays.map (fun a =>
    match ready.find? (fun y => arrayOf (s.me.bind y.2).slot == a) with
    | some y => per (s.me.tile (s.me.bind y.2).slot).fmt
    | none => 0)).sum

/-- The checks of R166, then the beat on its selected bindings (index, slot); a mask of 0 does nothing. A beat reads every slot that it
selects: where the parity of one is wrong, its refill starts and the beat stalls (R172). -/
def beat (s : State) (m : BitVec 8) (st : Bool) (body : List (Nat × Nat) → State) : State :=
  let sel := selected m st
  let k := s.me
  if sel.isEmpty then s
  else if hasTwice ((sel.filter (fun y => (k.bind y.2).names)).map (fun y => arrayOf (k.bind y.2).slot)) then
    s.trap { code := 6, cause := 5, res := 1 }
  else
    let traps := sel.filterMap (fun y => bindingTrap (k.bind y.2))
    match traps.find? (fun t => t.code == 6) with
    | some t => s.trap t
    | none =>
      match traps.head? with
      | some t => s.trap t
      | none =>
        let slots := sel.map (fun y => (k.bind y.2).slot)
        let bad := slots.filter (fun g => !(k.tile g).sound)
        if !sel.all (fun y => k.bindReady y.2) then s.stall
        else if !bad.isEmpty then (bad.foldl (fun (t : State) g => parityError t s.cur g 66) s).stall
        else body (sel.map (fun y => (y.1, (k.bind y.2).slot)))

/-- A beat that reaches an array through another slot than its group's restarts the group (R165). -/
def Core.regroup (k : Core) (g : Nat) : Core :=
  let x := k.array (arrayOf g)
  if x.gslot == some g then k else k.setArray (arrayOf g) { x with pc := 0, gslot := some g }

/-- The row index after a beat (R164). -/
def stepRow (i : Nat) (y : RowStep) : Nat :=
  match y with
  | .next => (i + 1) % 128
  | .hold => i
  | .rewind => 0

/-- The accumulator tile of binding i. -/
def Core.accTile (k : Core) (i : Nat) : Nat := (k.mx.acc + i) % 48

/-! Beats (R164, R176 to R178). -/

/-- mpush: AREG takes the elements that it pops and no others (log entry 49). -/
def beatPush (s : State) (m : BitVec 8) (st : Bool) : State :=
  beat s m st (fun sel =>
    let k := s.me
    let n := if sel.any (fun y => (k.tile y.2).fmt == .i4) then 2 else 1
    let cb := k.cbReg k.mx.scb
    if cb.conf && cb.esz != 8 then s.trap (cbTrap 4)
    else s.consuming k.mx.scb n (fun u b =>
      if k.elementsPoisoned b n then s.trap (poisonElem k b n)
      else
        let els := (k.elements b n).map (elementCodes k.mx.af)
        let x : ArraySt := { codes := (els.flatMap (·.1)).map (BitVec.ofNat 16), sa := BitVec.ofNat 8 ((els.head?.map (·.2)).getD 0),
                             af := k.mx.af, pc := 1 }
        (u.modMe (fun j => sel.foldl (fun (j : Core) y => j.setArray (arrayOf y.2) { x with gslot := some y.2 }) j)).emit 1
          (.room k.mx.scb b.gen n)))

/-- mstep. An array that no mpush has loaded since reset counts as pushed with e4m3, of 8 planes, and zeros (DESIGN CHOICE, log entry 49). -/
def beatStep (s : State) (m : BitVec 8) (st : Bool) : State :=
  beat s m st (fun sel => s.modMe (fun k => sel.foldl (fun (j : Core) y =>
    let j1 := j.regroup y.2
    let x := j1.array (arrayOf y.2)
    j1.setArray (arrayOf y.2) { x with pc := min (x.pc + 1) (planesOf x.af) }) k))

/-- macc. -/
def beatAccumulate (s : State) (m : BitVec 8) (st : Bool) (y : RowStep) : State :=
  beat s m st (fun sel =>
    let one (acc : Core × Nat) (e : Nat × Nat) : Core × Nat :=
      let k := acc.1.regroup e.2
      let a := arrayOf e.2
      let x := k.array a
      let (k1, kind) := if k.mx.ri < k.mx.rl then
          (let (row, ev) := accumulate (k.accRow (k.accTile e.1) k.mx.ri) (groupOf x k.mx.rank (k.tile e.2))
           (k.setAccRow (k.accTile e.1) k.mx.ri row, worseKind ev (if x.pc < planesOf x.af then 4 else 0)))
        else (k, 0)
      (k1.setArray a { x with pc := 0 }, worseKind acc.2 kind)
    let (k, kind) := sel.foldl one (s.me, 0)
    (s.setMe { k with mx := { k.mx with ri := stepRow k.mx.ri y } }).event 4 kind)

/-- One drain element and its event (R164, R177). -/
def drainElement (f : Fmt) (rnd : Rnd) (rs : Nat → Nat) (row : List W32) : List Byte × Nat :=
  if isBlockFmt f then
    let (scale, codes, kind) := quantBlock f rnd rs (row.map f32Code)
    (natToBytes 256 (packLanes f.width codes + scale * 2 ^ (128 * f.width)), kind)
  else
    let res := row.zipIdx.map (fun (y : W32 × Nat) => if f == .f32 then (y.1.toNat, 0) else convertNum f .f32 rnd false (rs y.2) y.1.toNat)
    (natToBytes (16 * f.width) (packLanes f.width (res.map (·.1))), res.foldl (fun k p => worseKind k p.2) 0)

/-- mdrain: EL is that of R93. -/
def beatDrain (s : State) (m : BitVec 8) (st : Bool) (y : RowStep) : State :=
  beat s m st (fun sel =>
    let k := s.me
    let cb := k.cbReg k.mx.dcb
    let n := sel.length
    if cb.conf && cb.esz != drainEsz k.mx.df then s.trap (cbTrap 4)
    else s.producing k.mx.dcb n (fun u b =>
      let rs (c : Nat) : Nat := stoRandom (k.sysReg 1) (s.now.adr % 2 ^ 48) k.lcs (s.now.k % 2 ^ 32) s.now.slot (128 * (k.mx.di % 128) + c)
      let outs := sel.map (fun e =>
        drainElement k.mx.df k.mx.rnd rs (if k.mx.di < k.mx.rl then k.accRow (k.accTile e.1) k.mx.di else zeroRow))
      let u1 := u.modMe (fun j =>
        let j1 := sel.foldl (fun (j : Core) e => j.regroup e.2) j
        { j1 with mx := { j1.mx with di := stepRow j1.mx.di y } })
      let u2 := outs.zipIdx.foldl (fun (t : State) (o, i) => t.emit 4 (.bytes (b.elemAddr (b.prd + i)) o.1)) u1
      (u2.emit 4 (.cnt k.mx.dcb b.gen n)).event 4 (outs.foldl (fun kd o => worseKind kd o.2) 0)))

/-- mclr. -/
def beatClear (s : State) (m : BitVec 8) (st : Bool) : State :=
  beat s m st (fun sel => s.modMe (fun k => sel.foldl (fun (j : Core) e =>
    let t := j.accTile e.1
    let j1 := j.regroup e.2
    { j1 with at_ := j1.at_.filter (fun (r, _) => r / 128 != t) }) k))

/-- The values of a fill element, exact, with block scales applied. -/
def fillValues (f : Fmt) (bs : List Byte) : List FVal :=
  let (codes, scale) := elementCodes f bs
  if isBlockFmt f then
    if scale == 0xFF then List.replicate 128 .nan else codes.map (fun c => scaleNum (decodeNum f c) ((scale : Int) - 127))
  else codes.map (decodeNum f)

/-- mfill. The spec gives no element index for R93, so EL is a free value (log entry 50). -/
def beatFill (s : State) (m : BitVec 8) (st : Bool) (y : RowStep) : State :=
  beat s m st (fun sel =>
    let k := s.me
    let cb := k.cbReg k.mx.scb
    let n := sel.length
    if cb.conf && cb.esz != drainEsz k.mx.df then s.trap (cbTrap 4)
    else s.consuming k.mx.scb n (fun u b =>
      if k.elementsPoisoned b n then s.trap (poisonElem k b n)
      else
        let rs (j c : Nat) : Nat :=
          if k.mx.rnd == .sto then stoRandom (k.sysReg 1) (s.now.adr % 2 ^ 48) k.lcs (s.now.k % 2 ^ 32) s.now.slot (Config.fillElement k.mx.ri j c).toNat
          else 0
        let rows := ((k.elements b n).zipIdx).map (fun (bs, j) =>
          (fillValues k.mx.df bs).zipIdx.map (fun (v, c) => roundNum .f32 k.mx.rnd (rs j c) v))
        let u1 := u.modMe (fun j =>
          let j1 := (sel.zip rows).foldl (fun (j : Core) (e, row) =>
            (j.regroup e.2).setAccRow (j.accTile e.1) j.mx.ri (row.map (fun p => BitVec.ofNat 32 p.1))) j
          { j1 with mx := { j1.mx with ri := stepRow j1.mx.ri y } })
        let kind := rows.foldl (fun kd row => row.foldl (fun kd p => worseKind kd p.2) kd) 0
        (u1.emit 1 (.room k.mx.scb b.gen n)).event 4 kind))

/-- The weight of mpush and mstep per array. -/
def planeWeight (f : Fmt) : Nat := if f == .i4 then 18 else 12

def execMpush (g : Guard) (m : BitVec 8) (st : Bool) (s : State) : Outcome := .next (issue g (beatWeight s m st planeWeight) s (fun s => beatPush s m st))
def execMstep (g : Guard) (m : BitVec 8) (st : Bool) (s : State) : Outcome := .next (issue g (beatWeight s m st planeWeight) s (fun s => beatStep s m st))
def execMacc (g : Guard) (m : BitVec 8) (st : Bool) (y : RowStep) (s : State) : Outcome :=
  .next (issue g (beatWeight s m st (fun _ => 16)) s (fun s => beatAccumulate s m st y))
def execMdrain (g : Guard) (m : BitVec 8) (st : Bool) (y : RowStep) (s : State) : Outcome :=
  .next (issue g (beatWeight s m st (fun _ => 16)) s (fun s => beatDrain s m st y))
def execMclr (g : Guard) (m : BitVec 8) (st : Bool) (s : State) : Outcome := .next (issue g (beatWeight s m st (fun _ => 4)) s (fun s => beatClear s m st))
def execMfill (g : Guard) (m : BitVec 8) (st : Bool) (y : RowStep) (s : State) : Outcome :=
  .next (issue g (beatWeight s m st (fun _ => 16)) s (fun s => beatFill s m st y))

/-! Setup (R179 to R181). -/

/-- mcfg: AREG and GSLOT are kept. -/
def configure (s : State) (scb : CbReg) (af : Fmt) (acc : BitVec 6) (dcb : CbReg) (df : Fmt) (rnd : Rnd) : State :=
  s.modMe (fun k => { k with mx := { k.mx with
    scb := scb.toNat, af := af, acc := acc.toNat, dcb := dcb.toNat, df := df, rnd := rnd, ri := 0, di := 0
    arrays := k.mx.arrays.map (fun (i, x) => (i, { x with pc := 0 })) } })
def setRowLimit (s : State) (n : Nat) : State := s.modMe (fun k => { k with mx := { k.mx with rl := min n 128 } })

def execMcfg (g : Guard) (scb : CbReg) (af : Fmt) (acc : BitVec 6) (dcb : CbReg) (df : Fmt) (rnd : Rnd) (s : State) : Outcome :=
  .next (issue g 4 s (fun s => configure s scb af acc dcb df rnd))
def execMmode (g : Guard) (rank : Bool) (s : State) : Outcome :=
  .next (issue g 4 s (fun s => s.modMe (fun k => { k with mx := { k.mx with rank := rank } })))
def execMrowReg (g : Guard) (a : SReg) (s : State) : Outcome := .next (issue g 4 s (fun s => setRowLimit s (s.me.rs a).toNat))
def execMrowImm (g : Guard) (n : BitVec 8) (s : State) : Outcome := .next (issue g 4 s (fun s => setRowLimit s n.toNat))

end Sys2Proof.Machine
end

