-- ==== Sys2Proof/Machine/Moves.lean ====
section
/-! DEFINITION. The moves of the bank units (spec/20 R320 to R323), one per destination port. -/

namespace Sys2Proof.Machine

/-- OUT: four bytes of output, or the bound of R323. -/
def writeOut (s : State) (r : MoveRun) (v : W32) : State :=
  if r.oidx + 4 > s.unit.olen then s.endRun r none 4
  else s.goOn { r with out := r.out ++ natToBytes 4 v.toNat, oidx := r.oidx + 4, g1 := decide (r.oidx + 8 ≤ s.unit.olen) }
/-- BR: the next move is word v, or the illegal move of R323. -/
def branchMove (s : State) (r : MoveRun) (v : W32) : State :=
  if v.toNat ≥ s.unit.prog.length then s.endRun r none 3 else s.goOn { r with pc := v.toNat }

def execMoveNull (src : MoveSrc) (g : BitVec 2) (s : State) : Outcome := .next (move src g s (fun s r _ => s.goOn r))
def execMoveRowk (src : MoveSrc) (g : BitVec 2) (s : State) : Outcome := .next (move src g s (fun s r _ => nextRow s r))
def execMoveFmaA (src : MoveSrc) (g : BitVec 2) (s : State) : Outcome := .next (move src g s (fun s r v => s.goOn { r with fmaA := v }))
def execMoveFmaT (src : MoveSrc) (g : BitVec 2) (s : State) : Outcome := .next (move src g s (fun s r v => s.goOn { r with acc := roundF32 (fmaNum false (f32 r.fmaA) (f32 v) (f32 r.acc)).1 }))
def execMoveAcc (src : MoveSrc) (g : BitVec 2) (s : State) : Outcome := .next (move src g s (fun s r v => s.goOn { r with acc := v }))
def execMoveOut (src : MoveSrc) (g : BitVec 2) (s : State) : Outcome := .next (move src g s (fun s r v => writeOut s r v))
def execMoveLcSet (src : MoveSrc) (g : BitVec 2) (s : State) : Outcome := .next (move src g s (fun s r v => s.goOn { r with lc := v }))
def execMoveLcT (src : MoveSrc) (g : BitVec 2) (s : State) : Outcome := .next (move src g s (fun s r _ => s.goOn { r with lc := r.lc - 1, g0 := r.lc - 1 != 0 }))
def execMoveBr (src : MoveSrc) (g : BitVec 2) (s : State) : Outcome := .next (move src g s (fun s r v => branchMove s r v))
def execMoveEnd (src : MoveSrc) (g : BitVec 2) (s : State) : Outcome := .next (move src g s (fun s r _ => s.endRun r (some (outputOf s.unit r)) 0))
def execMoveAcc1 (src : MoveSrc) (g : BitVec 2) (s : State) : Outcome := .next (move src g s (fun s r v => s.goOn { r with acc1 := v }))
def execMoveFmaT1 (src : MoveSrc) (g : BitVec 2) (s : State) : Outcome := .next (move src g s (fun s r v => s.goOn { r with acc1 := roundF32 (fmaNum false (f32 r.fmaA) (f32 v) (f32 r.acc1)).1 }))
def execMoveAddA (src : MoveSrc) (g : BitVec 2) (s : State) : Outcome := .next (move src g s (fun s r v => s.goOn { r with addA := v }))
def execMoveAddT (src : MoveSrc) (g : BitVec 2) (s : State) : Outcome := .next (move src g s (fun s r v => s.goOn { r with addR := roundF32 (addNum false (f32 r.addA) (f32 v)).1 }))
def execMoveMulA (src : MoveSrc) (g : BitVec 2) (s : State) : Outcome := .next (move src g s (fun s r v => s.goOn { r with mulA := v }))
def execMoveMulT (src : MoveSrc) (g : BitVec 2) (s : State) : Outcome := .next (move src g s (fun s r v => s.goOn { r with mulR := roundF32 (mulNum (f32 r.mulA) (f32 v)).1 }))
def execMoveCmpA (src : MoveSrc) (g : BitVec 2) (s : State) : Outcome := .next (move src g s (fun s r v => s.goOn { r with cmpA := v }))
def execMoveCmpT (src : MoveSrc) (g : BitVec 2) (s : State) : Outcome := .next (move src g s (fun s r v => s.goOn { r with g0 := ltNum (f32 r.cmpA) (f32 v), g1 := eqNum (f32 r.cmpA) (f32 v) }))

end Sys2Proof.Machine
end

