-- ==== Sys2Proof/Machine/Scalar.lean ====
section
/-! DEFINITION. The instructions of slots SA and SB (spec/04 R61 to R72). -/

namespace Sys2Proof.Machine

/-! Operands and write-back (R61). -/

/-- A source as a signed integer, 64-bit or .w form. -/
def signedOp (w : Bool) (x : Word) : Int := if w then (x.setWidth 32).toInt else x.toInt
/-- A source as an unsigned integer. -/
def unsignedOp (w : Bool) (x : Word) : Nat := if w then (x.setWidth 32).toNat else x.toNat
/-- The write-back of an exact result. -/
def writeBack (w : Bool) (res : Int) : Word := if w then (BitVec.ofInt 32 res).signExtend 64 else BitVec.ofInt 64 res
/-- The width of a form. -/
def formWidth (w : Bool) : Nat := if w then 32 else 64

/-- The immediate m of R65. -/
def immVal (m : Imm) : Word := match m with | .short i => i.signExtend 64 | .ext w => w.signExtend 64
/-- A shift amount given as an immediate: 0 to 63 by R65. -/
def shiftImm (m : Imm) : Nat := match m with | .short i => i.toNat | .ext w => w.toNat

/-! Results of the operations, as functions of the sources. -/

def addVal (w : Bool) (a b : Word) : Word := writeBack w (signedOp w a + signedOp w b)
def subVal (w : Bool) (a b : Word) : Word := writeBack w (signedOp w a - signedOp w b)
def mulVal (w : Bool) (a b : Word) : Word := writeBack w (signedOp w a * signedOp w b)
def mulhiVal (w : Bool) (a b : Word) : Word := writeBack w ((signedOp w a * signedOp w b) / 2 ^ formWidth w)
def mulhzVal (w : Bool) (a b : Word) : Word := writeBack w (((unsignedOp w a * unsignedOp w b) / 2 ^ formWidth w : Nat) : Int)
/-- Division truncates toward zero; a zero divisor gives all ones (R63). -/
def divVal (w : Bool) (a b : Word) : Word :=
  if signedOp w b = 0 then writeBack w (-1) else writeBack w (Int.tdiv (signedOp w a) (signedOp w b))
def divzVal (w : Bool) (a b : Word) : Word :=
  if unsignedOp w b = 0 then writeBack w (-1) else writeBack w ((unsignedOp w a / unsignedOp w b : Nat) : Int)
/-- The remainder takes the sign of the dividend; a zero divisor gives the dividend (R63). -/
def remVal (w : Bool) (a b : Word) : Word :=
  if signedOp w b = 0 then writeBack w (signedOp w a) else writeBack w (Int.tmod (signedOp w a) (signedOp w b))
def remzVal (w : Bool) (a b : Word) : Word :=
  if unsignedOp w b = 0 then writeBack w (unsignedOp w a : Int) else writeBack w ((unsignedOp w a % unsignedOp w b : Nat) : Int)
/-- The amount of a shift: bits 5:0, or 4:0 in a .w form (R64). -/
def shiftAmount (w : Bool) (b : Word) : Nat := b.toNat % formWidth w
def shlVal (w : Bool) (a : Word) (n : Nat) : Word := writeBack w ((unsignedOp w a * 2 ^ n : Nat) : Int)
def shrVal (w : Bool) (a : Word) (n : Nat) : Word := writeBack w ((unsignedOp w a / 2 ^ n : Nat) : Int)
def sraVal (w : Bool) (a : Word) (n : Nat) : Word := writeBack w (signedOp w a / 2 ^ n)
def rolVal (w : Bool) (a : Word) (n : Nat) : Word :=
  writeBack w ((unsignedOp w a * 2 ^ n % 2 ^ formWidth w + unsignedOp w a / 2 ^ (formWidth w - n) : Nat) : Int)
def minVal (w : Bool) (a b : Word) : Word := writeBack w (min (signedOp w a) (signedOp w b))
def maxVal (w : Bool) (a b : Word) : Word := writeBack w (max (signedOp w a) (signedOp w b))
def minzVal (w : Bool) (a b : Word) : Word := writeBack w (min (unsignedOp w a) (unsignedOp w b) : Nat)
def maxzVal (w : Bool) (a b : Word) : Word := writeBack w (max (unsignedOp w a) (unsignedOp w b) : Nat)

/-- The number of one bits of the low n bits. -/
def countOnes : Nat → Nat → Nat
  | 0, _ => 0
  | n + 1, v => v % 2 + countOnes n (v / 2)
/-- The number of zero bits below the lowest one bit; n when there is none. -/
def countTrailing : Nat → Nat → Nat
  | 0, _ => 0
  | n + 1, v => if v % 2 == 1 then 0 else 1 + countTrailing n (v / 2)
/-- The number of zero bits above the highest one bit of the low n bits. -/
def countLeading : Nat → Nat → Nat
  | 0, _ => 0
  | n + 1, v => if v / 2 ^ n % 2 == 1 then 0 else 1 + countLeading n v
def clzVal (w : Bool) (a : Word) : Word := BitVec.ofNat 64 (countLeading (formWidth w) (unsignedOp w a))
def ctzVal (w : Bool) (a : Word) : Word := BitVec.ofNat 64 (countTrailing (formWidth w) (unsignedOp w a))
def popcVal (w : Bool) (a : Word) : Word := BitVec.ofNat 64 (countOnes (formWidth w) (unsignedOp w a))

/-- The position and the width of a bit field (R67). -/
def fieldPos (b : Word) : Nat := wbits b 0 6
def fieldWidth (b : Word) : Nat := min (wbits b 8 7) 64
def bextVal (a b : Word) : Word := BitVec.ofNat 64 (bits a.toNat (fieldPos b) (fieldWidth b))
def binsVal (old a b : Word) : Word := wput old (fieldPos b) (min (fieldPos b + fieldWidth b) 64 - fieldPos b) a.toNat
def sextVal (a : Word) (k : Nat) : Word := BitVec.ofInt 64 (sxNat k a.toNat)
def zextVal (a : Word) (k : Nat) : Word := BitVec.ofNat 64 (a.toNat % 2 ^ k)
def lihVal (a m : Word) : Word := BitVec.ofNat 64 (wbits m 0 32 * 2 ^ 32 + wbits a 0 32)

/-! Register and immediate forms (R62 to R67). -/

def execNop (s : State) : Outcome := .next s
/-- The slot does nothing from here on: the cycle installs idle like any operation (R20). -/
def execIdle (s : State) : Outcome := .next s

def execAdd (g : Guard) (d a b : SReg) (k : Bool) (s : State) : Outcome :=
  .next (issue g 1 s (fun s => s.result 1 d (addVal k (s.me.rs a) (s.me.rs b))))
def execSub (g : Guard) (d a b : SReg) (k : Bool) (s : State) : Outcome :=
  .next (issue g 1 s (fun s => s.result 1 d (subVal k (s.me.rs a) (s.me.rs b))))
def execMul (g : Guard) (d a b : SReg) (k : Bool) (s : State) : Outcome :=
  .next (issue g 2 s (fun s => s.result 3 d (mulVal k (s.me.rs a) (s.me.rs b))))
def execMulhi (g : Guard) (d a b : SReg) (k : Bool) (s : State) : Outcome :=
  .next (issue g 2 s (fun s => s.result 3 d (mulhiVal k (s.me.rs a) (s.me.rs b))))
def execMulhz (g : Guard) (d a b : SReg) (k : Bool) (s : State) : Outcome :=
  .next (issue g 2 s (fun s => s.result 3 d (mulhzVal k (s.me.rs a) (s.me.rs b))))
def execDiv (g : Guard) (d a b : SReg) (k : Bool) (s : State) : Outcome :=
  .next (issue g 2 s (fun s => s.result 18 d (divVal k (s.me.rs a) (s.me.rs b))))
def execDivz (g : Guard) (d a b : SReg) (k : Bool) (s : State) : Outcome :=
  .next (issue g 2 s (fun s => s.result 18 d (divzVal k (s.me.rs a) (s.me.rs b))))
def execRem (g : Guard) (d a b : SReg) (k : Bool) (s : State) : Outcome :=
  .next (issue g 2 s (fun s => s.result 18 d (remVal k (s.me.rs a) (s.me.rs b))))
def execRemz (g : Guard) (d a b : SReg) (k : Bool) (s : State) : Outcome :=
  .next (issue g 2 s (fun s => s.result 18 d (remzVal k (s.me.rs a) (s.me.rs b))))
def execAnd (g : Guard) (d a b : SReg) (s : State) : Outcome :=
  .next (issue g 1 s (fun s => s.result 1 d (s.me.rs a &&& s.me.rs b)))
def execOr (g : Guard) (d a b : SReg) (s : State) : Outcome :=
  .next (issue g 1 s (fun s => s.result 1 d (s.me.rs a ||| s.me.rs b)))
def execXor (g : Guard) (d a b : SReg) (s : State) : Outcome :=
  .next (issue g 1 s (fun s => s.result 1 d (s.me.rs a ^^^ s.me.rs b)))
def execAndn (g : Guard) (d a b : SReg) (s : State) : Outcome :=
  .next (issue g 1 s (fun s => s.result 1 d (s.me.rs a &&& ~~~(s.me.rs b))))
def execShl (g : Guard) (d a b : SReg) (k : Bool) (s : State) : Outcome :=
  .next (issue g 1 s (fun s => s.result 1 d (shlVal k (s.me.rs a) (shiftAmount k (s.me.rs b)))))
def execShr (g : Guard) (d a b : SReg) (k : Bool) (s : State) : Outcome :=
  .next (issue g 1 s (fun s => s.result 1 d (shrVal k (s.me.rs a) (shiftAmount k (s.me.rs b)))))
def execSra (g : Guard) (d a b : SReg) (k : Bool) (s : State) : Outcome :=
  .next (issue g 1 s (fun s => s.result 1 d (sraVal k (s.me.rs a) (shiftAmount k (s.me.rs b)))))
def execRol (g : Guard) (d a b : SReg) (k : Bool) (s : State) : Outcome :=
  .next (issue g 1 s (fun s => s.result 1 d (rolVal k (s.me.rs a) (shiftAmount k (s.me.rs b)))))
def execMin (g : Guard) (d a b : SReg) (k : Bool) (s : State) : Outcome :=
  .next (issue g 1 s (fun s => s.result 1 d (minVal k (s.me.rs a) (s.me.rs b))))
def execMax (g : Guard) (d a b : SReg) (k : Bool) (s : State) : Outcome :=
  .next (issue g 1 s (fun s => s.result 1 d (maxVal k (s.me.rs a) (s.me.rs b))))
def execMinz (g : Guard) (d a b : SReg) (k : Bool) (s : State) : Outcome :=
  .next (issue g 1 s (fun s => s.result 1 d (minzVal k (s.me.rs a) (s.me.rs b))))
def execMaxz (g : Guard) (d a b : SReg) (k : Bool) (s : State) : Outcome :=
  .next (issue g 1 s (fun s => s.result 1 d (maxzVal k (s.me.rs a) (s.me.rs b))))
def execAddi (g : Guard) (d a : SReg) (m : Imm) (s : State) : Outcome :=
  .next (issue g 1 s (fun s => s.result 1 d (addVal false (s.me.rs a) (immVal m))))
def execAndi (g : Guard) (d a : SReg) (m : Imm) (s : State) : Outcome :=
  .next (issue g 1 s (fun s => s.result 1 d (s.me.rs a &&& immVal m)))
def execOri (g : Guard) (d a : SReg) (m : Imm) (s : State) : Outcome :=
  .next (issue g 1 s (fun s => s.result 1 d (s.me.rs a ||| immVal m)))
def execXori (g : Guard) (d a : SReg) (m : Imm) (s : State) : Outcome :=
  .next (issue g 1 s (fun s => s.result 1 d (s.me.rs a ^^^ immVal m)))
def execShli (g : Guard) (d a : SReg) (m : Imm) (s : State) : Outcome :=
  .next (issue g 1 s (fun s => s.result 1 d (shlVal false (s.me.rs a) (shiftImm m))))
def execShri (g : Guard) (d a : SReg) (m : Imm) (s : State) : Outcome :=
  .next (issue g 1 s (fun s => s.result 1 d (shrVal false (s.me.rs a) (shiftImm m))))
def execSrai (g : Guard) (d a : SReg) (m : Imm) (s : State) : Outcome :=
  .next (issue g 1 s (fun s => s.result 1 d (sraVal false (s.me.rs a) (shiftImm m))))
def execAddiW (g : Guard) (d a : SReg) (m : Imm) (s : State) : Outcome :=
  .next (issue g 1 s (fun s => s.result 1 d (addVal true (s.me.rs a) (immVal m))))
def execShliW (g : Guard) (d a : SReg) (i : BitVec 7) (s : State) : Outcome :=
  .next (issue g 1 s (fun s => s.result 1 d (shlVal true (s.me.rs a) i.toNat)))
def execShriW (g : Guard) (d a : SReg) (i : BitVec 7) (s : State) : Outcome :=
  .next (issue g 1 s (fun s => s.result 1 d (shrVal true (s.me.rs a) i.toNat)))
def execSraiW (g : Guard) (d a : SReg) (i : BitVec 7) (s : State) : Outcome :=
  .next (issue g 1 s (fun s => s.result 1 d (sraVal true (s.me.rs a) i.toNat)))

/-! Compares (R69). -/

/-- A compare's results: the relation in pQ, its complement in pQ2. -/
def State.setPair (s : State) (q q2 : PReg) (r : Bool) : State := (s.emit 1 (.p q r)).emit 1 (.p q2 (!r))

def execCmpeq (g : Guard) (q q2 : PReg) (a : SReg) (o : CmpOpnd) (s : State) : Outcome :=
  .next (issue g 1 s (fun s => s.setPair q q2 (relEq (s.me.rs a) (s.me.cmpOperand o))))
def execCmpne (g : Guard) (q q2 : PReg) (a : SReg) (o : CmpOpnd) (s : State) : Outcome :=
  .next (issue g 1 s (fun s => s.setPair q q2 (relNe (s.me.rs a) (s.me.cmpOperand o))))
def execCmplt (g : Guard) (q q2 : PReg) (a : SReg) (o : CmpOpnd) (s : State) : Outcome :=
  .next (issue g 1 s (fun s => s.setPair q q2 (relLt (s.me.rs a) (s.me.cmpOperand o))))
def execCmple (g : Guard) (q q2 : PReg) (a : SReg) (o : CmpOpnd) (s : State) : Outcome :=
  .next (issue g 1 s (fun s => s.setPair q q2 (relLe (s.me.rs a) (s.me.cmpOperand o))))
def execCmpltz (g : Guard) (q q2 : PReg) (a : SReg) (o : CmpOpnd) (s : State) : Outcome :=
  .next (issue g 1 s (fun s => s.setPair q q2 (relLtz (s.me.rs a) (s.me.cmpOperand o))))
def execCmplez (g : Guard) (q q2 : PReg) (a : SReg) (o : CmpOpnd) (s : State) : Outcome :=
  .next (issue g 1 s (fun s => s.setPair q q2 (relLez (s.me.rs a) (s.me.cmpOperand o))))
def execCmpeqW (g : Guard) (q q2 : PReg) (a : SReg) (o : CmpOpnd) (s : State) : Outcome :=
  .next (issue g 1 s (fun s => s.setPair q q2 (relEq (lowWord (s.me.rs a)) (lowWord (s.me.cmpOperand o)))))
def execCmpneW (g : Guard) (q q2 : PReg) (a : SReg) (o : CmpOpnd) (s : State) : Outcome :=
  .next (issue g 1 s (fun s => s.setPair q q2 (relNe (lowWord (s.me.rs a)) (lowWord (s.me.cmpOperand o)))))
def execCmpltW (g : Guard) (q q2 : PReg) (a : SReg) (o : CmpOpnd) (s : State) : Outcome :=
  .next (issue g 1 s (fun s => s.setPair q q2 (relLt (lowWord (s.me.rs a)) (lowWord (s.me.cmpOperand o)))))
def execCmpleW (g : Guard) (q q2 : PReg) (a : SReg) (o : CmpOpnd) (s : State) : Outcome :=
  .next (issue g 1 s (fun s => s.setPair q q2 (relLe (lowWord (s.me.rs a)) (lowWord (s.me.cmpOperand o)))))
def execCmpltzW (g : Guard) (q q2 : PReg) (a : SReg) (o : CmpOpnd) (s : State) : Outcome :=
  .next (issue g 1 s (fun s => s.setPair q q2 (relLtz (lowWord (s.me.rs a)) (lowWord (s.me.cmpOperand o)))))
def execCmplezW (g : Guard) (q q2 : PReg) (a : SReg) (o : CmpOpnd) (s : State) : Outcome :=
  .next (issue g 1 s (fun s => s.setPair q q2 (relLez (lowWord (s.me.rs a)) (lowWord (s.me.cmpOperand o)))))

/-! Predicates (R70, R71). -/

/-- A source predicate, inverted where its bit is set. -/
def Core.predOp (k : Core) (p : PReg) (n : Bool) : Bool := k.rp p != n

def execPand (g : Guard) (q pa pb : PReg) (na nb : Bool) (s : State) : Outcome :=
  .next (issue g 1 s (fun s => s.emit 1 (.p q (s.me.predOp pa na && s.me.predOp pb nb))))
def execPor (g : Guard) (q pa pb : PReg) (na nb : Bool) (s : State) : Outcome :=
  .next (issue g 1 s (fun s => s.emit 1 (.p q (s.me.predOp pa na || s.me.predOp pb nb))))
def execPxor (g : Guard) (q pa pb : PReg) (na nb : Bool) (s : State) : Outcome :=
  .next (issue g 1 s (fun s => s.emit 1 (.p q (s.me.predOp pa na != s.me.predOp pb nb))))
def execPnot (g : Guard) (q pa : PReg) (na : Bool) (s : State) : Outcome :=
  .next (issue g 1 s (fun s => s.emit 1 (.p q (!s.me.predOp pa na))))
def execPset (g : Guard) (a b : SReg) (s : State) : Outcome :=
  .next (issue g 1 s (fun s =>
    let v := s.me.rs a
    let m := s.me.rs b
    [1, 2, 3, 4, 5, 6, 7].foldl (fun t i => if wbit m i then t.emit 1 (.p (BitVec.ofNat 3 i) (wbit v i)) else t) s))
def execPget (g : Guard) (d : SReg) (s : State) : Outcome :=
  .next (issue g 1 s (fun s => s.result 1 d (BitVec.ofNat 64 (s.me.p.toNat / 2 * 2 + 1))))

/-! Bit counts, bit fields, moves (R62, R66, R67). -/

def execClz (g : Guard) (d a : SReg) (k : Bool) (s : State) : Outcome :=
  .next (issue g 1 s (fun s => s.result 1 d (clzVal k (s.me.rs a))))
def execCtz (g : Guard) (d a : SReg) (k : Bool) (s : State) : Outcome :=
  .next (issue g 1 s (fun s => s.result 1 d (ctzVal k (s.me.rs a))))
def execPopc (g : Guard) (d a : SReg) (k : Bool) (s : State) : Outcome :=
  .next (issue g 1 s (fun s => s.result 1 d (popcVal k (s.me.rs a))))
def execBext (g : Guard) (d a b : SReg) (s : State) : Outcome :=
  .next (issue g 1 s (fun s => s.result 1 d (bextVal (s.me.rs a) (s.me.rs b))))
def execBins (g : Guard) (d a b : SReg) (s : State) : Outcome :=
  .next (issue g 1 s (fun s => s.result 1 d (binsVal (s.me.rs d) (s.me.rs a) (s.me.rs b))))
def execSext (g : Guard) (d a : SReg) (i : BitVec 7) (s : State) : Outcome :=
  .next (issue g 1 s (fun s => s.result 1 d (sextVal (s.me.rs a) i.toNat)))
def execZext (g : Guard) (d a : SReg) (i : BitVec 7) (s : State) : Outcome :=
  .next (issue g 1 s (fun s => s.result 1 d (zextVal (s.me.rs a) i.toNat)))
def execMov (g : Guard) (d a : SReg) (s : State) : Outcome :=
  .next (issue g 1 s (fun s => s.result 1 d (s.me.rs a)))
def execLi (g : Guard) (d : SReg) (m : Imm) (s : State) : Outcome :=
  .next (issue g 1 s (fun s => s.result 1 d (immVal m)))
def execLih (g : Guard) (d a : SReg) (m : Imm) (s : State) : Outcome :=
  .next (issue g 1 s (fun s => s.result 1 d (lihVal (s.me.rs a) (immVal m))))

/-! System registers (R72): the read is of the issue cycle, the result and the write reach their readers after 2. -/

def execSysr (g : Guard) (r : SReg) (n : BitVec 13) (s : State) : Outcome :=
  .next (issue g 1 s (fun s => s.result 2 r (readSys s s.cur n.toNat)))
def execSysw (g : Guard) (r : SReg) (n : BitVec 13) (s : State) : Outcome :=
  .next (issue g 1 s (fun s => s.emit 2 (.sys n.toNat (s.me.rs r))))
def execSysx (g : Guard) (r : SReg) (n : BitVec 13) (s : State) : Outcome :=
  .next (issue g 1 s (fun s => (s.result 2 r (readSys s s.cur n.toNat)).emit 2 (.sys n.toNat (s.me.rs r))))

end Sys2Proof.Machine
end

