-- ==== Sys2Proof/Machine/Vector.lean ====
section
/-! DEFINITION. The instructions of slot VX but the table engine (spec/06 R107 to R121). -/

namespace Sys2Proof.Machine

/-! The common form (R107 to R110). -/

/-- The random integer of R93 for result element el of the issue in progress. -/
def State.random (s : State) (el : Nat) : Nat :=
  stoRandom (s.me.sysReg 1) (s.now.adr % 2 ^ 48) s.me.lcs (s.now.k % 2 ^ 32) s.now.slot el

/-- The third source: vD without an extension, otherwise vC (R108). -/
def thirdOf (d : VReg) (x : Option VExt) : VReg := match x with | some e => e.c | none => d

/-- A vector result from lanes with their events: the operation records its highest-priority kind (R110). -/
def State.lanes (s : State) (lat : Nat) (d : VReg) (f : Fmt) (xs : List (Nat × Nat)) : State :=
  s.emit lat (.v d (vecOf f (xs.map (·.1)))) (xs.foldl (fun k p => worseKind k p.2) 0)
/-- A vector result of bits, which records nothing. -/
def State.vresult (s : State) (lat : Nat) (d : VReg) (x : Vec) : State := s.emit lat (.v d x)

/-- An integer lane, wrapped to its width. -/
def wrapLane (f : Fmt) (v : Int) : Nat := (BitVec.ofInt f.width v).toNat
/-- The value of an integer lane. -/
def laneInt (f : Fmt) (code : Nat) : Int := sxNat f.width code
/-- sat(F, v) of an integer format, with the saturation event (R96, R98). -/
def satLane (f : Fmt) (v : Int) : Nat × Nat :=
  let hi : Int := 2 ^ (f.width - 1) - 1
  let lo : Int := -(2 ^ (f.width - 1))
  if v > hi then (wrapLane f hi, 5) else if v < lo then (wrapLane f lo, 5) else (wrapLane f v, 0)

/-! Lane arithmetic (R111). -/

/-- The exact result of vadd to vfms on decoded values. -/
def LaneOp.exact (op : LaneOp) (rdn : Bool) (a b c : FVal) : FVal × Bool :=
  match op with
  | .add => addNum rdn a b
  | .sub => addNum rdn a (negNum b)
  | .mul => mulNum a b
  | .fma => fmaNum rdn a b c
  | .fms => fmaNum rdn a b (negNum c)
def LaneOp.int (op : LaneOp) (a b c : Int) : Int :=
  match op with
  | .add => a + b
  | .sub => a - b
  | .mul => a * b
  | .fma => a * b + c
  | .fms => a * b - c

/-- One lane: floats round once, integers wrap. -/
def laneArith (op : LaneOp) (f : Fmt) (mode : Rnd) (r : Nat) (a b c : Nat) : Nat × Nat :=
  if f.isIA then (wrapLane f (op.int (laneInt f a) (laneInt f b) (laneInt f c)), 0)
  else laneRound f mode r (op.exact (mode == .rdn) (decodeNum f a) (decodeNum f b) (decodeNum f c))

def zip3 (xs ys zs : List Nat) : List (Nat × Nat × Nat × Nat) := (xs.zip (ys.zip zs)).zipIdx.map (fun ((a, b, c), i) => (i, a, b, c))

def vArith (s : State) (op : LaneOp) (lat : Nat) (d a b : VReg) (f : Fmt) (x : Option VExt) : State :=
  let k := s.me
  s.lanes lat d f ((zip3 (vecLanes f (k.rv a)) (vecLanes f (k.rv b)) (vecLanes f (k.rv (thirdOf d x)))).map (fun (i, a, b, c) =>
    laneArith op f (rndOf x) (s.random i) a b c))

/-- vabs and vneg: the sign bit of a float, the value of an integer. -/
def absLane (f : Fmt) (a : Nat) : Nat := if f.isIA then wrapLane f (laneInt f a).natAbs else a % signBit f
def negLane (f : Fmt) (a : Nat) : Nat := if f.isIA then wrapLane f (-(laneInt f a)) else Nat.xor a (signBit f)
/-- vmin and vmax: any NaN gives the canonical NaN, -0 ranks below +0. -/
def extremeLane (f : Fmt) (largest : Bool) (a b : Nat) : Nat :=
  let x := decodeNum f a
  let y := decodeNum f b
  if f.isFloat && (isNaN x || isNaN y) then canonicalNaN f
  else if largest then (if ltRank x y then b else a) else (if ltRank y x then b else a)

/-- A vector of bits, lane by lane from one or two sources. -/
def mapLanes (s : State) (lat : Nat) (d a : VReg) (f : Fmt) (g : Nat → Nat) : State :=
  s.vresult lat d (vecOf f ((vecLanes f (s.me.rv a)).map g))
def zipLanes (s : State) (lat : Nat) (d a b : VReg) (f : Fmt) (g : Nat → Nat → Nat) : State :=
  s.vresult lat d (vecOf f (List.zipWith g (vecLanes f (s.me.rv a)) (vecLanes f (s.me.rv b))))

def execVadd (g : Guard) (d a b : VReg) (f : Fmt) (x : Option VExt) (s : State) : Outcome := .next (issue g 16 s (fun s => vArith s .add 2 d a b f x))
def execVsub (g : Guard) (d a b : VReg) (f : Fmt) (x : Option VExt) (s : State) : Outcome := .next (issue g 16 s (fun s => vArith s .sub 2 d a b f x))
def execVmul (g : Guard) (d a b : VReg) (f : Fmt) (x : Option VExt) (s : State) : Outcome := .next (issue g 40 s (fun s => vArith s .mul 4 d a b f x))
def execVfma (g : Guard) (d a b : VReg) (f : Fmt) (x : Option VExt) (s : State) : Outcome := .next (issue g 40 s (fun s => vArith s .fma 4 d a b f x))
def execVfms (g : Guard) (d a b : VReg) (f : Fmt) (x : Option VExt) (s : State) : Outcome := .next (issue g 40 s (fun s => vArith s .fms 4 d a b f x))
def execVabs (g : Guard) (d a _b : VReg) (f : Fmt) (_x : Option VExt) (s : State) : Outcome := .next (issue g 16 s (fun s => mapLanes s 2 d a f (absLane f)))
def execVneg (g : Guard) (d a _b : VReg) (f : Fmt) (_x : Option VExt) (s : State) : Outcome := .next (issue g 16 s (fun s => mapLanes s 2 d a f (negLane f)))
def execVmin (g : Guard) (d a b : VReg) (f : Fmt) (_x : Option VExt) (s : State) : Outcome := .next (issue g 16 s (fun s => zipLanes s 2 d a b f (extremeLane f false)))
def execVmax (g : Guard) (d a b : VReg) (f : Fmt) (_x : Option VExt) (s : State) : Outcome := .next (issue g 16 s (fun s => zipLanes s 2 d a b f (extremeLane f true)))

/-! Logic and shifts (R112). -/

def execVand (g : Guard) (d a b : VReg) (s : State) : Outcome := .next (issue g 16 s (fun s => s.vresult 2 d (s.me.rv a &&& s.me.rv b)))
def execVor (g : Guard) (d a b : VReg) (s : State) : Outcome := .next (issue g 16 s (fun s => s.vresult 2 d (s.me.rv a ||| s.me.rv b)))
def execVxor (g : Guard) (d a b : VReg) (s : State) : Outcome := .next (issue g 16 s (fun s => s.vresult 2 d (s.me.rv a ^^^ s.me.rv b)))
def execVshl (g : Guard) (d a b : VReg) (f : Fmt) (s : State) : Outcome :=
  .next (issue g 16 s (fun s => zipLanes s 2 d a b f (fun x n => x * 2 ^ (n % f.width) % 2 ^ f.width)))
def execVshr (g : Guard) (d a b : VReg) (f : Fmt) (s : State) : Outcome :=
  .next (issue g 16 s (fun s => zipLanes s 2 d a b f (fun x n => x / 2 ^ (n % f.width))))
def execVsra (g : Guard) (d a b : VReg) (f : Fmt) (s : State) : Outcome :=
  .next (issue g 16 s (fun s => zipLanes s 2 d a b f (fun x n => wrapLane f (laneInt f x / 2 ^ (n % f.width)))))

/-! Compares, selection, moves (R113, R114). -/

/-- A mask lane: all ones where the test holds. -/
def maskLane (f : Fmt) (b : Bool) : Nat := if b then 2 ^ f.width - 1 else 0
def vCompare (s : State) (d a b : VReg) (f : Fmt) (test : FVal → FVal → Bool) : State :=
  zipLanes s 2 d a b f (fun x y => maskLane f (test (decodeNum f x) (decodeNum f y)))

def execVcmpeq (g : Guard) (d a b : VReg) (f : Fmt) (_x : Option VExt) (s : State) : Outcome := .next (issue g 16 s (fun s => vCompare s d a b f eqNum))
def execVcmplt (g : Guard) (d a b : VReg) (f : Fmt) (_x : Option VExt) (s : State) : Outcome := .next (issue g 16 s (fun s => vCompare s d a b f ltNum))
def execVcmple (g : Guard) (d a b : VReg) (f : Fmt) (_x : Option VExt) (s : State) : Outcome :=
  .next (issue g 16 s (fun s => vCompare s d a b f (fun x y => ltNum x y || eqNum x y)))
def execVsel (g : Guard) (d a b : VReg) (f : Fmt) (x : Option VExt) (s : State) : Outcome :=
  .next (issue g 16 s (fun s =>
    let k := s.me
    s.vresult 2 d (vecOf f ((zip3 (vecLanes f (k.rv a)) (vecLanes f (k.rv b)) (vecLanes f (k.rv (thirdOf d x)))).map
      (fun (_, a, b, m) => if m != 0 then a else b)))))
def execVmov (g : Guard) (d a : VReg) (s : State) : Outcome := .next (issue g 16 s (fun s => s.vresult 2 d (s.me.rv a)))
def execVzero (g : Guard) (d : VReg) (s : State) : Outcome := .next (issue g 16 s (fun s => s.vresult 2 d 0))
def execViota (g : Guard) (d _a _b : VReg) (f : Fmt) (x : Option VExt) (s : State) : Outcome :=
  .next (issue g 16 s (fun s =>
    let base := sxNat 20 (immOf x)
    s.lanes 2 d f ((List.range f.lanes).map (fun (i : Nat) =>
      if f.isIA then (wrapLane f (base + (i : Int)), 0) else roundNum f (rndOf x) (s.random i) (intVal (base + (i : Int)))))))

/-! Conversion (R115, R116). -/

/-- conv of R115: with F = SF a copy that makes every NaN canonical. -/
def convLane (f sf : Fmt) (mode : Rnd) (ov : Bool) (r code : Nat) : Nat × Nat :=
  if f == sf then (if f.isFloat && isNaN (decodeNum f code) then canonicalNaN f else code, 0) else convertNum f sf mode ov r code

def overflowForm (x : Option VExt) : Bool := immOf x / 8 % 2 == 1

/-- vcvt: equal widths, widening part p of A, or writing part p of D. -/
def vConvert (s : State) (d a : VReg) (f : Fmt) (x : Option VExt) : State :=
  let sf := sfOf f x
  let p := immOf x % 8
  let src := vecLanes sf (s.me.rv a)
  let conv (el code : Nat) : Nat × Nat := convLane f sf (rndOf x) (overflowForm x) (s.random el) code
  if f.width ≥ sf.width then
    s.lanes 3 d f (((src.drop (p * f.lanes)).take f.lanes).zipIdx.map (fun (c, i) => conv i c))
  else
    let n := sf.lanes
    let old := vecLanes f (s.me.rv d)
    let new := src.zipIdx.map (fun (c, i) => conv (p * n + i) c)
    s.lanes 3 d f ((old.take (p * n)).map (·, 0) ++ new ++ (old.drop (p * n + n)).map (·, 0))

def vPack (s : State) (d a b : VReg) (f : Fmt) (x : Option VExt) : State :=
  let sf := sfOf f x
  s.lanes 3 d f ((vecLanes sf (s.me.rv a) ++ vecLanes sf (s.me.rv b)).zipIdx.map (fun (c, i) =>
    convLane f sf (rndOf x) (overflowForm x) (s.random i) c))

/-- Every other element from the first on. -/
def evens : List Nat → List Nat
  | [] => []
  | [a] => [a]
  | a :: _ :: rest => a :: evens rest
/-- vunpk: the overflow form changes no result (R116). -/
def vUnpack (s : State) (d a : VReg) (f : Fmt) (x : Option VExt) : State :=
  let sf := sfOf f x
  s.lanes 3 d f ((evens ((vecLanes sf (s.me.rv a)).drop (immOf x % 2))).zipIdx.map (fun (c, i) =>
    convLane f sf (rndOf x) false (s.random i) c))

def execVcvt (g : Guard) (d a _b : VReg) (f : Fmt) (x : Option VExt) (s : State) : Outcome := .next (issue g 20 s (fun s => vConvert s d a f x))
def execVpack (g : Guard) (d a b : VReg) (f : Fmt) (x : Option VExt) (s : State) : Outcome := .next (issue g 20 s (fun s => vPack s d a b f x))
def execVunpk (g : Guard) (d a _b : VReg) (f : Fmt) (x : Option VExt) (s : State) : Outcome := .next (issue g 20 s (fun s => vUnpack s d a f x))

/-! Block vectors (R117 to R119). -/

/-- A block vector: 128 elements, then the scale byte. -/
def blockVector (f : Fmt) (scale : Nat) (codes : List Nat) : Vec :=
  BitVec.ofNat 2048 (packLanes f.width codes + scale * 2 ^ (128 * f.width))
def blockScale (f : Fmt) (v : Vec) : Nat := bits v.toNat (128 * f.width) 8
def blockCodes (f : Fmt) (v : Vec) : List Nat := lanesOf f.width 128 v.toNat

def vQuantize (s : State) (d a b : VReg) (f : Fmt) (x : Option VExt) : State :=
  let sf := sfOf f x
  let codes := if sf == .f32 then vecLanes sf (s.me.rv a) ++ vecLanes sf (s.me.rv b) else vecLanes sf (s.me.rv a)
  let (scale, out, kind) := quantBlock f (rndOf x) s.random (codes.map (decodeNum sf))
  s.emit 3 (.v d (blockVector f scale out)) kind
def vDequantize (s : State) (d a : VReg) (f : Fmt) (x : Option VExt) : State :=
  let sf := sfOf f x
  let v := s.me.rv a
  let e := blockScale sf v
  let codes := if f == .f32 then ((blockCodes sf v).drop (64 * (immOf x % 2))).take 64 else blockCodes sf v
  s.lanes 3 d f (codes.zipIdx.map (fun (c, i) =>
    if e == 0xFF then (canonicalNaN f, 0) else roundNum f (rndOf x) (s.random i) (scaleNum (decodeNum sf c) ((e : Int) - 127))))

def execVquant (g : Guard) (d a b : VReg) (f : Fmt) (x : Option VExt) (s : State) : Outcome := .next (issue g 20 s (fun s => vQuantize s d a b f x))
def execVdequant (g : Guard) (d a _b : VReg) (f : Fmt) (x : Option VExt) (s : State) : Outcome := .next (issue g 20 s (fun s => vDequantize s d a f x))

/-! Reductions and scans (R101, R102, R120). -/

/-- One level of the pairwise tree. -/
def pairUp {α : Type} (f : α → α → α) : List α → List α
  | [] => []
  | [a] => [a]
  | a :: b :: rest => f a b :: pairUp f rest
/-- The root after n levels. -/
def treeFold {α : Type} (f : α → α → α) : Nat → List α → List α
  | 0, xs => xs
  | n + 1, xs => treeFold f n (pairUp f xs)

/-- A sum of the tree: FP32 after every addition, the worst event so far. -/
def sumStep (a b : FVal × Nat) : FVal × Nat :=
  let (v, k) := addF32 a.1 b.1
  (v, worseKind (worseKind a.2 b.2) k)

/-- Lane 0 of a reduction; every other bit zero. -/
def State.root (s : State) (d : VReg) (r : Nat × Nat) : State := s.emit 8 (.v d (BitVec.ofNat 2048 r.1)) r.2

def vSum (s : State) (d a : VReg) (f : Fmt) (x : Option VExt) : State :=
  let sf := sfOf f x
  let codes := vecLanes sf (s.me.rv a)
  if sf.isFA then
    let (v, k) := ((treeFold sumStep 7 (codes.map (fun c => (decodeNum sf c, 0)))).head?).getD (.fin false 0 0, 0)
    let (c, k2) := roundNum f (rndOf x) (s.random 0) v
    s.root d (c, worseKind k k2)
  else s.root d (satLane f (codes.map (laneInt sf)).sum)

/-- The extreme of a list of codes by the ranking of R101, the earlier on equal rank: its index and code. -/
def extremeOf (f : Fmt) (largest : Bool) (codes : List Nat) : Nat × Nat :=
  codes.zipIdx.foldl (fun (best : Nat × Nat) (c, i) =>
    let better := if largest then ltRank (decodeNum f best.2) (decodeNum f c) else ltRank (decodeNum f c) (decodeNum f best.2)
    if better then (i, c) else best) (0, codes.headD 0)
def vExtreme (s : State) (d a : VReg) (f : Fmt) (largest : Bool) : State :=
  let codes := vecLanes f (s.me.rv a)
  if f.isFloat && codes.any (fun c => isNaN (decodeNum f c)) then s.root d (canonicalNaN f, 0)
  else s.root d ((extremeOf f largest codes).2, 0)
def vArg (s : State) (d a : VReg) (f : Fmt) (x : Option VExt) : State :=
  let sf := sfOf f x
  let codes := vecLanes sf (s.me.rv a)
  match codes.findIdx? (fun c => sf.isFloat && isNaN (decodeNum sf c)) with
  | some i => s.root d (i, 0)
  | none => s.root d ((extremeOf sf (immOf x % 2 == 0) codes).1, 0)

/-- The running sums of a float scan, each rounded to FP32. -/
def scanFloat : FVal → List FVal → List (FVal × Nat)
  | _, [] => []
  | acc, x :: xs =>
    let (v, k) := addF32 acc x
    (v, k) :: scanFloat v xs
def scanInt : Int → List Int → List Int
  | _, [] => []
  | acc, x :: xs => (acc + x) :: scanInt (acc + x) xs
def vScan (s : State) (d a : VReg) (f : Fmt) (x : Option VExt) : State :=
  let sf := sfOf f x
  let codes := vecLanes sf (s.me.rv a)
  if sf.isFA then
    match codes.map (decodeNum sf) with
    | [] => s
    | v :: vs => s.lanes 8 d f (((v, 0) :: scanFloat v vs).zipIdx.map (fun ((y, k), i) =>
        let (c, k2) := roundNum f (rndOf x) (s.random i) y
        (c, worseKind k k2)))
  else
    let sums := scanInt 0 (codes.map (laneInt sf))
    s.lanes 8 d f ((List.range f.lanes).map (fun i => satLane f (sums.getD (min i (sf.lanes - 1)) 0)))

def execVredsum (g : Guard) (d a _b : VReg) (f : Fmt) (x : Option VExt) (s : State) : Outcome := .next (issue g 40 s (fun s => vSum s d a f x))
def execVredmax (g : Guard) (d a _b : VReg) (f : Fmt) (_x : Option VExt) (s : State) : Outcome := .next (issue g 40 s (fun s => vExtreme s d a f true))
def execVredmin (g : Guard) (d a _b : VReg) (f : Fmt) (_x : Option VExt) (s : State) : Outcome := .next (issue g 40 s (fun s => vExtreme s d a f false))
def execVredarg (g : Guard) (d a _b : VReg) (f : Fmt) (x : Option VExt) (s : State) : Outcome := .next (issue g 40 s (fun s => vArg s d a f x))
def execVscan (g : Guard) (d a _b : VReg) (f : Fmt) (x : Option VExt) (s : State) : Outcome := .next (issue g 40 s (fun s => vScan s d a f x))

/-! Permutations (R121). -/

def vPermute (s : State) (d : VReg) (f : Fmt) (lane : Nat → Nat) : State :=
  s.vresult 2 d (vecOf f ((List.range f.lanes).map lane))

def execVbcast (g : Guard) (d a _b : VReg) (f : Fmt) (x : Option VExt) (s : State) : Outcome :=
  .next (issue g 16 s (fun s => let v := vecLanes f (s.me.rv a); vPermute s d f (fun _ => v.getD (immOf x) 0)))
def execVins (g : Guard) (d a _b : VReg) (f : Fmt) (x : Option VExt) (s : State) : Outcome :=
  .next (issue g 16 s (fun s =>
    let v := vecLanes f (s.me.rv a)
    let old := vecLanes f (s.me.rv d)
    vPermute s d f (fun i => if i == immOf x then v.getD 0 0 else old.getD i 0)))
def execVext (g : Guard) (d a _b : VReg) (f : Fmt) (x : Option VExt) (s : State) : Outcome :=
  .next (issue g 16 s (fun s => let v := vecLanes f (s.me.rv a); vPermute s d f (fun i => if i == 0 then v.getD (immOf x) 0 else 0)))
def execVperm (g : Guard) (d a b : VReg) (f : Fmt) (_x : Option VExt) (s : State) : Outcome :=
  .next (issue g 16 s (fun s =>
    let v := vecLanes f (s.me.rv a)
    let m := vecLanes f (s.me.rv b)
    vPermute s d f (fun i => v.getD (m.getD i 0) 0)))
def execVslide (g : Guard) (d a b : VReg) (f : Fmt) (x : Option VExt) (s : State) : Outcome :=
  .next (issue g 16 s (fun s =>
    let v := vecLanes f (s.me.rv a) ++ vecLanes f (s.me.rv b)
    vPermute s d f (fun i => v.getD (i + immOf x) 0)))
def execVrev (g : Guard) (d a _b : VReg) (f : Fmt) (_x : Option VExt) (s : State) : Outcome :=
  .next (issue g 16 s (fun s => let v := vecLanes f (s.me.rv a); vPermute s d f (fun i => v.getD (f.lanes - 1 - i) 0)))

end Sys2Proof.Machine
end

