-- ==== Sys2Proof/Machine/Tables.lean ====
section
/-! DEFINITION. The table engine (spec/06 R122 to R126). -/

namespace Sys2Proof.Machine

/-- vtld (R123): 12 elements of 256 bytes, read over twelve cycles, the first as it fires (log entry 48); the room comes back in the
twelfth cycle after firing, the table is replaced in the sixteenth. -/
def tableLoad (s : State) (t : BitVec 2) (n : CbReg) : State :=
  let b := s.me.cbReg n.toNat
  if b.conf && b.esz != 8 then s.trap (cbTrap 4)
  else s.consuming n.toNat 12 (fun u b =>
    if s.me.elementsPoisoned b 12 then s.trap (poisonElem s.me b 12)
    else (u.emit 12 (.room n.toNat b.gen 12)).emit 1 (.tread t.toNat ((List.range 11).map (fun i => b.elemAddr (b.con + i + 1)))
      (wordsOf (s.me.element b b.con).1)))

/-- vtcfg (R124): the constant is lane 0 of vA, read now. -/
def tableConfig (s : State) (t : BitVec 2) (a : VReg) (lmode umode : TailMode) (lo : BitVec 16) (q : BitVec 4) : State :=
  s.emit 2 (.tcfg t.toNat lo q lmode umode (if lmode == .const || umode == .const then (s.me.rv a).setWidth 32 else 0))

/-- Coefficient c of segment j: 0 to 2. -/
def Table.coeff (t : Table) (c j : Nat) : FVal := decodeNum .f32 (mget (0 : W32) t.coeffs (256 * c + j)).toNat
def Table.exp (t : Table) : Int := t.q.toInt
def Table.low (t : Table) : FVal := decodeNum .bf16 t.lo.toNat
/-- hi = lo + 256 w. -/
def Table.high (t : Table) : FVal := (addNum false t.low (.fin false 256 t.exp)).1

/-- An event of a fused step of vtab: only invalid and overflow count (R125). -/
def fusedKind (k : Nat) : Nat := if k == 1 || k == 2 then k else 0

/-- The polynomial of a segment: two fused steps rounded to FP32, with their events. -/
def Table.poly (t : Table) (j : Nat) (u : FVal) : FVal × Nat :=
  let (y1, k1) := laneRound .f32 .rne 0 (fmaNum false u (t.coeff 2 j) (t.coeff 1 j))
  let (y, k2) := laneRound .f32 .rne 0 (fmaNum false u (decodeNum .f32 y1) (t.coeff 0 j))
  (decodeNum .f32 y, worseKind (fusedKind k1) (fusedKind k2))

/-- The segment and the fraction of a value in the range: floor and rest of (x - lo) / w. -/
def Table.place (t : Table) (x : FVal) : Nat × FVal :=
  match scaleNum (addNum false x (negNum t.low)).1 (-t.exp) with
  | .fin _ m e =>
    let j := if e ≥ 0 then m * pow2 e.toNat else m / pow2 (-e).toNat
    let rest := if e ≥ 0 then 0 else m % pow2 (-e).toNat
    (j, decodeNum .f32 (roundNum .f32 .rtz 0 (.fin false rest e)).1)
  | _ => (0, .nan)

def Table.tail (t : Table) (mode : TailMode) (upper : Bool) (f : Fmt) (rnd : Rnd) (r : Nat) (x : FVal) : Nat :=
  match mode with
  | .clamp => (roundNum f rnd r (if upper then (t.poly 255 (.fin false 1 0)).1 else t.coeff 0 0)).1
  | .ident => (roundNum f rnd r x).1
  | .zero => 0
  | .const => (roundNum f rnd r (decodeNum .f32 t.k.toNat)).1

/-- One lane of vtab (R125): only the path inside the range records events. -/
def Table.lane (t : Table) (f : Fmt) (rnd : Rnd) (r : Nat) (x : FVal) : Nat × Nat :=
  if isNaN x then (canonicalNaN f, 0)
  else if ltNum x t.low then (t.tail t.lmode false f rnd r x, 0)
  else if !ltNum x t.high then (t.tail t.umode true f rnd r x, 0)
  else
    let (j, u) := t.place x
    let (y, k) := t.poly j u
    let (c, k2) := roundNum f rnd r y
    (c, worseKind k k2)

/-- A vector of free values. -/
def State.freshVec (s : State) : Nat → Vec × State
  | 0 => (0, s)
  | n + 1 =>
    let (w, s1) := s.fresh
    let (v, s2) := s1.freshVec n
    (v * BitVec.ofNat 2048 (2 ^ 64) + w.setWidth 2048, s2)

/-- vtab (R125). A table whose lo is no number has no stated result: the lanes are then free values. -/
def tableLookup (s : State) (d a b : VReg) (f : Fmt) (x : Option VExt) : State :=
  let sf := sfOf f x
  let t := s.me.table (b.toNat % 4)
  if isNaN t.low || isInf t.low then
    let (v, s1) := s.freshVec 32
    s1.vresult 6 d v
  else s.lanes 6 d f ((vecLanes sf (s.me.rv a)).zipIdx.map (fun (c, i) => t.lane f (rndOf x) (s.random i) (decodeNum sf c)))

def execVtld (g : Guard) (t : BitVec 2) (n : CbReg) (s : State) : Outcome := .next (issue g 48 s (fun s => tableLoad s t n))
def execVtcfg (g : Guard) (t : BitVec 2) (a : VReg) (lmode umode : TailMode) (lo : BitVec 16) (q : BitVec 4) (s : State) : Outcome :=
  .next (issue g 16 s (fun s => tableConfig s t a lmode umode lo q))
def execVtab (g : Guard) (d a b : VReg) (f : Fmt) (x : Option VExt) (s : State) : Outcome := .next (issue g 48 s (fun s => tableLookup s d a b f x))

end Sys2Proof.Machine
end

