-- ==== Sys2Proof/Machine/Issue.lean ====
section
/-! DEFINITION. The meaning of an operation that a slot issues or a bank unit runs, for the cycle of a core (Cycle) and the
turn of a bank unit: the meanings of the syllables and moves again, which Dispatch names one by one. -/

namespace Sys2Proof.Machine

/-- The issue of a syllable in its slot, or a move; an event is no operation of a slot and does nothing. -/
def issueOp (i : Instr) (s : State) : Outcome :=
  match i with
  | .nop => execNop s
  | .idle => execIdle s
  | .add g d a b k => execAdd g d a b k s
  | .sub g d a b k => execSub g d a b k s
  | .mul g d a b k => execMul g d a b k s
  | .mulhi g d a b k => execMulhi g d a b k s
  | .mulhz g d a b k => execMulhz g d a b k s
  | .div g d a b k => execDiv g d a b k s
  | .divz g d a b k => execDivz g d a b k s
  | .rem g d a b k => execRem g d a b k s
  | .remz g d a b k => execRemz g d a b k s
  | .and g d a b => execAnd g d a b s
  | .or g d a b => execOr g d a b s
  | .xor g d a b => execXor g d a b s
  | .andn g d a b => execAndn g d a b s
  | .shl g d a b k => execShl g d a b k s
  | .shr g d a b k => execShr g d a b k s
  | .sra g d a b k => execSra g d a b k s
  | .rol g d a b k => execRol g d a b k s
  | .min g d a b k => execMin g d a b k s
  | .max g d a b k => execMax g d a b k s
  | .minz g d a b k => execMinz g d a b k s
  | .maxz g d a b k => execMaxz g d a b k s
  | .addi g d a m => execAddi g d a m s
  | .andi g d a m => execAndi g d a m s
  | .ori g d a m => execOri g d a m s
  | .xori g d a m => execXori g d a m s
  | .shli g d a m => execShli g d a m s
  | .shri g d a m => execShri g d a m s
  | .srai g d a m => execSrai g d a m s
  | .addiW g d a m => execAddiW g d a m s
  | .shliW g d a i => execShliW g d a i s
  | .shriW g d a i => execShriW g d a i s
  | .sraiW g d a i => execSraiW g d a i s
  | .cmpeq g q q2 a o => execCmpeq g q q2 a o s
  | .cmpne g q q2 a o => execCmpne g q q2 a o s
  | .cmplt g q q2 a o => execCmplt g q q2 a o s
  | .cmple g q q2 a o => execCmple g q q2 a o s
  | .cmpltz g q q2 a o => execCmpltz g q q2 a o s
  | .cmplez g q q2 a o => execCmplez g q q2 a o s
  | .cmpeqW g q q2 a o => execCmpeqW g q q2 a o s
  | .cmpneW g q q2 a o => execCmpneW g q q2 a o s
  | .cmpltW g q q2 a o => execCmpltW g q q2 a o s
  | .cmpleW g q q2 a o => execCmpleW g q q2 a o s
  | .cmpltzW g q q2 a o => execCmpltzW g q q2 a o s
  | .cmplezW g q q2 a o => execCmplezW g q q2 a o s
  | .pand g q pa pb na nb => execPand g q pa pb na nb s
  | .por g q pa pb na nb => execPor g q pa pb na nb s
  | .pxor g q pa pb na nb => execPxor g q pa pb na nb s
  | .pnot g q pa na => execPnot g q pa na s
  | .pset g a b => execPset g a b s
  | .pget g d => execPget g d s
  | .clz g d a k => execClz g d a k s
  | .ctz g d a k => execCtz g d a k s
  | .popc g d a k => execPopc g d a k s
  | .bext g d a b => execBext g d a b s
  | .bins g d a b => execBins g d a b s
  | .sext g d a i => execSext g d a i s
  | .zext g d a i => execZext g d a i s
  | .mov g d a => execMov g d a s
  | .li g d m => execLi g d m s
  | .lih g d a m => execLih g d a m s
  | .sysr g r n => execSysr g r n s
  | .sysw g r n => execSysw g r n s
  | .sysx g r n => execSysx g r n s
  | .b g o => execB g o s
  | .bl g o => execBl g o s
  | .br g a => execBr g a s
  | .call g d a => execCall g d a s
  | .ret g a => execRet g a s
  | .disp g a b => execDisp g a b s
  | .loop g l c e => execLoop g l c e s
  | .loopi g l c e => execLoopi g l c e s
  | .yield g => execYield g s
  | .susp g => execSusp g s
  | .tend g => execTend g s
  | .halt g => execHalt g s
  | .iwait g d i => execIwait g d i s
  | .trap g i => execTrap g i s
  | .brk g i => execBrk g i s
  | .eret g => execEret g s
  | .ldb g d h o t => execLdb g d h o t s
  | .ldh g d h o t => execLdh g d h o t s
  | .ldw g d h o t => execLdw g d h o t s
  | .ldd g d h o t => execLdd g d h o t s
  | .ldbz g d h o t => execLdbz g d h o t s
  | .ldhz g d h o t => execLdhz g d h o t s
  | .ldwz g d h o t => execLdwz g d h o t s
  | .stb g d h o t => execStb g d h o t s
  | .sth g d h o t => execSth g d h o t s
  | .stw g d h o t => execStw g d h o t s
  | .std g d h o t => execStd g d h o t s
  | .vld g d h o t => execVld g d h o t s
  | .vst g d h o t => execVst g d h o t s
  | .vldb g d h o t => execVldb g d h o t s
  | .cbput g d n => execCbput g d n s
  | .cbget g d n => execCbget g d n s
  | .ldc g d h o t => execLdc g d h o t s
  | .stc g d h o t => execStc g d h o t s
  | .cbadvp g d o => execCbadvp g d o s
  | .cbadvc g d o => execCbadvc g d o s
  | .cbcfg g d o t => execCbcfg g d o t s
  | .wld4 g d h o t => execWld4 g d h o t s
  | .wld8 g d h o t => execWld8 g d h o t s
  | .ldfe g d h o t => execLdfe g d h o t s
  | .stef g d h o t => execStef g d h o t s
  | .ldff g d h o t => execLdff g d h o t s
  | .stff g d h o t => execStff g d h o t s
  | .feset g h o t => execFeset g h o t s
  | .feclr g h o t => execFeclr g h o t s
  | .ldacq g d h o w x => execLdacq g d h o w x s
  | .strel g d h o w x => execStrel g d h o w x s
  | .fence g w => execFence g w s
  | .amoaddW g d h o w q x => execAmoaddW g d h o w q x s
  | .amoaddD g d h o w q x => execAmoaddD g d h o w q x s
  | .amoandW g d h o w q x => execAmoandW g d h o w q x s
  | .amoandD g d h o w q x => execAmoandD g d h o w q x s
  | .amoorW g d h o w q x => execAmoorW g d h o w q x s
  | .amoorD g d h o w q x => execAmoorD g d h o w q x s
  | .amoxorW g d h o w q x => execAmoxorW g d h o w q x s
  | .amoxorD g d h o w q x => execAmoxorD g d h o w q x s
  | .amominW g d h o w q x => execAmominW g d h o w q x s
  | .amominD g d h o w q x => execAmominD g d h o w q x s
  | .amomaxW g d h o w q x => execAmomaxW g d h o w q x s
  | .amomaxD g d h o w q x => execAmomaxD g d h o w q x s
  | .amominzW g d h o w q x => execAmominzW g d h o w q x s
  | .amominzD g d h o w q x => execAmominzD g d h o w q x s
  | .amomaxzW g d h o w q x => execAmomaxzW g d h o w q x s
  | .amomaxzD g d h o w q x => execAmomaxzD g d h o w q x s
  | .amoswpW g d h o w q x => execAmoswpW g d h o w q x s
  | .amoswpD g d h o w q x => execAmoswpD g d h o w q x s
  | .amocasW g d h o w q x => execAmocasW g d h o w q x s
  | .amocasD g d h o w q x => execAmocasD g d h o w q x s
  | .amofaddW g d h o w q x => execAmofaddW g d h o w q x s
  | .tktwait g d h o => execTktwait g d h o s
  | .tktdone g h o => execTktdone g h o s
  | .xlat g d a kind => execXlat g d a kind s
  | .hinv g d => execHinv g d s
  | .hget g d a sel => execHget g d a sel s
  | .hchk g d a => execHchk g d a s
  | .scld g d h o w => execScld g d h o w s
  | .scst g d h o w => execScst g d h o w s
  | .scaddW g d h o w => execScaddW g d h o w s
  | .scaddD g d h o w => execScaddD g d h o w s
  | .wbinv g h o => execWbinv g h o s
  | .pfl2 g h o => execPfl2 g h o s
  | .vadd g d a b f x => execVadd g d a b f x s
  | .vsub g d a b f x => execVsub g d a b f x s
  | .vmul g d a b f x => execVmul g d a b f x s
  | .vfma g d a b f x => execVfma g d a b f x s
  | .vfms g d a b f x => execVfms g d a b f x s
  | .vabs g d a b f x => execVabs g d a b f x s
  | .vneg g d a b f x => execVneg g d a b f x s
  | .vmin g d a b f x => execVmin g d a b f x s
  | .vmax g d a b f x => execVmax g d a b f x s
  | .vand g d a b => execVand g d a b s
  | .vor g d a b => execVor g d a b s
  | .vxor g d a b => execVxor g d a b s
  | .vshl g d a b f => execVshl g d a b f s
  | .vshr g d a b f => execVshr g d a b f s
  | .vsra g d a b f => execVsra g d a b f s
  | .vcmpeq g d a b f x => execVcmpeq g d a b f x s
  | .vcmplt g d a b f x => execVcmplt g d a b f x s
  | .vcmple g d a b f x => execVcmple g d a b f x s
  | .vsel g d a b f x => execVsel g d a b f x s
  | .vmov g d a => execVmov g d a s
  | .vzero g d => execVzero g d s
  | .viota g d a b f x => execViota g d a b f x s
  | .vcvt g d a b f x => execVcvt g d a b f x s
  | .vpack g d a b f x => execVpack g d a b f x s
  | .vunpk g d a b f x => execVunpk g d a b f x s
  | .vquant g d a b f x => execVquant g d a b f x s
  | .vdequant g d a b f x => execVdequant g d a b f x s
  | .vtld g t n => execVtld g t n s
  | .vtcfg g t a lmode umode lo q => execVtcfg g t a lmode umode lo q s
  | .vtab g d a b f x => execVtab g d a b f x s
  | .vredsum g d a b f x => execVredsum g d a b f x s
  | .vredmax g d a b f x => execVredmax g d a b f x s
  | .vredmin g d a b f x => execVredmin g d a b f x s
  | .vredarg g d a b f x => execVredarg g d a b f x s
  | .vscan g d a b f x => execVscan g d a b f x s
  | .vbcast g d a b f x => execVbcast g d a b f x s
  | .vins g d a b f x => execVins g d a b f x s
  | .vext g d a b f x => execVext g d a b f x s
  | .vperm g d a b f x => execVperm g d a b f x s
  | .vslide g d a b f x => execVslide g d a b f x s
  | .vrev g d a b f x => execVrev g d a b f x s
  | .mpush g m ss => execMpush g m ss s
  | .mstep g m ss => execMstep g m ss s
  | .macc g m ss y => execMacc g m ss y s
  | .mdrain g m ss y => execMdrain g m ss y s
  | .mclr g m ss => execMclr g m ss s
  | .mfill g m ss y => execMfill g m ss y s
  | .mcfg g scb af acc dcb df rnd => execMcfg g scb af acc dcb df rnd s
  | .mmode g rank => execMmode g rank s
  | .mrowReg g a => execMrowReg g a s
  | .mrowImm g k => execMrowImm g k s
  | .tbind g t h o excl => execTbind g t h o excl s
  | .tunbind g t => execTunbind g t s
  | .tpin g t => execTpin g t s
  | .tunpin g t => execTunpin g t s
  | .tpf g h o => execTpf g h o s
  | .tinvAddr g h o => execTinvAddr g h o s
  | .tinvBinding g t => execTinvBinding g t s
  | .twst g t o v => execTwst g t o v s
  | .twstRow g t o n => execTwstRow g t o n s
  | .tstat g t d => execTstat g t d s
  | .cpy g t a b fill x => execCpy g t a b fill x s
  | .cpy2 g t a => execCpy2 g t a s
  | .gath g t a b k x => execGath g t a b k x s
  | .scat g t a b k x => execScat g t a b k x s
  | .kvw g t a x => execKvw g t a x s
  | .cpyr g t a => execCpyr g t a s
  | .cred g t a => execCred g t a s
  | .cgath g t a => execCgath g t a s
  | .bul g t a dup x => execBul g t a dup x s
  | .tlwait g t a q => execTlwait g t a q s
  | .tlget g t d sel => execTlget g t d sel s
  | .tlsig g t a => execTlsig g t a s
  | .gjoin g a b => execGjoin g a b s
  | .gleave g a => execGleave g a s
  | .gbar g a q => execGbar g a q s
  | .gwait g d q a => execGwait g d q a s
  | .tspawn g a => execTspawn g a s
  | .tdec g a => execTdec g a s
  | .tarm g a b => execTarm g a b s
  | .moveNull src g => execMoveNull src g s
  | .moveRowk src g => execMoveRowk src g s
  | .moveFmaA src g => execMoveFmaA src g s
  | .moveFmaT src g => execMoveFmaT src g s
  | .moveAcc src g => execMoveAcc src g s
  | .moveOut src g => execMoveOut src g s
  | .moveLcSet src g => execMoveLcSet src g s
  | .moveLcT src g => execMoveLcT src g s
  | .moveBr src g => execMoveBr src g s
  | .moveEnd src g => execMoveEnd src g s
  | .moveAcc1 src g => execMoveAcc1 src g s
  | .moveFmaT1 src g => execMoveFmaT1 src g s
  | .moveAddA src g => execMoveAddA src g s
  | .moveAddT src g => execMoveAddT src g s
  | .moveMulA src g => execMoveMulA src g s
  | .moveMulT src g => execMoveMulT src g s
  | .moveCmpA src g => execMoveCmpA src g s
  | .moveCmpT src g => execMoveCmpT src g s
  | .bundleDispatch => .next s
  | .bundleIssue => .next s
  | .syncMet => .next s
  | .resultLanding => .next s
  | .cbFire => .next s
  | .cbCountRise => .next s
  | .replyArrival => .next s
  | .segmentExpansionComplete => .next s
  | .segmentRefillComplete => .next s
  | .tableSwap => .next s
  | .xlatComplete => .next s
  | .pginvWrite => .next s
  | .invalidationComplete => .next s
  | .waymaskWrite => .next s
  | .felWrite => .next s
  | .mb7Write => .next s
  | .mailboxWrite => .next s
  | .registerWrite => .next s
  | .tileFillComplete => .next s
  | .replicaCopyComplete => .next s
  | .prefetchFillStart => .next s
  | .scrub => .next s
  | .uncorrectableError => .next s
  | .preemptionRequest => .next s
  | .preemption => .next s
  | .preemptionOverdue => .next s
  | .continuationPickup => .next s
  | .continuationKill => .next s
  | .readyAgeing => .next s
  | .timeSliceSwitch => .next s
  | .launchQueueTake => .next s
  | .graphReplayStart => .next s
  | .graphReplayComplete => .next s
  | .nodeDecrement => .next s
  | .nodeArm => .next s
  | .engineCommandStart => .next s
  | .commandRetire => .next s
  | .remoteWindowWrite => .next s
  | .collectiveResult => .next s
  | .migration => .next s
  | .migrationPagePull => .next s
  | .bankUnitAccept => .next s
  | .bankUnitResult => .next s
  | .bankRequestPromotion => .next s
  | .homeApply => .next s
  | .hotLineWithdraw => .next s
  | .switchCombine => .next s
  | .combineHoldExpiry => .next s
  | .combinedReplySplit => .next s
  | .sailWheelApply => .next s
  | .rateLimitedSend => .next s
  | .fabricLinkFailure => .next s
  | .supplySag => .next s
  | .timerMatch => .next s
  | .faultReport => .next s
  | .bhSchedStop => .next s
  | .bhPreempt => .next s
  | .bhQuiesceAbandon => .next s
  | .quiesceComplete => .next s
  | .sluiceClose => .next s
  | .sluiceCloseComplete => .next s
  | .retentionSave => .next s
  | .retentionSaveComplete => .next s
  | .clockGate => .next s
  | .clockStopped => .next s
  | .railOff => .next s
  | .railDown => .next s
  | .railOn => .next s
  | .railUp => .next s
  | .clockUngate => .next s
  | .pllLock => .next s
  | .bhWipe => .next s
  | .wipeComplete => .next s
  | .retentionRestore => .next s
  | .retentionRestoreComplete => .next s
  | .sluiceOpen => .next s
  | .sluiceOpenComplete => .next s
  | .bhSchedResume => .next s
  | .bhWakeWrite => .next s
  | .coreRestart => .next s
  | .pwrlimWrite => .next s
  | .ptabWrite => .next s
  | .contextDescriptorWrite => .next s
  | .bhReset => .next s
  | .gkeyDestroy => .next s
  | .lifecycleRequest => .next s
  | .moduleReset => .next s
  | .lifetimeCounterCommit => .next s
  | .vfWake => .next s
  | .vfHinv => .next s
  | .consentSubmit => .next s
  | .attestationRequest => .next s
  | .atsInvalidation => .next s
  | .vfFlr => .next s
  | .pfFlr => .next s
  | .peerRequest => .next s
  | .scairHeartbeat => .next s
  | .scairXoff => .next s
  | .scairXon => .next s
  | .scairReplayRequest => .next s
  | .scairLinkDown => .next s
  | .scairFlitCrcFailure => .next s
  | .orderlyPowerDown => .next s
  | .migrationBackgroundPush => .next s
  | .debugFreezeResume => .next s

end Sys2Proof.Machine
end

