-- ==== Sys2Proof/Machine/Cycle.lean ====
section
/-! DEFINITION. A cycle of a core (spec/02 R16 to R39, R33, R34): landing, the segment it runs, dispatch, the issue of the
eight slots, the power window, and what ends a cycle. -/

namespace Sys2Proof.Machine

/-! Segments (R33, R34). -/

/-- A core asks for a page of code that a migration has still to pull (R346). -/
def State.pullCode (s : State) (c page : Nat) : State := s.pendOnce .migrationPagePull { unit := s.ctxAt c, idx := page, flag := true }
/-- The prefetch engine: a cycle of the expansion, which ends with the segment in the other half of the loop buffer. R34 gives
the 40 cycles and not the one in which the bytes are read: here the last (DESIGN CHOICE, log entry 92), which waits for a page that a
migration pulls. -/
def expandStep (s : State) (c : Nat) : State :=
  let k := s.core c
  let page := if k.expandLeft == 1 then k.other.bind (fun o => s.codePage (s.ctxAt c) o.head (s.rootOf c)) else none
  if k.expandLeft == 0 then s
  else if page.isSome then s.pullCode c (page.getD 0)
  else
    let k1 := { k with expandLeft := k.expandLeft - 1 }
    if k1.expandLeft == 0 then
      (match k.other with
       | some o =>
         let g := s.readSegment (s.ctxAt c) o.head (s.rootOf c) (some (bulkOf c))
         (s.setCore c { k1 with other := some g }).readingCode (s.ctxAt c) (bulkOf c) g (s.rootOf c)
       | none => s.setCore c k1)
    else s.setCore c k1

/-- A refill has ended: its segment is read (log entry 92), once a migration has pulled its pages, and control stands at its target. -/
def refillStep (s : State) (c : Nat) : State :=
  let k := s.core c
  match k.refillTo with
  | some (head, target) =>
    if k.refill != 0 then s
    else match s.codePage (s.ctxAt c) head (s.rootOf c) with
      | some page => s.pullCode c page
      | none =>
        let g := s.readSegment (s.ctxAt c) head (s.rootOf c) (some (bulkOf c))
        (s.setCore c { k with seg := some g, refillTo := none, pc := target }).readingCode (s.ctxAt c) (bulkOf c) g (s.rootOf c)
  | none => s

/-- The first bundle of a segment starts to issue: the other half begins to expand HINT, or NEXT. -/
def startExpansion (k : Core) (g : Seg) : Core :=
  let next := if g.hint != 0 then g.hint else g.next
  if k.other.isSome || next == 0 then k
  else { k with other := some { head := next, next := 0, hint := 0, words := [], bad := 0 }, expandLeft := 40 }

/-! Dispatch (R25, R56 to R59, R272). -/

def Core.slotNext (k : Core) (i : Nat) : Nat := (k.slot i).next
/-- The slot furthest behind, and the one furthest ahead. -/
def Core.minNext (k : Core) : Nat := k.slots.foldl (fun m sl => min m sl.next) k.nextIdx
def Core.maxNext (k : Core) : Nat := k.slots.foldl (fun m sl => max m sl.next) 0
/-- Every slot has completed its queued issues. -/
def Core.caughtUp (k : Core) : Bool := k.slots.all (fun sl => k.nextIdx ≤ sl.next)

/-- What a sticky slot would re-issue in the bundle to be dispatched: the last operation installed before it. -/
def Core.installed (k : Core) (i : Nat) : Option Instr :=
  match (k.issues.reverse.findSome? (fun q => if q.first then (q.syls.find? (fun y => y.1 == i)).map (·.2) else none)) with
  | some op => some op
  | none => (k.slot i).op

/-- A trap found at dispatch: it is taken once every slot has completed its queued issues (R59). -/
def dispatchTrap (s : State) (c : Nat) (t : TrapRec) : State :=
  if (s.core c).caughtUp then takeTrap t s else s.modCore c (fun k => { k with drain := .illegal t })

/-- ILB for the first bundle of a malformed segment that would issue: its slots' causes, and BCAUSE 2, or the lower 1 where its header has
a bit of 6:0 (R56, R59). -/
def segmentIlb (check : Seg → Bundle → Except Word (List (Nat × Instr))) (g : Seg) (pc : Nat) : Word :=
  if pc < g.first || g.stop ≤ pc then ilbWord 2 []
  else match check { g with bad := 0 } (g.bundleAt pc) with
    | .error w => wput w 44 4 (if wbits w 44 4 == 1 then 1 else 2)
    | .ok _ => ilbWord 2 []
/-- The trap of a segment that cannot be used (R33, R76); ilb is that of a malformed one. -/
def segmentTrap (g : Seg) (pc : Nat) (ilb : Word) : TrapRec :=
  match g.bad with
  | 1 => { code := 1, cause := 0, res := 3, adr := g.head, ilb := ilb }
  | 2 => { code := 2, cause := 1, res := 3, adr := g.head, va := g.badVa }
  | 3 => { code := 2, cause := 2, res := 3, adr := g.head, va := g.badVa }
  | 4 => { code := 2, cause := 3, res := 3, adr := g.head }
  | _ => { code := 1, cause := 0, res := 3, adr := pc, ilb := ilbWord 3 [] }

/-- Whether a pending pre-emption may be taken (R272, R333). -/
def Core.mayPreempt (k : Core) : Bool :=
  wbit (k.sysReg 9) 0 && !k.svc && k.frozen.isNone && (match k.running with | some r => r.frame != 0 | none => false)

/-- The gbar or gwait of EN that stalls at the first issue of a bundle that is a safe point (R272), while a request may be
taken: its address. Other slots may have gone ahead of it (log entry 38). -/
def stalledGroup (s : State) (c : Nat) : Option Nat :=
  let k := s.core c
  let sl := k.slot 6
  match k.issues.find? (fun q => q.idx == sl.next) with
  | some q =>
    let op := (q.syls.find? (fun y => y.1 == 6)).map (·.2)
    let group := match op with | some (.gbar _ _ _) => true | some (.gwait _ _ _ _) => true | _ => false
    if group && q.first && sl.waiting.isSome && sl.reply.isNone && s.isSafe k.partOf q.adr q.safe && k.mayPreempt then some q.adr else none
  | none => none

/-- The check of the bundle that would be dispatched next at the core's pc (R56 to R59). -/
def checkNext (s : State) (c : Nat) (g : Seg) (b : Bundle) : Except Word (List (Nat × Instr)) :=
  let k := s.core c
  let re := [2, 3, 4, 5, 6].filterMap (fun i => (k.installed i).map (fun op => (i, op)))
  checkBundle (isMgmt c) k.svc (s.isSafe k.partOf k.pc b.safe && !k.svc) k.cbReg re g k.pc b

/-- A bundle that has not been dispatched yet is the next one (R21, R25): the check before its first issue (R59), then one issue in the
slots' queues. Where control may leave at its end, dispatch goes on once slot BR has passed its last issue, whether or not it holds an
operation of BR (DESIGN CHOICE, log entry 27). -/
def dispatchBundle (s : State) (c : Nat) (g : Seg) : State :=
  let k := s.core c
  let b := g.bundleAt k.pc
  let safe := s.isSafe k.partOf k.pc b.safe && !k.svc
  let first := k.rptK == 0
  let last := k.rptK == b.rpt
  if first && safe && k.mayPreempt then s.setCore c { k with drain := .preempt k.pc }
  else if first && safe && k.mark.armed && k.mark.commit < 8 * k.nextOrd then commitGated s c (8 * k.nextOrd)
  else match (if first then checkNext s c g b else .ok b.operations) with
    | .error ilb => dispatchTrap s c { code := 1, cause := 0, res := 3, adr := k.pc, ilb := ilb }
    | .ok syls =>
      let fall := g.fall k.pc b
      let q : Issue := { idx := k.nextIdx, ord := k.nextOrd, adr := k.pc, fall := fall, syls := syls, sync := b.sync, first := first, last := last,
                         mark := b.mark && !k.svc, safe := b.safe && !k.svc }
      let ends := b.syls.any (fun y => y.1 == 7) || b.segend || k.loops.any (fun l => l.active && l.last == k.pc)
      s.setCore c (startExpansion { k with
        issues := k.issues ++ [q], nextIdx := k.nextIdx + 1, nextOrd := k.nextOrd + 1
        brWait := if last && ends then some q.idx else none
        pc := if last then fall else k.pc, rptK := if last then 0 else k.rptK + 1 } g)

/-- Dispatch in this cycle: only when the slot furthest ahead needs the next issue, no more than 16 issues ahead of the
slot furthest behind, and no transfer, drain or refill is outstanding. -/
def dispatchStage (s : State) (c : Nat) : State :=
  let k := s.core c
  match k.drain with
  | .illegal t => if k.caughtUp then takeTrap t (s.setCore c { k with drain := .none }) else s
  | .none =>
    if k.brWait.isSome || k.refill != 0 || k.refillTo.isSome || k.maxNext < k.nextIdx || k.nextIdx ≥ k.minNext + 16 || (stalledGroup s c).isSome then s
    else match k.seg with
      | none => s
      | some g =>
        if g.bad != 0 || !g.holds k.pc then dispatchTrap s c (segmentTrap g k.pc (segmentIlb (checkNext s c) g k.pc))
        else match (if !k.svc && k.pc == k.mark.adr then k.mark.poisoned else []) with
          | f :: rest =>
            takeTrap { code := 5, cause := 1, res := 0, slot := f.slot, adr := f.adr, va := f.va, hnd := f.hnd, gen := f.gen }
              (s.setCore c { k with mark := { k.mark with poisoned := rest } })
          | [] => dispatchBundle s c g
  | _ => s

/-! The issue of the slots (R20 to R28). -/

/-- The slots that wait for each other at an issue (R21, R27). -/
def Issue.synced (q : Issue) : List Nat :=
  if q.mark then [0, 1, 2, 3, 4, 5, 6, 7] else if q.first then liveBits q.sync 8 else []
/-- Whether slot i stalls by reason 6 or 7 of R25, because of where the other slots are. -/
def Core.heldBack (k : Core) (i : Nat) (q : Issue) : Bool :=
  (q.synced.contains i && !q.synced.all (fun j => q.idx ≤ k.slotNext j)) || k.slotNext i ≥ k.minNext + 16

/-- The slot after an issue: its clock and place advance; an installed operation latches its address offset, once: one that
waits for a reply keeps the offset that its request was sent with (R22). -/
def SlotSt.after (sl : SlotSt) (k : Core) (i : Nat) (op : Instr) (install : Bool) : SlotSt :=
  { sl with
    next := sl.next + 1, clk := sl.clk + 1
    op := if 2 ≤ i && i ≤ 6 then some op else sl.op
    a0 := if install then (if sl.waiting.isSome then sl.sent else k.rs (addressReg op)) else sl.a0
    k := if install then 0 else (sl.k + 1) % 2 ^ 32 }

/-- Slot i of the core under the step takes its next issue, if it has one and does not wait for the other slots as they
stood at the start of the cycle. now tells what came of it. -/
def issueSlot (s : State) (start : Core) (i : Nat) : State :=
  let c := s.cur
  let k := s.core c
  let s0 : State := { s with now := {} }
  match k.issueAt i with
  | none => s0
  | some q =>
    if start.heldBack i q then s0
    else
      let sl := k.slot i
      match q.operation i sl with
      | none => s0.setCore c (k.setSlot i { sl with next := sl.next + 1, clk := sl.clk + 1 })
      | some (op, install) =>
        let sl1 := sl.after k i op install
        let skip := k.skipSlots.contains i
        let now : Now := { slot := i, adr := q.adr, fall := q.fall, idx := q.idx, seq := q.ord * 8 + i, install := install, last := q.last,
                           safe := q.safe, skip := skip, clk := sl.clk, a0 := sl1.a0, k := sl1.k }
        let s1 := ({ s with now := now } : State).setCore c { k.setSlot i sl1 with skipSlots := k.skipSlots.filter (· != i) }
        match issueOp op s1 with
        | .next t =>
          if t.now.stalled then
            t.modCore c (fun y => y.modSlot i (fun z => { sl with waiting := z.waiting, sent := z.sent, reply := z.reply }))
          else if t.now.raised.isSome then t
          else t.modCore c (fun y => y.modSlot i (fun z => if z.next == sl1.next then { z with waiting := none, reply := none } else z))
        | .fault _ => s1
        | .refused _ => s1

/-- Whether an operation waits, before it issues, until the accesses before it are performed (R239 to R241, R246, R247, R269). -/
def releasesFirst (op : Instr) : Bool :=
  match op with
  | .strel _ _ _ _ _ _ | .fence _ _ | .tktdone _ _ _ | .gbar _ _ _ => true
  | .scld _ _ _ _ _ | .scst _ _ _ _ _ | .scaddW _ _ _ _ _ | .scaddD _ _ _ _ _ => true
  | .amoaddW _ _ _ _ _ q _ | .amoaddD _ _ _ _ _ q _ | .amoandW _ _ _ _ _ q _ | .amoandD _ _ _ _ _ q _ | .amoorW _ _ _ _ _ q _
  | .amoorD _ _ _ _ _ q _ | .amoxorW _ _ _ _ _ q _ | .amoxorD _ _ _ _ _ q _ | .amominW _ _ _ _ _ q _ | .amominD _ _ _ _ _ q _
  | .amomaxW _ _ _ _ _ q _ | .amomaxD _ _ _ _ _ q _ | .amominzW _ _ _ _ _ q _ | .amominzD _ _ _ _ _ q _ | .amomaxzW _ _ _ _ _ q _
  | .amomaxzD _ _ _ _ _ q _ | .amoswpW _ _ _ _ _ q _ | .amoswpD _ _ _ _ _ q _ | .amocasW _ _ _ _ _ q _ | .amocasD _ _ _ _ _ q _
  | .amofaddW _ _ _ _ _ q _ => q
  | _ => false
/-- Whether slot i issues ahead of its SYNC mask: its access in that bundle is one that a release of a higher slot of the mask waits for,
so that neither could issue if both had to in the same cycle (DESIGN CHOICE, log entry 91). -/
def Core.goesAhead (k : Core) (i : Nat) (q : Issue) : Bool :=
  k.accessAt q.idx i && q.synced.any (fun j => i < j && k.slotNext j == q.idx && (match q.operation j (k.slot j) with
    | some (op, _) => releasesFirst op
    | none => false))
/-- Whether slot i takes its next issue together with the other slots of a SYNC mask, and that issue is one of a list. -/
def Core.inStep (k : Core) (stuck : List Nat) (i : Nat) : Bool :=
  match k.issueAt i with
  | some q => q.synced.contains i && stuck.contains q.idx && !k.goesAhead i q
  | none => false
/-- Slot i issues, unless a slot before it has trapped: the state, the weight issued, and the trap. Of the synced issues that are stuck
nothing issues (R27): a slot that stalls on its own condition does so, and the others wait for it. -/
def issueNext (start : Core) (stuck : List Nat) (acc : State × Nat × Option TrapRec) (i : Nat) : State × Nat × Option TrapRec :=
  match acc.2.2 with
  | some _ => acc
  | none =>
    let t := issueSlot acc.1 start i
    if start.inStep stuck i && !t.now.stalled then acc
    else (t, acc.2.1 + (if t.now.stalled then 0 else t.now.weight), t.now.raised)
/-- Whether slot MX takes an mdrain next: it counts as a producer that acts before slot 0 (R31). -/
def Core.drainsNext (k : Core) : Bool :=
  match (k.issueAt 5).bind (fun q => q.operation 5 (k.slot 5)) with
  | some (.mdrain _ _ _ _, _) => true
  | _ => false
/-- The slots of a list issue in order until one traps. An mdrain comes first, but the trap of a lower slot comes before its. -/
def issueSlots (s : State) (start : Core) (stuck slots : List Nat) : State × Nat × Option TrapRec :=
  let s0 : State × Nat × Option TrapRec := ({ s with now := {} }, 0, none)
  let go := issueNext start stuck
  if start.drainsNext && slots.contains 5 then
    let t := go s0 5
    if t.2.2.isSome then
      let low := (slots.filter (· < 5)).foldl go s0
      if low.2.2.isSome then low else t
    else (slots.filter (· != 5)).foldl go t
  else slots.foldl go s0

/-- The issues at which slots of a list wait for each other: every synced slot has reached them. -/
def Core.syncedNow (start : Core) (slots : List Nat) : List Issue :=
  (slots.filterMap (fun i => (start.issueAt i).bind (fun q => if q.synced.contains i && !start.heldBack i q then some q else none))).eraseDups
/-- The slots of a list that stall where those of the stuck issues do not issue; a trap changes nothing here. -/
def stallsOf (s : State) (start : Core) (stuck slots : List Nat) : List Nat :=
  let order := if start.drainsNext && slots.contains 5 then 5 :: slots.filter (· != 5) else slots
  (order.foldl (fun (acc : State × List Nat) i =>
    let t := issueSlot acc.1 start i
    let held := start.inStep stuck i
    (if t.now.raised.isSome || (held && !t.now.stalled) then acc.1 else t, if t.now.stalled then i :: acc.2 else acc.2)) (s, [])).2
/-- The synced issues of a cycle that do not take place (R27: all of their slots issue in the same core cycle): those of which a slot
stalls on its own condition, found anew until no more follow from those found, and those with a slot that is not in the list. -/
def stuckIssues (s : State) (start : Core) (slots : List Nat) : Nat → List Nat → List Nat
  | 0, stuck => stuck
  | n + 1, stuck =>
    let stalls := stallsOf s start stuck slots
    let more := (start.syncedNow slots).filter (fun q => !stuck.contains q.idx &&
      q.synced.any (fun i => start.slotNext i == q.idx && (stalls.contains i || !slots.contains i)))
    if more.isEmpty then stuck else stuckIssues s start slots n (stuck ++ more.map (·.idx))
/-- The synced issues of a cycle that do not take place; a cycle without synced issues has none. -/
def stuckNow (s : State) (start : Core) (slots : List Nat) : List Nat :=
  if (start.syncedNow slots).isEmpty then [] else stuckIssues s start slots 8 []

/-- The mark bundle that all slots have reached: its issue (R338). -/
def Core.markReached (k : Core) : Option Issue :=
  match k.issueAt 0 with
  | some q => if q.mark && k.slots.all (fun sl => sl.next == q.idx) then some q else none
  | none => none

/-- A poisoned result that is due to land (R217, R335), of the lowest slot. -/
def Core.poisonDue (k : Core) : Option Flight :=
  (sortBy (·.seq) (k.flights.filter (fun f => f.traps && k.isDue f))).foldl (fun (best : Option Flight) f =>
    match best with
    | none => some f
    | some b => if f.slot < b.slot then some f else some b) none
def poisonTrap (f : Flight) : TrapRec :=
  { code := 5, cause := 1, res := 0, slot := f.slot, adr := f.adr, va := f.va, hnd := f.hnd, gen := f.gen }

/-! The power window (R36 to R38). -/

/-- A cycle without an issue, or with the weight of one, enters the window of 31 cycles. -/
def Core.pushWeight (k : Core) (w : Nat) : Core := { k with window := (w :: k.window).take 31 }
def Core.powerLimit (k : Core) : Nat := max (wbits (k.sysReg 0x12) 0 16) 256
/-- The freeze cycle of R37; the lifetime counter counts them in units of 2^16 (R386). -/
def freezeCycle (s : State) (c : Nat) : State :=
  let b := bulkOf c
  let n := mget 0 s.freezes b + 1
  let s1 := s.modCore c (fun k => (k.setSys 0x13 (k.sysReg 0x13 + 1)).pushWeight 0)
  if n < 65536 then { s1 with freezes := mset 0 s1.freezes b n }
  else ({ s1 with freezes := mset 0 s1.freezes b 0 } : State).count (0x30000 + 64 * b + 40) 1

/-! The stages of a cycle. -/

/-- The end of a bundle's last issue in slot BR decides where control goes (R73, R78). -/
def branchStage (s : State) (c : Nat) : State :=
  let k := s.core c
  match k.brWait with
  | none => s
  | some idx =>
    if k.slotNext 7 ≤ idx then s
    else if s.now.taken then s.setCore c { k with brWait := none }
    else match k.drain, k.issues.find? (fun q => q.idx == idx) with
      | .none, some q => resolveBranch s c q.adr q.fall
      | _, _ => s

/-- The slots of a list issue in this cycle, under the power window, with the traps of R331; the mark is armed in the cycle in which the
slots issue its bundle (R338). The trap of an operation, or of a
poisoned result, is taken on the state at the start of the cycle; one that lets its bundle issue (R76, R348) is taken after it.
undo is the state of a freeze cycle, before dispatch. -/
def issueStage (undo s : State) (c : Nat) (slots : List Nat) : State :=
  let start := s.core c
  let armed := match start.markReached with
    | some q => if start.svc then s else armMark s c q.adr (q.ord * 8)
    | none => s
  let stuck := stuckNow armed start slots
  let s0 := match start.markReached with
    | some q => if stuck.contains q.idx && !q.synced.any (fun i => start.goesAhead i q) then s else armed
    | none => s
  let (t, w, r) := issueSlots s0 start stuck slots
  let early : Option TrapRec := match r with | some x => if x.after then none else some x | none => none
  let take (x : TrapRec) (y : State) : State :=
    let z := takeTrap x { y with now := { slot := x.slot, adr := x.adr } }
    z.modCore c (fun k => k.pushWeight 0)
  match start.poisonDue, early with
  | some f, some x =>
    if f.slot ≤ x.slot then take (poisonTrap f) (s.setCore c { start with flights := start.flights.erase f }) else take x s
  | some f, none => take (poisonTrap f) (s.setCore c { start with flights := start.flights.erase f })
  | none, some x => take x s
  | none, none =>
    if w + start.window.sum > start.powerLimit then freezeCycle undo c
    else
      let u := if r.isSome then t else branchStage t c
      u.modCore c (fun k => { k.pushWeight w with issues := k.issues.filter (fun q => k.minNext ≤ q.idx), slotCycle := k.slotCycle + 1 })

/-- Whether only EN keeps a core from going on, which stalls in a group wait: every other slot is through its queued issues, or waits at a
sync bit or at the slip limit, in the end for EN. -/
def Core.rests (k : Core) : Bool :=
  [0, 1, 2, 3, 4, 5, 7].all (fun i => k.nextIdx ≤ k.slotNext i || (match k.issueAt i with
    | some q => k.heldBack i q || (q.synced.contains i && q.synced.contains 6 && q.idx == k.slotNext 6)
    | none => false))
/-- While a core waits for its results alone, its slots pass cycles without work, so that each lands at its time (R82, R272,
R349, R350): the slots are through its queued issues, or rest but for a stalled group wait of EN. -/
def drainTick (s : State) (c : Nat) : State :=
  let k := s.core c
  let waits := match k.drain with
    | .none => (stalledGroup s c).isSome && k.rests
    | .illegal _ => false
    | _ => k.caughtUp
  if waits && !k.flights.isEmpty then s.setCore c { k with slots := k.slots.map (fun sl => { sl with clk := sl.clk + 1 }) } else s

/-- What ends a cycle: the core that has drained does what it drained for, a stalled group wait is pre-empted, copies and
prefetches of the tile cache go on. before is the core at the start of the cycle. -/
def endCycle (s : State) (c : Nat) (before : Core) : State :=
  let s1 := match (s.core c).drain with
    | .none => s
    | .illegal _ => s
    | .iwaiting _ _ _ _ _ => finishWait s c
    | _ => drainStep s c
  let k := s1.core c
  let s2 := match stalledGroup s1 c with
    | some adr =>
      if k.drain == .none && k.rests && k.flights.isEmpty && k.elems.isEmpty
          && !s1.fabric.any (fun r => r.core == c && !r.wantReply) then
        preemptCore (commitDisarm s1 c) c adr
      else s1
    | none => s1
  (prefetchStep (completeReplicas (drainTick s2 c) c) c before).modCore c (fun k => { k with cycle := k.cycle + 1 })

/-- The start of a cycle: the expansion goes on, a refill or the wait of disp counts down or ends, results land, in a refill only the
writes of the management core's spaces. The refill of service does not end before what R335 lets land first. The flag tells whether slots
may issue. -/
def beginCycle (s : State) (c : Nat) : State × Bool :=
  let s1 := expandStep s c
  let k := s1.core c
  if k.refill == 1 && k.landsFirst then (landSpaces (s1.setCore c (k.pushWeight 0)) c, false)
  else if k.refill != 0 then
    let s2 := landSpaces (s1.setCore c ({ k with refill := k.refill - 1 }.pushWeight 0)) c
    (if k.refill == 1 then dispJump s2 c else s2, false)
  else (landDue (refillStep s1 c) c, true)

/-- A cycle of core c (R16). A core that runs nothing, or that the debug flag has stopped, has none. -/
def coreCycle (s : State) (c : Nat) : State :=
  let k := s.core c
  let stopped := !k.active || (match k.running with | some r => r.dbg | none => false)
  if stopped then s
  else
    let (s1, go) := beginCycle { s with cur := c, now := {} } c
    if !go then endCycle s1 c k
    else
      let s2 := dispatchStage s1 c
      if s2.now.raised.isSome then endCycle (s2.modCore c (fun k => k.pushWeight 0)) c k
      else endCycle (issueStage s1 s2 c [0, 1, 2, 3, 4, 5, 6, 7]) c k

end Sys2Proof.Machine
end

