-- ==== Sys2Proof/Machine/CoreEvents.lean ====
section
/-! DEFINITION. The events of a core: its stages, replies and translations, its registers as other agents write them, tile
fills, errors of its storage, and interrupts (spec/02, spec/12 R213 to R217, spec/21 R337, R341, R348). -/

namespace Sys2Proof.Machine

/-- An event of a core: the module has 256 of them and the management core; another number names none, and the event has no
effect (DESIGN CHOICE, log entry 84). -/
def State.forCore (s : State) (n : Nat) (f : State → Nat → State) : Outcome :=
  if n ≤ mgmtCore then .next (f { s with cur := n, now := {} } n) else .next s
/-- An event of one of n units of a kind; another number names none (DESIGN CHOICE, log entry 84). -/
def State.forUnit (s : State) (n k : Nat) (f : State → State) : Outcome := if k < n then .next (f s) else .next s

/-! The stages of a cycle. -/

/-- Whether a core runs: it holds a continuation (or firmware) that the debug flag has not stopped. -/
def Core.runs (k : Core) : Bool := k.active && !(match k.running with | some r => r.dbg | none => false)
/-- Whether its slots may issue. -/
def Core.mayIssue (k : Core) : Bool := k.runs && k.refill == 0

/-- Lands the results of some kinds that are due. -/
def landSome (s : State) (c : Nat) (which : Flight → Bool) : State :=
  let k := s.core c
  let ready (f : Flight) : Bool := which f && k.isDue f && !f.traps
  (landingOrder (k.flights.filter ready)).foldl (fun t f => landOne t c f) (s.setCore c { k with flights := k.flights.filter (fun f => !ready f) })

/-- The sync bundle that all slots of its mask have reached: those slots. -/
def Core.syncReady (k : Core) : List Nat :=
  match k.issues.find? (fun q => !q.synced.isEmpty && q.synced.any (fun i => k.slotNext i == q.idx)
      && q.synced.all (fun i => q.idx ≤ k.slotNext i)) with
  | some q => q.synced.filter (fun i => k.slotNext i == q.idx)
  | none => []

def execBundleDispatch (s : State) : Outcome :=
  s.forCore s.ev.unit (fun t c => if (t.core c).mayIssue then dispatchStage t c else t)
def execBundleIssue (s : State) : Outcome :=
  s.forCore s.ev.unit (fun t c => if (t.core c).mayIssue then issueStage t t c [0, 1, 2, 3, 4, 5, 6, 7] else t)
def execSyncMet (s : State) : Outcome :=
  s.forCore s.ev.unit (fun t c => if (t.core c).mayIssue then issueStage t t c (t.core c).syncReady else t)
def execResultLanding (s : State) : Outcome := s.forCore s.ev.unit (fun t c => landDue t c)
def execCbFire (s : State) : Outcome :=
  if s.ev.idx < 8 then s.forCore s.ev.unit (fun t c => if (t.core c).mayIssue then issueStage t t c [t.ev.idx] else t)
  else .next s
def execCbCountRise (s : State) : Outcome :=
  s.forCore s.ev.unit (fun t c => landSome t c (fun f => match f.what with | .cnt _ _ _ => true | .room _ _ _ => true | _ => false))
def execTableSwap (s : State) : Outcome :=
  s.forCore s.ev.unit (fun t c => landSome t c (fun f => match f.what with | .table n _ => n == t.ev.idx | _ => false))
/-- The fortieth cycle of an expansion ends it. -/
def execSegmentExpansionComplete (s : State) : Outcome :=
  s.forCore s.ev.unit (fun t c => if (t.core c).expandLeft == 1 then expandStep t c else t)
def execSegmentRefillComplete (s : State) : Outcome := s.forCore s.ev.unit (fun t c => refillStep t c)

/-! Replies and translations. -/

/-- A reply meets the slot that waits for it, in the frozen program or in the running one (R230, R332); one that nothing
waits for is dropped. -/
def Core.takeReply (k : Core) (i : Nat) (r : Reply) : Core :=
  let give (sl : SlotSt) : SlotSt := { sl with reply := some r }
  match k.frozen with
  | some f =>
    if (f.slots.getD i {}).waiting == some r.id then { k with frozen := some { f with slots := listSet f.slots i (give (f.slots.getD i {})) } }
    else if (k.slot i).waiting == some r.id then k.modSlot i give else k
  | none => if (k.slot i).waiting == some r.id then k.modSlot i give else k

/-- A reply arrives at its core: at the slot that waits for it, or as the data of a buffer element. -/
def arriveReply (s : State) (id : Nat) : State :=
  match s.replies.find? (fun r => r.2.1.id == id) with
  | none => s
  | some (c, r, i) =>
    ({ s with replies := s.replies.filter (fun q => q.2.1.id != id) } : State).modCore c (fun k =>
      if k.elems.any (fun e => e.id == id) then
        k.arriveElem id (if r.data.isEmpty then [] else r.data) (r.status != stGood) (r.status == stDown)
      else k.takeReply i r)
def execReplyArrival (s : State) : Outcome := .next (arriveReply s s.ev.unit)

def execXlatComplete (s : State) : Outcome :=
  if s.ev.idx < 15 then
    s.forCore s.ev.unit (fun t c => if (mget {} (t.core c).h t.ev.idx : Handle).gen.toNat == t.ev.aux then finishXlat t c t.ev.idx else t)
  else .next s

def execPginvWrite (s : State) : Outcome := s.forUnit 4096 s.ev.unit (fun t => startInvalidation t t.ev.unit (t.ctxPart t.ev.unit) t.ev.value)

/-- The partition of an invalidation: a context's, or (from 4,096 up) a virtual function's. -/
def State.invPart (s : State) (key : Nat) : Nat := if key < 4096 then s.ctxPart key else (s.vf (key - 4096)).part
/-- Whether accesses issued before request limit are still on their way in a partition (R213): requests that no home has
applied, stores that a core still holds, tile fills from memory, and the commands of bank units. -/
def oldAccesses (s : State) (p limit : Nat) : Bool :=
  s.fabric.any (fun r => r.part == p && r.born < limit && r.answered.isNone && !r.own)
    || s.cores.any (fun (c, k) => s.partHas p (bulkOf c) &&
        (k.mark.gated.any (fun g => match g.req with | some r => r.born < limit | none => false)
          || k.unlanded.any (fun f => match f.what with | .post r | .through r => r.born < limit | _ => false)
          || k.tiles.any (fun (_, t) => t.filling && t.source.isNone && t.part == p && t.born < limit)
          || k.prefetches.any (fun y => y.2.1 == p && y.2.2.2 < limit)))
    || s.banks.any (fun (_, u) => u.busy && u.part == p && u.born < limit)
def execInvalidationComplete (s : State) : Outcome :=
  s.forUnit (4096 + 64) s.ev.unit (fun t =>
    let key := t.ev.unit
    let v := mget 0 t.invalidations key
    if !wbit v 63 then t
    else if oldAccesses t (t.invPart key) t.ev.aux then t.pend .invalidationComplete { unit := key, aux := t.ev.aux }
    else { t with invalidations := mput t.invalidations key (wput v 63 1 0) })

/-! Registers that other agents write. -/

def execWaymaskWrite (s : State) : Outcome := s.forUnit 4096 s.ev.unit (fun t => writeWaymask t t.ev.unit t.ev.value (if t.ev.flag then none else some (t.ctxd t.ev.unit 0x18)))
def execFelWrite (s : State) : Outcome := s.forCore s.ev.unit (fun t c => writeFel t c t.ev.value ((t.core c).nextOrd * 8))
def execMb7Write (s : State) : Outcome := s.forCore s.ev.unit (fun t c => writeMb7 t c t.ev.value ((t.core c).nextOrd * 8) 8)
/-- A mailbox as the host or the management core writes it (R353). -/
def writeMailbox (s : State) (c k : Nat) (v : Word) : State := s.modCore c (fun j => (j.setSys (0x20 + k) v).setIrq 1)
def execMailboxWrite (s : State) : Outcome :=
  if s.ev.idx < 8 then s.forCore s.ev.unit (fun t c => writeMailbox t c t.ev.idx t.ev.value) else .next s
/-- IRQ.TIMER is set once TIME has reached a TCMP that is not 0 (R341). -/
def matchTimer (s : State) (c : Nat) : State :=
  let v := ((s.core c).sysReg 0xA).toNat
  if v != 0 && v ≤ s.time then s.modCore c (fun k => k.setIrq 2) else s
def execTimerMatch (s : State) : Outcome := s.forCore s.ev.unit (fun t c => matchTimer t c)
def execFaultReport (s : State) : Outcome :=
  .next (mgmtIrq { s with faultNotes := s.faultNotes ++ [s.ev.note] } 4)

/-- The management core's answer to a brk under the debug flag (R348): service as for trap, or the frozen state goes on. -/
def resumeDebug (s : State) (c : Nat) (service : Bool) : State :=
  match (s.core c).running with
  | some r =>
    if !r.dbg then s
    else
      let s1 := (s.dropDebug c).modCore c (fun k => { k with running := some { r with dbg := false } })
      if service then trapWhenDrained { code := 3, cause := s.ev.idx, res := 0, slot := 7, adr := s.ev.aux } s1
      else s1.modCore c (fun k => { k with other := none, expandLeft := 0, refill := 40 })
  | none => s
def execDebugFreezeResume (s : State) : Outcome := s.forCore s.ev.unit (fun t c => resumeDebug t c t.ev.flag)

/-! The tile cache. -/

def execTileFillComplete (s : State) : Outcome :=
  if s.ev.idx < 64 then s.forCore s.ev.unit (fun t c => completeFill t c t.ev.idx t.ev.aux) else .next s
def execReplicaCopyComplete (s : State) : Outcome :=
  if s.ev.idx < 64 then s.forCore s.ev.unit (fun t c => completeReplica t c t.ev.idx) else .next s
def execPrefetchFillStart (s : State) : Outcome := s.forCore s.ev.unit (fun t c => prefetchStep t c (t.core c))

/-! Errors of the storage arrays (R214 to R216, R337). -/

/-- The lifetime counter of a place's correctable errors (R386). -/
def errorCounter (p : StorePlace) : Nat :=
  match p with
  | .line b _ => 0x30000 + 64 * b
  | .scratch c _ | .steep c _ => 0x30000 + 64 * bulkOf c + 8
  | .accum c _ => 0x30000 + 64 * bulkOf c + 16
  | .tile c _ _ => 0x30000 + 64 * bulkOf c + 24
  | .memory pa => stackCounter pa
/-- Whether a place exists. -/
def placeUnit (p : StorePlace) : Option Nat :=
  match p with
  | .line b _ => if b < 32 then none else some b
  | .scratch c _ | .steep c _ | .accum c _ | .tile c _ _ => if c < mgmtCore then none else some c
  | .memory pa => if regionOf pa == .hbm || regionOf pa == .granary then none else some pa

/-- Ends a whole software context (R337): its running continuations, its queued records with STATUS 5, its launch queues,
and with error 5 every command still unretired on its engine contexts. -/
def endContext (s : State) (x : Nat) : State :=
  let running := (s.cores.filter (fun (_, k) => match k.running with | some r => r.ctx == x | none => false)).map (·.1)
  let s1 := running.foldl endContinuation s
  let s2 := s1.ready.foldl (fun (t : State) (b, q) =>
    let mine := q.filter (fun e => e.ctx == x)
    if mine.isEmpty then t
    else
      let rest := q.filter (fun e => e.ctx != x)
      (discardReady (t.setReady b mine) b).setReady b rest) s1
  let s3 : State := { s2 with queues := s2.queues.map (fun (q, l) => if l.bound && l.ctx == x then (q, { l with stopped := true }) else (q, l)) }
  let s4 := s3.engines.foldl (fun (t : State) (e, q) =>
    (q.queue.filter (fun m => m.ctx == x)).foldl (fun (u : State) m =>
      let ch := (e - 0x100000) / 4
      let u1 := if engKind e == 3 && (u.bank ch).busy && (u.bank ch).eng == e && (u.bank ch).num == m.num then
          (u.setBank ch { turn := (u.bank ch).turn }).pendOnce .bankUnitAccept { unit := ch } else u
      finishCommand u1 e m 5) t) s3
  vfError s4 (s.ctxPart x) 0

/-- The end of a context by an uncorrectable error reaches the management core (R215). -/
def failContext (s : State) (x source info : Nat) : State := (endContext s x).report 7 source x info
/-- The context on a core ends. -/
def failCore (s : State) (c info : Nat) : State :=
  match (s.core c).running with
  | some r => failContext s r.ctx c info
  | none => s

/-- An uncorrectable error at a place. -/
def uncorrectable (s : State) (p : StorePlace) : State :=
  match p with
  | .scratch c off | .steep c off => failCore s c off
  | .accum c t => failCore s c t
  | .tile c g n => flipTile s c g n
  | .line b a =>
    let l := s.line (a / 256)
    if l.dirty then (failContext (s.physPoison (a - a % 256) 256) l.owner b a).setLine (a / 256) { l with dirty := false } else s
  | .memory pa => s.physPoison pa 1
def execUncorrectableError (s : State) : Outcome :=
  match placeUnit s.ev.place with
  | none => .next (uncorrectable s s.ev.place)
  | some _ => .next s

/-- The scrubber reads a word; flag tells that it found an error that can be mended, in a tile slot its parity does (R172). It changes
nothing but to correct. -/
def scrubPlace (s : State) (p : StorePlace) (found : Bool) : State :=
  let bad := match p with | .tile c g _ => !((s.core c).tile g).sound | _ => found
  if !bad then s
  else
    let s1 := s.count (errorCounter p) 1
    match p with
    | .tile c g _ => scrubTile s1 c g
    | _ => s1
def execScrub (s : State) : Outcome :=
  match placeUnit s.ev.place with
  | none => .next (scrubPlace s s.ev.place s.ev.flag)
  | some _ => .next s

end Sys2Proof.Machine
end

