-- ==== Sys2Proof/Machine/TaskEvents.lean ====
section
/-! DEFINITION. The events of the schedulers and of migration: pre-emption, pick-up, ageing, time slices, launch queues,
graph replays and nodes (spec/16), and the move of a context (spec/21 R345, R346). -/

namespace Sys2Proof.Machine

/-! Pre-emption (R272, R274). -/

def execPreemptionRequest (s : State) : Outcome := s.forCore s.ev.unit requestPreempt
/-- A core that has stopped before a safe point saves its continuation once it has drained. -/
def takePreemption (s : State) (c : Nat) : State :=
  match (s.core c).drain with
  | .preempt _ => if drained s c then finishDrain s c else s
  | _ => s
def execPreemption (s : State) : Outcome := s.forCore s.ev.unit takePreemption
/-- Whether a request has been pending longer than PRETO µs of TIME. -/
def overdue (s : State) (c : Nat) : Bool :=
  let k := s.core c
  wbit (k.sysReg 9) 0 && k.preAge != 0 && s.time + 1 > k.preAge + 1000 * wbits (s.hubReg (0x810 + 32 * k.partOf)) 0 32
def noteOverdue (s : State) (c : Nat) : State :=
  if overdue s c then (s.modCore c (fun k => { k with preAge := 0 })).report 8 c (s.core c).ctxOf 0 else s
def execPreemptionOverdue (s : State) : Outcome := s.forCore s.ev.unit noteOverdue

/-! Pick-up and ageing (R255, R265, R266). -/

/-- The records that a bulkhead's cores may take: with a time slice, those of its partition (R275). -/
def State.eligible (s : State) (b : Nat) : List Ready :=
  let sl := (s.bulk b).slice
  (s.readyOf b).filter (fun e => sl == 0 || e.part + 1 == sl)
/-- An idle core takes the record that it is to run next. -/
def pickNext (s : State) (c : Nat) : State :=
  if s.takes c then
    match chooseReady (s.eligible (bulkOf c)) c with
    | some e => pickUp (s.setReady (bulkOf c) ((s.readyOf (bulkOf c)).erase e)) c e
    | none => s
  else s
def execContinuationPickup (s : State) : Outcome := s.forCore s.ev.unit pickNext
/-- The management core kills a continuation (R337). -/
def killOn (s : State) (c : Nat) : State := if (s.core c).running.isSome then endContinuation s c else s
def execContinuationKill (s : State) : Outcome := s.forCore s.ev.unit killOn

/-- A record that has waited 100 µs in a level below 7. -/
def Ready.aged (e : Ready) (time : Nat) : Bool := e.level < 7 && e.entered + 100000 ≤ time
/-- Aged records move to the tail of the next level. -/
def ageReady (s : State) (b : Nat) : State :=
  let q := s.readyOf b
  if q.any (fun e => e.aged s.time) then
    s.setReady b (q.filter (fun e => !e.aged s.time)
      ++ (q.filter (fun e => e.aged s.time)).map (fun (e : Ready) => { e with level := e.level + 1, entered := s.time }))
  else s
def execReadyAgeing (s : State) : Outcome := s.forUnit 32 s.ev.unit (fun t => ageReady t t.ev.unit)

/-! Time slices (R275). -/

/-- What of a core its image holds. -/
def Core.image (k : Core) : Core :=
  { ({} : Core) with
    scratch := k.scratch, full := k.full, marks := k.marks, steep := k.steep, steepFull := k.steepFull, steepMarks := k.steepMarks
    at_ := k.at_, tables := k.tables, mx := k.mx, tiles := k.tiles, tree := k.tree, lastCtx := k.lastCtx
    sys := k.sys.filter (fun (n, _) => n == 0x30 || (0x18 ≤ n && n ≤ 0x1F) || (0x60 ≤ n && n ≤ 0x7F)) }
/-- The core with its image wiped to zero, every tile slot and binding invalid. -/
def Core.wipedImage (k : Core) : Core :=
  { k with
    scratch := [], full := [], marks := [], steep := [], steepFull := [], steepMarks := [], at_ := [], tables := []
    mx := {}, tiles := [], tree := [], tb := [], prefetches := [], xcache := []
    sys := k.sys.filter (fun (n, _) => !(n == 0x30 || (0x18 ≤ n && n ≤ 0x1F) || (0x60 ≤ n && n ≤ 0x7F))) }
/-- The core as another partition finds it (R2, R275): its registers are clear too. PWRLIM stays. -/
def Core.cleaned (k : Core) : Core :=
  { k.wipedImage with
    s := [], p := 1, v := [], downs := [], loops := k.loops.map (fun _ => {}), h := k.h.map (fun (i, y) => (i, { gen := y.gen }))
    tlctx := [], sys := k.sys.filter (fun (n, _) => n == 0x12), felSeq := 0, felHold := 0, downNote := false, lastCtx := 4096 }
/-- An image comes back: a slot that held a tile fetches it anew when a lookup names it. -/
def Core.loadImage (k : Core) (i : Core) : Core :=
  let j : Core := { k with
    scratch := i.scratch, full := i.full, marks := i.marks, steep := i.steep, steepFull := i.steepFull, steepMarks := i.steepMarks
    at_ := i.at_, tables := i.tables, mx := i.mx, tiles := [], tree := i.tree, lastCtx := i.lastCtx
    sys := i.sys.foldl (fun m (n, v) => mput m n v) k.sys }
  i.tiles.foldl (fun (m : Core) (g, t) =>
    m.setTile g (if t.v || t.filling then { v := true, stale := true, tag := t.tag, part := t.part, pin := t.pin, hi := t.hi } else t)) j

/-- The images of a bulkhead's cores for a partition. -/
def saveImages (s : State) (b part : Nat) : State :=
  s.modBulk b (fun x => { x with images := (part, (coresOf b).map (fun c => (c, (s.core c).image))) :: x.images.filter (fun y => y.1 != part) })
/-- The images come back, with the writes logged for them. -/
def loadImages (s : State) (b part : Nat) : State :=
  match (s.bulk b).images.find? (fun y => y.1 == part) with
  | none => s
  | some (_, ks) =>
    let s1 := s.modBulk b (fun x => { x with images := x.images.filter (fun y => y.1 != part) })
    ks.foldl (fun (t : State) (c, i) => replayLog (t.modCore c (fun k => k.loadImage i)) c) s1
/-- The partition whose work a bulkhead does. -/
def State.sliceOf (s : State) (b : Nat) : Option Nat :=
  if (s.bulk b).slice != 0 then some ((s.bulk b).slice - 1) else s.bulkPart b

/-- The end of a time slice: the cores are pre-empted and take no more records; once all are idle and nothing of theirs is on its way,
their images change, with a flush between. -/
def switchSlice (s : State) (b part : Nat) : State :=
  match s.sliceOf b with
  | none => s
  | some old =>
    if old == part then s
    else if idleMask s b != 0xFF || (coresOf b).any (fun c => s.outstanding c || !(s.core c).elems.isEmpty) then
      ((coresOf b).foldl requestPreempt (s.modBulk b (fun x => { x with switching := true }))).pendOnce .timeSliceSwitch { unit := b, idx := part }
    else
      let s1 := (coresOf b).foldl (fun (t : State) c => t.modCore c Core.cleaned) (saveImages s b old)
      let s2 := flushPartition s1 [b]
      loadImages (s2.modBulk b (fun x => { x with slice := part + 1, switching := false })) b part
def execTimeSliceSwitch (s : State) : Outcome :=
  if s.ev.idx < 32 then s.forUnit 32 s.ev.unit (fun t => switchSlice t t.ev.unit t.ev.idx) else .next s

/-! Launch queues (R259). -/

/-- The entry that the scheduler takes next. -/
def LaunchQueue.entry (q : LaunchQueue) : Nat := q.base + 64 * (q.ci % 2 ^ q.n)
/-- How far the producer is ahead. -/
def LaunchQueue.ahead (q : LaunchQueue) : Nat := (q.pi - BitVec.ofNat 32 q.ci).toNat
/-- A graph launch record (R253, R263): its reserved words, the reserved bits of word 0 and the bits of word 1 above the header address
are zero. -/
def graphRecordBad (bs : List Byte) : Bool :=
  wbits (wordAt bs 0) 52 5 != 0 || wbits (wordAt bs 1) 57 7 != 0 || (bs.drop 16).any (· != 0)

/-- The scheduler takes an entry. An overrun stops the queue until firmware resets it. -/
def takeLaunch (s : State) (n : Nat) : State :=
  let q := s.queue n
  let x := s.bulk q.bulk
  if !q.bound || q.stopped || q.moving || q.ahead == 0 || !x.sched || x.state != 0 then s
  else if q.ahead > 2 ^ q.n then vfError (s.setQueue n { q with stopped := true }) q.part 1
  else
    let s1 := s.setQueue n { q with ci := (q.ci + 1) % 2 ^ 32 }
    let s2 := match s1.vread q.ctx q.entry 64 .core none (some q.bulk) with
      | .error _ => (s1.reading q.ctx q.entry 64 .core q.bulk).report 4 q.bulk q.ctx q.entry
      | .ok bs =>
        if recStatus (wordAt bs 0) == 7 then
          let s1 := s1.reading q.ctx q.entry 64 .core q.bulk
          (if graphRecordBad bs then writeStatus s1 q.ctx q.entry 6
           else ({ s1 with replays := s1.replays ++ [{ header := wbits (wordAt bs 1) 0 57, ctx := q.ctx, part := q.part, bulk := q.bulk }] } : State).pend
             .graphReplayStart { unit := s1.replays.length })
        else (presentRecord s1 q.ctx q.bulk q.entry [0, 1] 0 0).2
    if (s2.queue n).ahead != 0 then s2.pendOnce .launchQueueTake { unit := n } else s2
def execLaunchQueueTake (s : State) : Outcome := s.forUnit 65536 s.ev.unit (fun t => takeLaunch t t.ev.unit)

/-! Graph replays (R263, R264). -/

def State.setReplay (s : State) (i : Nat) (f : Replay → Replay) : State := { s with replays := s.replays.modify i f }
/-- Changes the USE count of a copy in a parameter descriptor. -/
def useCount (s : State) (x desc copy : Nat) (up : Bool) : State :=
  match s.vreadWord x (desc + 24) .core with
  | .ok w =>
    let n := wbits w (32 * copy) 32
    s.vwriteTry x (desc + 24) (wput w (32 * copy) 32 (if up then n + 1 else n - 1)) .core
  | .error _ => s
/-- The scheduler of bulkhead b latches the published copy: its number and address. -/
def latchParams (s : State) (x b desc : Nat) : Nat × Word × State :=
  if desc == 0 then (2, 0, s)
  else
    let s1 := s.reading x desc 8 .core b
    match s1.vreadWord x desc .core (some b) with
    | .error _ => (2, 0, s1)
    | .ok w =>
      let copy := wbits w 0 1
      let s2 := s1.reading x (desc + 8 + 8 * copy) 8 .core b
      match s2.vreadWord x (desc + 8 + 8 * copy) .core (some b) with
      | .error _ => (2, 0, s2)
      | .ok base => (copy, base, useCount s2 x desc copy true)
/-- A replay that cannot read its header is over and reported; a pair of its arm table, or a word of its root list, that cannot be read is
left out, and the replay goes on (DESIGN CHOICE, log entry 120). -/
def failReplay (s : State) (i : Nat) (r : Replay) (a : Nat) : State :=
  (s.setReplay i (fun y => { y with ended := true })).report 4 r.bulk r.ctx a

/-- Arms the nodes of the arm table. The spec does not say what a pair that cannot be read does: it arms nothing (DESIGN CHOICE, log entry
120). -/
def armAll (s : State) (x bulk table n : Nat) : State :=
  (List.range n).foldl (fun (u : State) j =>
    let t := u.reading x (table + 16 * j) 16 .core bulk
    match t.vreadWord x (table + 16 * j) .core (some bulk), t.vreadWord x (table + 16 * j + 8) .core (some bulk) with
    | .ok a, .ok count => (armNode t x (wbits a 0 57) (count.setWidth 32)).2
    | _, _ => t) s
/-- Launches the roots, whatever their counts; a word of the list that cannot be read launches nothing (DESIGN CHOICE, log entry 120). -/
def launchRoots (s : State) (x bulk list n i : Nat) (base : Word) : State :=
  (List.range n).foldl (fun (u : State) j =>
    let t := u.reading x (list + 8 * j) 8 .core bulk
    match t.vreadWord x (list + 8 * j) .core (some bulk) with
    | .ok a => (launchNode t x bulk (wbits a 0 57) (some i) base).2
    | .error _ => t) s

/-- A replay starts once RUN is 0; until then it waits. -/
def startReplay (s0 : State) (i : Nat) : State :=
  match s0.replays[i]? with
  | none => s0
  | some r =>
    let s := s0.reading r.ctx r.header 64 .core r.bulk
    if r.started || r.ended then s0
    else match s.vread r.ctx r.header 64 .core none (some r.bulk) with
      | .error _ => failReplay s i r r.header
      | .ok h =>
        if wbit (wordAt h 5) 0 then s.pend .graphReplayStart { unit := i }
        else
          let s1 := s.vwriteTry r.ctx (r.header + 40) (wput (wordAt h 5) 0 1 1) .core
          let (copy, base, s2) := latchParams s1 r.ctx r.bulk (wordAt h 3).toNat
          let s3 := s2.setReplay i (fun y => { y with started := true, base := base, copy := copy, desc := (wordAt h 3).toNat })
          let s4 := armAll s3 r.ctx r.bulk (wbits (wordAt h 1) 0 57) (wbits (wordAt h 0) 0 32)
          let s5 := launchRoots s4 r.ctx r.bulk (wbits (wordAt h 2) 0 57) (wbits (wordAt h 0) 32 32) i base
          match s5.replays[i]? with
          | some y => if y.nodes.isEmpty then s5.pendOnce .graphReplayComplete { unit := i } else s5
          | none => s5
def execGraphReplayStart (s : State) : Outcome := .next (startReplay s s.ev.unit)

/-- A replay is complete: GEN rises, RUN clears, its copy is used once less. -/
def completeReplay (s0 : State) (i : Nat) : State :=
  match s0.replays[i]? with
  | none => s0
  | some r =>
    let s := s0.reading r.ctx r.header 64 .core r.bulk
    if !r.started || r.ended || !r.nodes.isEmpty then s0
    else match s.vread r.ctx r.header 64 .core none (some r.bulk) with
      | .error _ => failReplay s i r r.header
      | .ok h =>
        let s1 := s.setReplay i (fun y => { y with ended := true })
        let s2 := if r.copy < 2 then useCount s1 r.ctx r.desc r.copy false else s1
        (s2.vwriteTry r.ctx (r.header + 32) (wordAt h 4 + 1) .core).vwriteTry r.ctx (r.header + 40) (wput (wordAt h 5) 0 1 0) .core
def execGraphReplayComplete (s : State) : Outcome := .next (completeReplay s s.ev.unit)

/-! Nodes (R260 to R262). -/

/-- The bulkhead of a node's home; that of its context's partition where it does not translate. -/
def State.homeOfNode (s : State) (x node : Nat) : Nat :=
  match s.walk x node with
  | .ok l => (s.leafHome (s.ctxPart x) l.hi (l.pa node)).1
  | .error _ => s.physBulk (s.ctxPart x) 0
def execNodeDecrement (s : State) : Outcome :=
  s.forUnit 4096 s.ev.unit (fun t => (decrementNode t t.ev.unit (t.homeOfNode t.ev.unit t.ev.idx) t.ev.idx 0 (BitVec.ofNat 64 t.ev.aux)).2)
def execNodeArm (s : State) : Outcome :=
  s.forUnit 4096 s.ev.unit (fun t => (armNode t t.ev.unit t.ev.idx (t.ev.value.setWidth 32)).2)

/-! Migration (R345, R346, R287). -/

/-- The restart record of a cancelled command (R287). -/
def Command.restartRecord (c : Command) : List Byte :=
  natToBytes 8 (2 ^ 63 + c.k % 8 * 2 ^ 8 + c.opc % 256) ++ natToBytes 8 c.a.toNat ++ natToBytes 8 c.b.toNat
    ++ natToBytes 8 (match c.ext with | some w => w.toNat | none => 0) ++ natToBytes 8 c.delivered ++ List.replicate 24 0
/-- Cancels a copy command at a transfer boundary: its restart record, and retirement with error 8. A cpyr that has started
is the command that it completes; one that has not started leaves the record of that command, and a marker leaves none. -/
def cancelCopy (s : State) (e : Nat) (c : Command) : State :=
  let (s0, d) : State × Option Command := if c.opc == 6 && !c.started then
      (match fromRestart s e c with
       | (t, .ok (some d)) => (t, some d)
       | (t, _) => (t, none))
    else (s, some c)
  let s1 := match d, restartSlot s0 c.ctx e c.num with
    | some d, some a => (match (s0.charge c.ctx (engBulk e) 2).vwrite c.ctx a d.restartRecord .copy with | .ok t => t | .error _ => s0.refusal c.ctx a 64 .copy true)
    | _, _ => s0
  finishCommand s1 e c 8
/-- Cancels every unretired copy command of a context. -/
def cancelCopies (s : State) (x : Nat) : State :=
  s.engines.foldl (fun (t : State) (e, q) =>
    (q.queue.filter (fun m => m.ctx == x && 1 ≤ m.opc && m.opc ≤ 6 && m.done.isNone)).foldl (fun u m => cancelCopy u e m) t) s
/-- The engine contexts that a context's references name, those of bank units apart: the engine's kind, bulkhead and number. One of a bank
unit belongs to its channel and not to a bulkhead's engines (R276): it stays where it is, with its COUNT (DEDUCED, log entry 68). -/
def State.refsOf (s : State) (x : Nat) : List (Nat × Nat × Nat × Nat) :=
  (List.range 16).filterMap (fun n =>
    let v := s.ctxd x (0x40 + 8 * n)
    if wbit v 63 && wbits v 20 4 < 3 then some (n, wbits v 20 4, s.physBulk (s.ctxPart x) (wbits v 24 5), wbits v 0 6) else none)
/-- The cores that hold the state of a context, live or in an image that a time slice saved (R275). -/
def imageCores (s : State) (x : Nat) : List Nat :=
  (s.cores.filter (fun (c, k) => c < mgmtCore && k.lastCtx == x && k.running.isNone && (s.imageOf (s.ctxPart x) c).isNone)).map (·.1)
    ++ s.bulks.flatMap (fun (_, y) => (y.images.filter (fun e => e.1 == s.ctxPart x)).flatMap (fun e =>
      (e.2.filter (fun i => i.2.lastCtx == x)).map (·.1)))
/-- The bulkheads that a context leaves: those of its cores' state, of its waiting records and of its engine contexts. -/
def State.sourcesOf (s : State) (x : Nat) : List Nat :=
  (imageCores s x).map bulkOf ++ (s.ready.filter (fun (_, q) => q.any (fun e => e.ctx == x))).map (·.1) ++ (s.refsOf x).map (·.2.2.1)
/-- Where the part of a context in bulkhead b goes: the bulkheads that it leaves keep their order from dest on (DESIGN CHOICE, log entry
68). -/
def State.movesTo (s : State) (x dest b : Nat) : Nat :=
  let bs := s.sourcesOf x
  dest + (b - bs.foldl min (bs.headD b))
/-- The engine contexts (kind, bulkhead, number) of a context's references and where each goes: to the same number, or where another context
or another of these has that, to the first that none has. -/
def State.engineMoves (s : State) (x : Nat) (goal : Nat → Nat) : List ((Nat × Nat × Nat) × (Nat × Nat × Nat)) :=
  (s.refsOf x).foldl (fun acc (_, kind, b, n) =>
    if acc.any (fun e => e.1 == (kind, b, n)) then acc
    else
      let free (m : Nat) : Bool :=
        let q := s.eng (engKey kind (goal b) 0 m)
        (!q.granted || q.ctx == x) && !acc.any (fun e => e.2 == (kind, goal b, m))
      acc ++ [((kind, b, n), (kind, goal b, if free n then n else ((List.range 64).find? free).getD n))]) []
/-- The engine contexts of a context's references move with COUNT and error record (R345, step 4). -/
def moveEngines (s : State) (x : Nat) (goal : Nat → Nat) : State :=
  let moves := s.engineMoves x goal
  (s.refsOf x).foldl (fun (t : State) (n, kind, b, ctx) =>
    let (_, d, num) := ((moves.find? (fun e => e.1 == (kind, b, ctx))).map (·.2)).getD (kind, b, ctx)
    if d == b then t
    else
      let old := s.eng (engKey kind b 0 ctx)
      (t.setEng (engKey kind d 0 num) { granted := true, ctx := x, count := old.count, errn := old.errn, errc := old.errc }).setCtxd x (0x40 + 8 * n)
        (wput (wput (t.ctxd x (0x40 + 8 * n)) 24 5 (d - t.partFirst (t.ctxPart x))) 0 6 num)) s

/-- The core that takes the state of a core that a context left, by where its bulkhead goes. -/
def coreFor (goal : Nat → Nat) (c : Nat) : Nat := 8 * goal (bulkOf c) + c % 8
/-- The state that a context left in a core is wiped, in the core or in its saved image; the tables stay where they are (R122). -/
def wipeImage (s : State) (part c : Nat) : State :=
  s.setLocal part c { (s.localCore part c).wipedImage with lastCtx := 4096, tables := (s.localCore part c).tables }
/-- The state of a core comes to another, into the image that a time slice saved of it where there is one. -/
def placeImage (s : State) (part d : Nat) (i : Core) : State :=
  let j : Core := { i with tables := (s.localCore part d).tables }
  if (s.imageOf part d).isSome then s.setLocal part d j else replayLog (s.modCore d (fun k => k.loadImage j)) d
/-- The state of the cores that a context left goes to the cores of the same numbers in its bulkheads at the destination, with the writes
logged for them (R343), and is wiped behind it (R345, step 3). -/
def moveImages (s : State) (x : Nat) (goal : Nat → Nat) : State :=
  let part := s.ctxPart x
  let moves := ((imageCores s x).map (fun c => (c, coreFor goal c))).filter (fun e => e.1 != e.2)
  let goes (c : Nat) : Nat := ((moves.find? (fun e => e.1 == c)).map (·.2)).getD c
  let s1 : State := { s with arrivals := s.arrivals.map (fun a => if a.ctx == x && a.kind ≤ 2 then { a with core := goes a.core } else a) }
  let s2 := moves.foldl (fun (t : State) (c, _) => wipeImage t part c) s1
  moves.foldl (fun (t : State) (c, d) => placeImage t part d (s.localCore part c).image) s2
/-- The waiting records of a context go to its bulkheads at the destination, with their affinity. -/
def moveReady (s : State) (x : Nat) (goal : Nat → Nat) : State :=
  s.ready.foldl (fun (t : State) (b, q) =>
    let d := goal b
    let mine := q.filter (fun e => e.ctx == x)
    if d == b || mine.isEmpty then t
    else
      let t1 := t.setReady b ((t.readyOf b).filter (fun e => !mine.contains e))
      mine.foldl (fun (u : State) e =>
        match e.aff, u.vreadWord x (e.recA + 8) .core with
        | some c, .ok w =>
          let c1 := coreFor goal c
          enterReady (u.vwriteTry x (e.recA + 8) (wput w 19 5 (bulkOf c1)) .core) d { e with aff := some c1 }
        | _, _ => enterReady u d { e with aff := none }) t1) s

/-- A context leaves the module (R345): its cores' state, its waiting records, queues and engine contexts go. What carries them over
the Scair link is system software's (log entry 68). -/
def moveOut (s : State) (x : Nat) : State :=
  let s0 : State := { s with arrivals := s.arrivals.filter (fun a => !(a.ctx == x && a.kind ≤ 2)) }
  let t := (imageCores s x).foldl (fun (t : State) c => wipeImage t (s.ctxPart x) c) s0
  let u : State := { t with
    ready := t.ready.map (fun (b, q) => (b, q.filter (fun e => e.ctx != x)))
    queues := t.queues.map (fun (q, l) => if l.bound && l.ctx == x then (q, {}) else (q, l))
    engines := t.engines.map (fun (e, q) => if q.granted && q.ctx == x then (e, {}) else (e, q)) }
  (List.range 16).foldl (fun (v : State) n => v.setCtxd x (0x40 + 8 * n) (wput (v.ctxd x (0x40 + 8 * n)) 63 1 0)) u

/-- A context comes from another module (R345): the engine contexts that its references name are granted, each with the COUNT, ERRN and
ERRC that the source gives (24 bytes for each reference), and it starts in bulkhead dest with nothing mapped. The state of its cores
comes with the source's messages, which one module does not show (log entry 68). -/
def moveIn (s : State) (x dest : Nat) (data : List Byte) : State :=
  let s1 := (s.refsOf x).foldl (fun (t : State) (n, kind, b, ctx) =>
    t.setEng (engKey kind b 0 ctx) { granted := true, ctx := x, count := wordAt (data.drop (24 * n)) 0,
                                     errn := (wordAt (data.drop (24 * n)) 1).toNat, errc := (wordAt (data.drop (24 * n)) 2).toNat }) s
  { s1 with migrations := s1.migrations.filter (fun m => m.ctx != x) ++ [{ ctx := x, dest := dest, pulled := [], outside := true }] }

/-- A context moves to the bulkheads of its partition from dest on, or with away to another module: its queues stop, its continuations are
pre-empted, its copies are cancelled and the other commands retire; then, once the cores that its state goes to are idle, the state of
its cores, its engine contexts and its waiting records move, and the destination starts with nothing mapped. Until a step can be made,
the migration waits. -/
def migrate (s : State) (x dest : Nat) (away : Bool := false) : State :=
  let again (t : State) : State := t.pendOnce .migration { unit := x, idx := dest, flag := away }
  let stop (l : LaunchQueue) : LaunchQueue := if l.bound && l.ctx == x then { l with moving := true } else l
  let start (l : LaunchQueue) : LaunchQueue := if l.bound && l.ctx == x then { l with moving := false, bulk := dest } else l
  let s1 : State := { s with queues := s.queues.map (fun (q, l) => (q, stop l)) }
  let running := (s1.cores.filter (fun (_, k) => match k.running with | some r => r.ctx == x | none => false)).map (·.1)
  if !away && !(dest :: (s.sourcesOf x).map (s.movesTo x dest)).all (s.partHas (s.ctxPart x)) then s
  else if !running.isEmpty then again (running.foldl requestPreempt s1)
  else
    let s2 := cancelCopies s1 x
    if s2.engines.any (fun (_, q) => q.queue.any (fun m => m.ctx == x)) then again s2
    else if away then moveOut s2 x
    else if (imageCores s2 x).any (fun c => let d := coreFor (s2.movesTo x dest) c; d != c && (s2.imageOf (s2.ctxPart x) d).isNone && (s2.core d).running.isSome) then again s2
    else
      let goal := s2.movesTo x dest
      let s3 := moveReady (moveEngines (moveImages s2 x goal) x goal) x goal
      ({ s3 with queues := s3.queues.map (fun (q, l) => (q, start l))
                 migrations := s3.migrations.filter (fun m => m.ctx != x) ++ [{ ctx := x, dest := dest, pulled := [] }] } : State).pendOnce
        .migrationBackgroundPush { unit := x }
/-- The flag tells that the context leaves for another module, the second one that it comes from one. -/
def execMigration (s : State) : Outcome :=
  if s.ev.idx < 32 then s.forUnit 4096 s.ev.unit (fun t => if t.ev.flag2 then moveIn t t.ev.unit t.ev.idx t.ev.data else migrate t t.ev.unit t.ev.idx t.ev.flag) else .next s

/-- The flag tells that an agent without the codec asks for the page; the data are the bytes of a page from another module. -/
def execMigrationPagePull (s : State) : Outcome := s.forUnit 4096 s.ev.unit (fun t => pullPage t t.ev.unit t.ev.idx t.ev.flag t.ev.data)
/-- Every page that has not been pulled is pushed: the migration is over. -/
def execMigrationBackgroundPush (s : State) : Outcome :=
  s.forUnit 4096 s.ev.unit (fun t => { t with migrations := t.migrations.filter (fun m => m.ctx != t.ev.unit) })

end Sys2Proof.Machine
end

