-- ==== Sys2Proof/Machine/FabricEvents.lean ====
section
/-! DEFINITION. The events of the engines, the bank units, the homes and the switches (spec/17, spec/18, spec/20). -/

namespace Sys2Proof.Machine

/-! Engines (R276 to R292) and windows (R201). -/

def execEngineCommandStart (s : State) : Outcome := .next (stepCommand s s.ev.unit s.ev.idx)
def execCommandRetire (s : State) : Outcome := .next (retireCommand s s.ev.unit)
/-- A write of an engine to the aperture of a core, on behalf of the context that owns the core's partition; flag2 marks its
bytes as poisoned. A refused write, or one to a bulkhead whose sluice is closed (R311), changes nothing. -/
def execRemoteWindowWrite (s : State) : Outcome :=
  s.forUnit 256 s.ev.unit (fun t =>
    let c := t.ev.unit
    if t.bulkUp (bulkOf c) then
      (landWindow t ((t.sliceOf (bulkOf c)).getD 0) c t.ev.idx t.ev.data t.ev.flag (if t.ev.flag2 then [(0, t.ev.data.length)] else [])).2
    else t)
def execCollectiveResult (s : State) : Outcome := s.forUnit 32 s.ev.unit (fun t => collectiveResult t t.ev.unit t.ev.idx t.ev.value)

/-! Bank units (R317, R324, R327). -/

def execBankUnitAccept (s : State) : Outcome := s.forUnit 256 s.ev.unit (fun t => acceptBank t t.ev.unit)
def execBankUnitResult (s : State) : Outcome := s.forUnit 256 s.ev.unit (fun t => bankResult t t.ev.unit)
def execBankRequestPromotion (s : State) : Outcome := s.forUnit 256 s.ev.unit (fun t => promoteRuns t t.ev.unit)

/-! Homes (R220, R224, R247). -/

/-- Whether the port toward a peer has been told to stop requests (R381). -/
def State.peerStopped (s : State) (pa : Nat) : Bool :=
  regionOf pa == .peer && (s.port (s.peerPort pa)).xoff.contains 0
/-- The release that tspawn, tdec and tarm make before they take effect (R294). -/
def taskReleased (s : State) (r : Req) : Bool :=
  match r.op with
  | .spawn | .tdec | .tarm _ => s.settled r.core .dev r.idx r.seq r.slot
  | _ => true
/-- What the sluice of a task request's home answers (R309): a tdec or tarm of another partition needs a window over its node, with A or
with W. -/
def State.taskSluice (s : State) (r : Req) : Nat :=
  let window (perm : Nat) : Nat := match s.walk r.ctx r.va with
    | .ok l => s.sluice r.home r.part (l.pa r.va) perm
    | .error _ => stPoison
  if !s.bulkUp r.home then stDown
  else if s.partHas r.part r.home then stGood
  else match r.op with
    | .tdec => window 2
    | .tarm _ => window 1
    | _ => stPoison
/-- Whether an earlier group request of the core is still on its way: the sync engines take those of one core in its order (R267, R268). -/
def State.groupTurn (s : State) (r : Req) : Bool :=
  let group (q : Req) : Bool := match q.op with | .gjoin _ _ | .gleave | .gbar | .gwait => true | _ => false
  !(group r && (s.fabric.takeWhile (fun q => q.id != r.id)).any (fun q => q.core == r.core && group q))
/-- A request reaches its home. One that is still held at an interface or a switch, or that waits for an earlier one of its
core, comes again; the home's sluice has admitted it then. -/
def applyHome (s : State) (id : Nat) : State :=
  match s.findReq id with
  | none => s
  | some r =>
    let entered : State := { s with fabric := s.fabric.map (fun q : Req => if q.id == id then { q with admitted := true } else q) }
    let again : State := entered.pend .homeApply { unit := id }
    if r.limited || r.held.isSome || r.answered.isSome then s
    else if r.op.isTask then
      (if !taskReleased s r then s.pend .homeApply { unit := id }
       else if !s.groupTurn r then again
       else if !s.bulkUp r.home then failRequest s r stDown
       else if s.taskSluice r != stGood then failRequest (s.refused r) r stPoison
       else applyTask s r)
    else if ((s.peerStopped r.pa && !r.parked) || !s.turnOf r) && s.reach r == stGood then again
    else if (s.peerStopped r.pa && !r.parked) || !s.turnOf r then s.pend .homeApply { unit := id }
    else if r.stamp != 0 then
      (if s.reach r == stGood then entered else s).pend .sailWheelApply { unit := id }
    else applyRequest s r
def execHomeApply (s : State) : Outcome := .next (applyHome s s.ev.unit)

/-- A sail-wheel operation is applied once the clock has passed its stamp by 512, after every one with an earlier stamp that
is on its way, whatever its home (R222, R224). A bulkhead that is down answers at once. -/
def applySail (s : State) (id : Nat) : State :=
  match s.findReq id with
  | none => s
  | some r =>
    let ready := r.stamp - 1 + 512 ≤ s.time && s.turnOf r && !s.fabric.any (fun q => q.stamp != 0 && q.stamp < r.stamp)
    if r.stamp == 0 || r.limited then s
    else if ready || (!r.own && s.reach r == stDown) then applyRequest s r
    else s.pend .sailWheelApply { unit := id }
def execSailWheelApply (s : State) : Outcome := .next (applySail s s.ev.unit)

/-- The operands tell whether the line is evicted. -/
def execHotLineWithdraw (s : State) : Outcome := .next (evictLine s s.ev.unit s.ev.flag)

/-! Switches (R296, R300, R301). -/

def execSwitchCombine (s : State) : Outcome := s.forUnit 33 s.ev.unit (fun t => combineAt t t.ev.unit t.ev.idx t.ev.aux)
def execCombineHoldExpiry (s : State) : Outcome := .next (expireHold s s.ev.unit)
def execCombinedReplySplit (s : State) : Outcome := .next (splitCombined s s.ev.unit)

/-- A request leaves its interface once the bucket holds its cost, in the order of its sender's queue (R307). -/
def sendLimited (s : State) (id : Nat) : State :=
  match s.findReq id with
  | none => s
  | some r =>
    let b := bulkOf r.core
    let first := !(s.fabric.takeWhile (fun q => q.id != id)).any (fun q => q.core == r.core && q.limited)
    let open_ := s.rate r.ctx b == 0 || (2000 * r.beats : Int) ≤ (s.bucket r.ctx b).tokens
    if !r.limited then s
    else if first && open_ then
      let r1 := { r with limited := false }
      let s1 : State := s.charge r.ctx b r.beats
      ({ s1 with fabric := s1.fabric.map (fun q : Req => if q.id == id then r1 else q) } : State).depart r1
    else s.pend .rateLimitedSend { unit := id }
def execRateLimitedSend (s : State) : Outcome := .next (sendLimited s s.ev.unit)

/-- A way of messages: the switches, with the input and the output port of each. -/
abbrev Route := List (Nat × Nat × Nat)
/-- The ways from a port of a switch to the slices of a physical range's homes, or to the helpers that a redirect names (R295, R302). -/
def State.lineRoutes (s : State) (part hi b port pa n : Nat) : List Route :=
  (linesOf pa n).map (fun a => routeFrom 8 12 b ((s.helperAt b a).getD (s.leafHome part hi (256 * a)).1) port)
/-- The way from an engine to the hub link. -/
def hubRoute (b : Nat) : Route := routeFrom 11 12 b (b / 4 * 4) 10
/-- The ways from port 10 of an engine's switch to what a range of an operand names: the slices of homes, the core of a window, or the hub
link. -/
def State.rangeRoutes (s : State) (c : Command) (b : Nat) (w : Word) (n : Nat) : List Route :=
  match operand w with
  | some (false, a) => (List.range (n / 4096 + 2)).flatMap (fun i =>
      let va := max a (alignDown a 4096 + 4096 * i)
      let m := min (a + n - va) (4096 - va % 4096)
      if a + n ≤ va then [] else match s.walk c.ctx va with
        | .error _ => []
        | .ok l =>
          let pa := l.pa va
          match regionOf pa with
          | .hbm | .granary => s.lineRoutes c.part l.hi b 10 pa m
          | .aperture => [routeFrom (pa % 0x10000000 / 0x100000 % 8) 12 b (pa % 0x10000000 / 0x800000) 10]
          | .host | .peer => [hubRoute b]
          | .reserved => [])
  | _ => []
/-- The ways of the messages that a command in progress makes next: of a copy its next transfer, of a collective its share to the group's
home, of a bank unit the reads of its acceptance or, once its runs are over, its STAT. -/
def State.nextRoutes (s : State) (e : Nat) (c : Command) : List Route :=
  let b := engBulk e
  match c.opc with
  | 1 | 2 | 3 | 4 | 5 =>
    let n := min (c.rowBytes - c.off) 256
    if !c.started || c.conv.isSome then [] else
      [(c.rowOps c.row).1, (c.rowOps c.row).2].flatMap (fun w => s.rangeRoutes c b (w + BitVec.ofNat 64 c.off) n)
  | 0x40 | 0x41 =>
    if c.started || c.words.isEmpty then [] else
      routeFrom 9 12 b (s.physBulk c.part (wbits (c.word 0) 0 16 % max 1 (s.partCount c.part))) 10 :: s.rangeRoutes c b (c.word 1) (wbits (c.word 3) 0 32)
  | 0xA0 =>
    let u := s.bank ((e - 0x100000) / 4)
    let running := u.busy && u.eng == e && u.num == c.num && !(u.runs.isEmpty && u.wrote == u.olen)
    if !c.started || running then [] else s.rangeRoutes c b c.a 64
  | _ => []
/-- A command on a link that fails completes with error 5 (R311, R325). -/
def failCommand (s : State) (e : Nat) (c : Command) : State :=
  if c.opc == 0xA0 then
    let ch := (e - 0x100000) / 4
    let u := s.bank ch
    if u.busy && u.eng == e && u.num == c.num then endBank s ch e c.num 5 else finishCommand s e c 5
  else finishCommand s e c (c.fail 5)
/-- The fills that run into slots of a core from memory over some way end as those of a bulkhead that is down (R156, R311). -/
def failFills (s : State) (c : Nat) (on : Route → Bool) : State :=
  let k := s.core c
  (k.tiles.filter (fun (_, t) => t.filling && t.running && t.source.isNone && (s.lineRoutes t.part t.hi (bulkOf c) (c % 8) t.tag recordBytes).any on)).foldl
    (fun (u : State) (g, _) => startFills (u.modCore c (fun y => y.endFill g (.error 5))) c) s

/-- A link that fails beyond retry (R296), in both directions: a report, and every request or reply whose way lies over it completes with
"bulkhead down". A transfer of an engine is one step, so that a command counts by the way of its next one (DESIGN CHOICE, log entry
108). -/
def failLink (s : State) (sw port : Nat) : State :=
  let on (route : Route) : Bool := route.any (fun e => e.1 == sw && (e.2.1 == port || e.2.2 == port))
  -- a request has left the link by which it entered the switch where it stands
  let ahead (r : Req) : Route := match r.route with
    | (w, i, o) :: rest => (w, if r.passed == 0 then i else 16, o) :: rest
    | [] => []
  let away (r : Req) : Bool := regionOf r.pa == .peer && r.parked
  let back (r : Req) : Route := match r.cmd with
    | some (e, _) => hubRoute (engBulk e)
    | none => replyRoute r.core 33 (r.op.port == 9)
  let crosses (r : Req) : Bool := !r.own && !r.limited && r.answered.isNone && (if away r then on (back r) else !r.parked && on (ahead r))
  let t0 := (s.fabric.filter crosses).foldl (fun t r => failRequest t r stDown) (s.report 9 sw 0 port)
  let t1 := s.engines.foldl (fun (u : State) (e, q) =>
    (q.queue.filter (fun c => c.done.isNone && (s.nextRoutes e c).any on)).foldl (fun v c => failCommand v e c) u) t0
  let t := s.cores.foldl (fun (u : State) (c, _) => failFills u c on) t1
  { t with
    fabric := t.fabric.map (fun r : Req =>
      if r.answered.isSome && on (replyRoute r.core (if r.toHub then 33 else r.home) true) then { r with answered := some (0, stDown) } else r)
    replies := t.replies.map (fun (c, r, i) =>
      if r.home != 32 && on (replyRoute c r.home r.back) then (c, { r with value := 0, status := stDown, data := [] }, i) else (c, r, i)) }
def execFabricLinkFailure (s : State) : Outcome :=
  if s.ev.idx < 16 then s.forUnit 32 s.ev.unit (fun t => failLink t t.ev.unit t.ev.idx) else .next s

/-- A sag (R39): every core of the bulkhead loses its next cycle, and the droop counter counts it. -/
def execSupplySag (s : State) : Outcome :=
  s.forUnit 32 s.ev.unit (fun t => (t.modBulk t.ev.unit (fun x => { x with sag := true })).count (0x30000 + 64 * t.ev.unit + 32) 1)

end Sys2Proof.Machine
end

