-- ==== Sys2Proof/Machine/HubEvents.lean ====
section
/-! DEFINITION. The events of the sequencer of a bulkhead (spec/22), and of the hub: partitions, resets, life cycle, virtual
functions, windows by consent, attestation and the Scair ports (spec/23). -/

namespace Sys2Proof.Machine

/-! The sequencer (R356 to R360). -/

/-- An event that firmware causes, or the host through a function: without a booted image there is none (R384). -/
def State.booted (s : State) (o : Outcome) : Outcome := if s.bootOk then o else .next s
def State.forBulk (s : State) (f : State → Nat → State) : Outcome := s.booted (s.forUnit 32 s.ev.unit (fun t => f t t.ev.unit))
/-- A step of the sequencer ends: in its state, and with its condition met, the block changes. Until the condition is met the
event comes again. -/
def sequel (s : State) (b st : Nat) (i : Instr) (ready : Bool) (f : Bulkhead → Bulkhead) : State :=
  if (s.bulk b).state != st then s else if ready then s.modBulk b f else s.pendOnce i { unit := b }

def execBhSchedStop (s : State) : Outcome := s.forBulk schedStop
def execBhPreempt (s : State) : Outcome := s.forBulk bulkPreempt
def execBhQuiesceAbandon (s : State) : Outcome := s.forBulk quiesceAbandon
def execQuiesceComplete (s : State) : Outcome :=
  s.forBulk (fun t b => if (t.bulk b).pre then sequel t b 1 .quiesceComplete (quiesced t b) (fun x => { x with state := 2 }) else t)
def execSluiceClose (s : State) : Outcome := s.forBulk closeSluice
def execSluiceCloseComplete (s : State) : Outcome :=
  s.forBulk (fun t b => if (t.bulk b).close then
    sequel t b 2 .sluiceCloseComplete (inflight t b == 0) (fun x => { x with closed := true, state := 3 }) else t)
def execRetentionSave (s : State) : Outcome := s.forBulk saveRetention
def execRetentionSaveComplete (s : State) : Outcome :=
  s.forBulk (fun t b => if (t.bulk b).busy then
    sequel t b 3 .retentionSaveComplete true (fun x => { x with busy := false, valid := true, save := false, state := 4 }) else t)
def execClockGate (s : State) : Outcome := s.forBulk gateClock
def execClockStopped (s : State) : Outcome :=
  s.forBulk (fun t b => if (t.bulk b).gate then sequel t b 4 .clockStopped true (fun x => { x with lock := false, state := 5 }) else t)
def execRailOff (s : State) : Outcome := s.forBulk dropRail
/-- The functions of the bulkhead's partition learn that it is down (R376). -/
def railDown (s : State) (b : Nat) : State :=
  if (s.bulk b).off && (s.bulk b).state == 5 then
    let s1 := s.modBulk b (fun x => { x with pg := false, state := 6 })
    match s1.bulkPart b with | some p => vfError s1 p 2 | none => s1
  else s
def execRailDown (s : State) : Outcome := s.forBulk railDown
def execRailOn (s : State) : Outcome := s.forBulk raiseRail
/-- The rail is back: the cores' registers hold their reset values, and the power cycle is counted (R386). -/
def railUp (s : State) (b : Nat) : State :=
  if !(s.bulk b).off && (s.bulk b).state == 6 then
    let s1 := (s.modBulk b (fun x => { x with pg := true, state := 7 })).count (0x30000 + 64 * b + 56) 1
    (coresOf b).foldl (fun (t : State) c => t.modCore c (fun k => { k with s := [], p := 1, v := [], loops := core0.loops })) s1
  else s
def execRailUp (s : State) : Outcome := s.forBulk railUp
def execClockUngate (s : State) : Outcome := s.forBulk ungateClock
def execPllLock (s : State) : Outcome :=
  s.forBulk (fun t b => if (t.bulk b).gate then t else sequel t b 7 .pllLock true (fun x => { x with lock := true, state := 8 }))
def execBhWipe (s : State) : Outcome := s.forBulk startWipe
def wipeDone (s : State) (b : Nat) : State :=
  if (s.bulk b).go && (s.bulk b).state == 8 then (wipeBulk s b).modBulk b (fun x => { x with go := false, done := true, state := 9 }) else s
def execWipeComplete (s : State) : Outcome := s.forBulk wipeDone
def execRetentionRestore (s : State) : Outcome := s.forBulk restoreRetention
def execRetentionRestoreComplete (s : State) : Outcome :=
  s.forBulk (fun t b => if (t.bulk b).busy then
    sequel t b 9 .retentionRestoreComplete true (fun x => { x with busy := false, restore := false, state := 10 }) else t)
def execSluiceOpen (s : State) : Outcome := s.forBulk openSluice
def execSluiceOpenComplete (s : State) : Outcome :=
  s.forBulk (fun t b => if (t.bulk b).close then t else
    sequel t b 10 .sluiceOpenComplete true (fun x => { x with closed := false, state := 11 }))
def execBhSchedResume (s : State) : Outcome := s.forBulk schedResume
def execBhWakeWrite (s : State) : Outcome := s.forBulk (fun t b => writeWake t b t.ev.value)
def execCoreRestart (s : State) : Outcome := s.booted (s.forUnit 256 s.ev.unit (fun t => restartCore t t.ev.unit))
def execPwrlimWrite (s : State) : Outcome := s.booted (s.forUnit 256 s.ev.unit (fun t => writePwrlim t t.ev.unit t.ev.value))

/-! Partitions, contexts, resets and life cycle (R364 to R374, R384, R386). -/

def execPtabWrite (s : State) : Outcome := s.booted (s.forUnit 32 s.ev.unit (fun t => writePtab t t.ev.unit t.ev.value))
def execContextDescriptorWrite (s : State) : Outcome :=
  if s.ev.idx < 0x200 && s.ev.idx % 8 == 0 then s.booted (s.forUnit 4096 s.ev.unit (fun t => writeCtxd t t.ev.unit t.ev.idx t.ev.value))
  else .next s
def execBhReset (s : State) : Outcome := s.forBulk resetBulk
def execGkeyDestroy (s : State) : Outcome := s.booted (s.forUnit 32 s.ev.unit (fun t => destroyKey t t.ev.unit))
def execLifecycleRequest (s : State) : Outcome := s.booted (.next (requestLifecycle s))

/-- The three conditions under which the boot ROM accepts the image that flash holds (R384). -/
def bootAccepts (n : Nat) : Bool :=
  Config.fuseKeys.contains (Config.sha512 (Config.imageKey n))
    && Config.ed25519 (Config.imageKey n) (Config.imageSignature n) (Config.sha512 (Config.flashImage n))
    && Config.fuseVersion.toNat ≤ (Config.imageVersion n).toNat
/-- What the fuses, the non-volatile stores and the host keep over a module reset: memory, poison, the keys' epochs, the
fuses and the lifetime counters. A pending life-cycle change takes effect with its wipe first. Without an image every bulkhead stays
in reset (R374, R384). -/
def resetModule (s : State) : State :=
  let lcs := s.hubReg 0x1008
  let change := wbit lcs 7
  let st := if change then wbits lcs 3 3 else s.lcState
  let inHbm (a : Nat) : Bool := regionOf a == .hbm
  let kept : State := if change then
      (List.range 32).foldl destroyKey { s with mem := s.mem.filter (fun c => !inHbm c.1), poison := s.poison.filter (fun g => !inHbm (64 * g)) }
    else s
  let ok := st != 4 && bootAccepts kept.free
  let held : Bulkhead := { state := 9, sched := false, close := true, closed := true, rstBusy := true }
  let t : State := { State.reset with
    mem := kept.mem, poison := kept.poison, epochs := kept.epochs, lcState := st, bootOk := ok, image := kept.free
    bulks := if ok then [] else (List.range 32).map (fun b => (b, held))
    counters := kept.counters, committed := kept.committed, freezes := kept.freezes
    choice := kept.choice, free := kept.free + 1 }
  freshNonce ((List.range 32).foldl (fun (u : State) p => u.setHub (0x40000 + 8 * p) (kept.hubReg (0x40000 + 8 * p))) t)
def execModuleReset (s : State) : Outcome := .next (resetModule s)

/-- The hub commits its lifetime counters. -/
def commitCounters (s : State) : State := { s with committed := s.counters }
def execLifetimeCounterCommit (s : State) : Outcome := .next (commitCounters s)
def execOrderlyPowerDown (s : State) : Outcome := .next (commitCounters s)

/-! Virtual functions (R376, R380). -/

def State.forVf (s : State) (f : State → Nat → State) : Outcome := s.booted (s.forUnit 64 s.ev.unit (fun t => f t t.ev.unit))

/-- WAKE: bit i writes 1 to BH_WAKE.REQ of virtual bulkhead i. -/
def wakeVf (s : State) (f : Nat) (v : Word) : State :=
  let x := s.vf f
  if x.bound then
    (List.range (s.partCount x.part)).foldl (fun (t : State) i => if wbit v i then writeWake t (t.physBulk x.part i) 1 else t) s
  else s
def execVfWake (s : State) : Outcome := s.forVf (fun t f => wakeVf t f t.ev.value)
/-- HINV: an invalidation in every context of the function's partition. -/
def invalidateVf (s : State) (f : Nat) (v : Word) : State := if (s.vf f).bound then invalidateFrom s (4096 + f) (s.vf f).part v else s
def execVfHinv (s : State) : Outcome := s.forVf (fun t f => invalidateVf t f t.ev.value)

/-- A function-level reset of a VF. -/
def resetVf (s : State) (f : Nat) : State :=
  let x := s.vf f
  if !x.bound then s
  else
    let s1 : State := { s with queues := s.queues.map (fun (q, l) => if l.bound && l.part == x.part then (q, { l with stopped := true }) else (q, l)) }
    let s2 := ((List.range 4096).filter (fun c => s1.ctxValid c && s1.ctxPart c == x.part)).foldl endContext s1
    let s3 := closeWindows s2 (fun b w0 _ => wbits w0 58 5 == x.part || s2.bulkPart b == some x.part)
    s3.setVf f { s3.vf f with err := 0 }
def execVfFlr (s : State) : Outcome := s.forVf resetVf
/-- A function-level reset of the PF resets the module. -/
def execPfFlr (s : State) : Outcome := .next (resetModule s)

/-! Windows by consent (R369, R377). -/

/-- A consent record: whether its side borrows, the other partition, its permissions, and its range of pages. -/
def Vf.borrows (x : Vf) : Bool := wbit (x.mailbox.getD 0 0) 62
def Vf.other (x : Vf) : Nat := wbits (x.mailbox.getD 0 0) 52 5
def Vf.perm (x : Vf) : Nat := wbits (x.mailbox.getD 0 0) 0 3
def Vf.pages (x : Vf) : Nat × Nat := (wbits (x.mailbox.getD 1 0) 12 40, wbits (x.mailbox.getD 2 0) 12 40)
def Vf.owner (x : Vf) : Nat := if x.borrows then x.other else x.part
def Vf.borrower (x : Vf) : Nat := if x.borrows then x.part else x.other
def State.setStatus (s : State) (f st slot : Nat) : State := s.setVf f { s.vf f with status := st, slot := slot }

/-- The words of a window (R311). -/
def windowWords (borrower perm first last : Nat) : Word × Word :=
  (BitVec.ofNat 64 (2 ^ 63 + borrower % 32 * 2 ^ 58 + perm / 4 % 2 * 2 ^ 57 + perm / 2 % 2 * 2 ^ 56 + perm % 2 * 2 ^ 55 + first % 2 ^ 40 * 4096),
   BitVec.ofNat 64 (last % 2 ^ 40 * 4096))
/-- The slot that is free in every bulkhead of a partition. -/
def freeWindow (s : State) (p : Nat) : Option Nat :=
  (List.range 16).find? (fun w => (ptabSet (s.ptab p)).all (fun b => !wbit (s.slwin b w).1 63))

/-- Two records match: firmware opens the window in every bulkhead of the owner, or refuses both. -/
def openWindow (s : State) (f g : Nat) : State :=
  let x := s.vf f
  let (first, last) := x.pages
  match freeWindow s x.owner with
  | none => (s.setStatus f 3 0).setStatus g 3 0
  | some w =>
    if !Config.ownsPages x.owner first last s.free then (({ s with free := s.free + 1 } : State).setStatus f 3 0).setStatus g 3 0
    else
      let (w0, w1) := windowWords x.borrower x.perm first last
      let s1 := (ptabSet (s.ptab x.owner)).foldl (fun (t : State) b =>
        writeSlwin (writeSlwin t (0x10000 + 0x200 * b + 16 * w + 8) w1) (0x10000 + 0x200 * b + 16 * w) w0) { s with free := s.free + 1 }
      (s1.setStatus f 2 w).setStatus g 2 w

/-- A consent record is submitted. -/
def submitConsent (s : State) (f : Nat) : State :=
  let x := s.vf f
  let mate (y : Vf) (st : Nat) : Bool := y.bound && y.status == st && y.owner == x.owner && y.borrower == x.borrower && y.pages == x.pages
  if !x.bound then s
  else if x.other == x.part then s.setStatus f 3 0
  else if x.perm == 0 then
    -- R310: the mailboxes read idle once every request admitted through the window has completed
    let (w0, w1) := windowWords x.borrower 0 x.pages.1 x.pages.2
    let same (b : Nat) (a0 a1 : Word) : Bool :=
      s.partHas x.owner b && wbits a0 58 5 == x.borrower && wbits a0 12 40 == wbits w0 12 40 && wbits a1 12 40 == wbits w1 12 40
    let s1 := closeWindows s same
    let inside (a : Nat) : Bool := x.pages.1 ≤ a / 4096 && a / 4096 ≤ x.pages.2
    let left := s1.fabric.any (fun r => r.part == x.borrower && s1.partHas x.owner r.home && !r.toHub && !r.op.isTask && inside r.pa && (r.admitted || r.parked))
    if left then s1.pendOnce .consentSubmit { unit := f }
    else
      let open_ := (s1.vfs.filter (fun (g, y) => g == f || mate y 2)).map (·.1)
      open_.foldl (fun (t : State) g => t.setStatus g 0 0) s1
  else
    let s1 := s.setStatus f 1 0
    match s1.vfs.find? (fun (g, y) => g != f && mate y 1 && y.borrows != x.borrows && y.perm == x.perm) with
    | some (g, _) => openWindow s1 f g
    | none => s1
def execConsentSubmit (s : State) : Outcome := s.forVf submitConsent

/-! Attestation (R385). -/

/-- The first 256 bytes of a report. -/
def reportBody (s : State) (p : Nat) (nonce : List Byte) : List Byte :=
  let mask := ((ptabSet (s.ptab p)).map (fun b => 2 ^ b)).sum
  natToBytes 4 1 ++ natToBytes 4 (s.lcState + s.partShape p * 2 ^ 16 + p * 2 ^ 8 + s.partFirst p * 2 ^ 24) ++ natToBytes 4 mask
    ++ natToBytes 4 (Config.imageVersion s.image).toNat ++ bytesTo 32 Config.identityKey ++ bytesTo 64 (Config.sha512 (Config.flashImage s.image))
    ++ bytesTo 64 (mget [] s.measures p) ++ bytesTo 32 nonce ++ List.replicate 48 0
/-- A report goes to host memory; a blank module refuses the request (R374), and one that the host does not translate is lost. -/
def attest (s : State) (f : Nat) : State :=
  let x := s.vf f
  let body := reportBody s x.part x.nonce
  if !x.bound || s.lcState == 0 then s
  else match s.hostAddr x.part x.reportTo.toNat with
    | some a => { s with mem := s.mem.write a (body ++ bytesTo 64 (Config.sign (Config.sha512 body))) }
    | none => s
def execAttestationRequest (s : State) : Outcome := s.forVf attest

/-- The host invalidates a translation (R378): it completes once every access made under the old one is performed, and later
accesses see the host's new translations. -/
def invalidateAts (s : State) (f : Nat) : State :=
  let x := s.vf f
  if s.fabric.any (fun r => r.part == x.part && regionOf r.pa == .host && r.answered.isNone) then s.pend .atsInvalidation s.ev
  else s.setVf f { x with gen := x.gen + 1 }
def execAtsInvalidation (s : State) : Outcome := s.forVf invalidateAts

/-! The register page of a virtual function (R376), and the writes without a row of their own (R351). -/

/-- What a read of the host from the page of function f returns: 0 where nothing is bound to the function's partition. -/
def readVf (s : State) (f off : Nat) : Word :=
  let x := s.vf f
  if !x.bound then 0
  else if off == 0x00 then BitVec.ofNat 64 (s.partShape x.part * 2 ^ 8 + x.part)
  else if off == 0x08 then BitVec.ofNat 64 x.err
  else if off == 0x10 then mget 0 s.invalidations (4096 + f)
  else if 0x100 ≤ off && off < 0x120 then bytesToWord ((bytesTo 32 x.nonce).drop (off - 0x100) |>.take 8)
  else if off == 0x128 then x.reportTo
  else if off == 0x200 then x.mailbox.getD 0 0
  else if off == 0x208 || off == 0x210 then x.mailbox.getD ((off - 0x200) / 8) 0
  else if off == 0x218 then BitVec.ofNat 64 (x.slot * 2 ^ 56 + x.status)
  else if 0x40000 ≤ off && off < 0x80000 then
    let n := (off - 0x40000) / 64
    if n / 8 < s.partCount x.part then (s.core (8 * s.physBulk x.part (n / 8) + n % 8)).sysReg (0x20 + (off - 0x40000) / 8 % 8) else 0
  else if 0x80000 ≤ off && off < 0x90000 then
    let l := s.queue (x.queueBase + (off - 0x80000) / 8)
    if l.bound && l.part == x.part then l.pi.setWidth 64 else 0
  else 0
/-- A write of the host to the page of function f. What is not bound to the function's partition drops the write. -/
def writeVf (s : State) (f off : Nat) (v : Word) : State :=
  let x := s.vf f
  if !x.bound then s
  else if off == 0x08 then s.setVf f { x with err := x.err - Nat.land x.err v.toNat }
  else if off == 0x10 then invalidateVf s f v
  else if off == 0x18 then wakeVf s f v
  else if 0x100 ≤ off && off < 0x120 then
    s.setVf f { x with nonce := bytesTo (off - 0x100) x.nonce ++ natToBytes 8 v.toNat ++ (bytesTo 32 x.nonce).drop (off - 0x100 + 8) }
  else if off == 0x128 then s.setVf f { x with reportTo := v }
  else if off == 0x120 then (if wbit v 0 then attest s f else s)
  else if 0x200 ≤ off && off < 0x218 then
    let s1 := s.setVf f { x with mailbox := x.mailbox.set ((off - 0x200) / 8) (if off == 0x200 then v &&& 0x41F0000000000007#64 else v &&& 0x000FFFFFFFFFF000#64) }
    if off == 0x200 && wbit v 63 then submitConsent s1 f else s1
  else if 0x40000 ≤ off && off < 0x80000 then
    let n := (off - 0x40000) / 64
    if n / 8 < s.partCount x.part then writeMailbox s (8 * s.physBulk x.part (n / 8) + n % 8) ((off - 0x40000) / 8 % 8) v else s
  else if 0x80000 ≤ off && off < 0x90000 then
    let q := x.queueBase + (off - 0x80000) / 8
    let l := s.queue q
    if l.bound && l.part == x.part then (s.setQueue q { l with pi := v.setWidth 32 }).pendOnce .launchQueueTake { unit := q } else s
  else s

/-- BAR0 of the physical function (R375): the management space at 0, the hub space at 0x200000; nothing after a boot without an image
(R384). -/
def pfRead (s : State) (off : Nat) : Word :=
  if !s.bootOk || off % 8 != 0 then 0
  else if off < 0x200000 then mgmtRead s off
  else if off < 0x600000 then hubRead s (off - 0x200000)
  else 0
/-- What a read of the host from BAR0 of a function returns: of the physical function, or of virtual function f (R375). -/
def hostRead (s : State) (r : RegAddr) : Word :=
  match r.vf with
  | none => pfRead s r.off
  | some f => if s.bootOk && f < 64 && r.off < 0x100000 then readVf s f r.off else 0
/-- A write of the host to BAR0 of a function. -/
def writeRegister (s : State) (r : RegAddr) (v : Word) : Option State :=
  if r.off % 8 != 0 || !s.bootOk then none
  else match r.vf with
    | none =>
      if r.off < 0x200000 then some (mgmtWrite s r.off v)
      else if r.off < 0x600000 then some (hubWrite s (r.off - 0x200000) v)
      else none
    | some f => if f < 64 && r.off < 0x100000 then some (writeVf s f r.off v) else none
def execRegisterWrite (s : State) : Outcome :=
  match writeRegister s s.ev.reg s.ev.value with
  | some t => .next t
  | none => .next s

/-! Peers (R382) and the Scair ports (R381, R383). -/

/-- The function that an atomic of a peer names: the nine of R241 in their order. -/
def peerAmo (n : Nat) : AmoOp := [AmoOp.add, .and, .or, .xor, .min, .max, .minz, .maxz].getD n .swp
/-- The reply to a peer on lane 1: its type is the status, its ADR that of the request. -/
def replyPeer (s : State) (r : PeerReq) (part status : Nat) (data : List Byte) : State :=
  s.sendFlit r.port 1 status r.srcModule part r.addr data
/-- An access of a peer at an address that its window gives: translated, checked, and admitted by the sluices of its homes, of which an
atomic needs A alone (R309). -/
def servePeer (s : State) (r : PeerReq) (w : PeerWindow) : State :=
  let va := w.vbase + (r.addr - w.base)
  let write := r.write || r.atomic.isSome
  match s.walk w.lctx va with
  | .error _ => replyPeer s r w.lpart stPoison []
  | .ok l =>
    match permRefusal .peer write r.atomic.isSome false l.hi with
    | some _ => replyPeer s r w.lpart stPoison []
    | none =>
      let pa := l.pa va
      let (home, sl) := s.leafHome w.lpart l.hi pa
      let n := r.data.length
      let met := s.rangeSluice w.lpart l.hi pa n (if r.atomic.isSome then 2 else b2n r.write)
      let inside : Bool := match regionOf pa with | .hbm | .granary => true | .host | .peer | .aperture | .reserved => false
      let read (t : State) : List Byte × Nat × State :=
        if inside then (let (bs, bad) := t.physRead w.lpart pa n; (bs, if bad then stPoison else stGood, t)) else t.homeRead w.lpart home pa n
      if met != stGood then replyPeer (if met == stPoison then s.report 6 home w.lctx pa else s) r w.lpart met []
      else match r.atomic with
      | some op =>
        let (bs, st, s1) := read s
        if st != stGood then replyPeer (if inside then s1.deliver w.lpart pa n else s1) r w.lpart st []
        else
          let v := amoNew (peerAmo op) (8 * n) (bytesToNat bs) (bytesToNat r.data)
          let held := if inside then s1.hold w.lctx (home * 8 + sl) (pa / 256) else s1
          let (st2, s2) := held.homeWrite w.lctx w.lpart home l.hi pa (natToBytes n v) true
          replyPeer s2 r w.lpart st2 (if st2 == stGood then bs else [])
      | none =>
        if r.write then
          let (st, s1) := s.homeWrite w.lctx w.lpart home l.hi pa r.data false
          replyPeer (if r.poison && st == stGood then s1.physPoison pa n else s1) r w.lpart st []
        else
          let (bs, st, s1) := read s
          replyPeer (if inside then s1.readsLines w.lctx w.lpart l.hi home pa n else s1) r w.lpart st (if st == stGood then bs else [])

/-- A control flit of a type. -/
def sendControl (s : State) (p kind dst : Nat) (data : Nat) : State := s.sendFlit p 3 kind dst 0 data []
/-- The flits of a peer's request (R381): a read carries no data, whatever its size. -/
def flitsIn (r : PeerReq) : Nat := if r.write || r.atomic.isSome then flitsOf r.data.length else 1
/-- The flits of the requests in a port's receive buffer. -/
def Port.buffered (q : Port) : Nat := (q.recv.map flitsIn).sum
/-- An incoming request enters the receive buffer of its port in the order of its lane: one whose SEQ is not the next one is discarded,
since those before it will be sent again. A buffer that is full tells the sender to stop (R381). -/
def receiveRequest (s : State) (r : PeerReq) : State :=
  let q := s.port r.port
  let s1 := s.setPort r.port { q with lastRecv := s.time }
  if r.seq != mget 0 q.recvSeq 0 then s1
  else
    let q1 : Port := { q with lastRecv := s.time, recv := q.recv ++ [r], recvSeq := mset 0 q.recvSeq 0 ((r.seq + flitsIn r) % 2 ^ 24) }
    let s2 := (s.setPort r.port q1).pend .peerRequest { peer := r, flag := true }
    if Config.receiveFlits ≤ q1.buffered && !q1.full then sendControl (s2.setPort r.port { q1 with full := true }) r.port 2 r.srcModule 0 else s2
/-- The oldest request in the receive buffer of a port is served: its source, partition and address select one of the 64 entries of the
window table; a miss returns poison. A read takes as many bytes as its operand data has. A buffer with room again lets its sender go
on. -/
def peerRequest (s : State) (p : Nat) : State :=
  let q := s.port p
  match q.recv with
  | [] => s
  | r :: rest =>
    let q1 : Port := { q with recv := rest }
    let more := q.full && q1.buffered < Config.receiveFlits
    let s1 := if more then sendControl (s.setPort p { q1 with full := false }) p 3 r.srcModule 0 else s.setPort p q1
    match (s.peers.take 64).find? (fun w => w.src == r.srcModule && w.part == r.part && w.base ≤ r.addr && r.addr + r.data.length ≤ w.base + w.len) with
    | some w => servePeer s1 r w
    | none => replyPeer s1 r 0 stPoison []
/-- A request arrives, or with the flag the port serves the next one in its buffer. -/
def execPeerRequest (s : State) : Outcome :=
  s.forUnit 16 s.ev.peer.port (fun t => if t.ev.flag then peerRequest t t.ev.peer.port else receiveRequest t t.ev.peer)

def State.forPort (s : State) (f : State → Nat → State) : Outcome := s.forUnit 16 s.ev.unit (fun t => f t t.ev.unit)
/-- A valid flit has arrived at a port. -/
def State.heard (s : State) (p : Nat) : State := s.setPort p { s.port p with lastRecv := s.time }
/-- A port that has sent nothing for 1 µs sends a heartbeat. -/
def heartbeat (s : State) (p : Nat) : State :=
  if (s.port p).up && (s.port p).lastSend + 1000 ≤ s.time then sendControl s p 1 0 0 else s
/-- A heartbeat goes out when it is due, or with the flag one arrives. -/
def execScairHeartbeat (s : State) : Outcome := s.forPort (fun t p => if t.ev.flag then t.heard p else heartbeat t p)
/-- The sender of a lane stops. -/
def execScairXoff (s : State) : Outcome :=
  if s.ev.idx < 4 then s.forPort (fun t p => t.setPort p { t.port p with xoff := sadd (t.port p).xoff t.ev.idx, lastRecv := t.time })
  else .next s
/-- The sender of a lane goes on: the flits that wait for the lane go out first. -/
def Port.resume (q : Port) (time vl : Nat) : Port :=
  (q.stopped.filter (fun f => f.vl == vl)).foldl (fun (y : Port) f => y.emit time f)
    { q with xoff := sdel q.xoff vl, lastRecv := time, stopped := q.stopped.filter (fun f => f.vl != vl) }
def execScairXon (s : State) : Outcome :=
  if s.ev.idx < 4 then s.forPort (fun t p => t.setPort p ((t.port p).resume t.time t.ev.idx)) else .next s
/-- The flits of a lane from a SEQ on, as the replay buffer holds them. -/
def Port.replayFrom (q : Port) (vl seq : Nat) : List Flit := (q.replay.filter (fun f => f.vl == vl)).dropWhile (fun f => f.seq != seq)
/-- A replay: the flits go out again, as they were. -/
def replayPort (s : State) (p vl seq : Nat) : State :=
  let q := s.port p
  let again := q.replayFrom vl seq
  s.setPort p { q with wire := again.foldl keep512 q.wire, lastSend := if again.isEmpty then q.lastSend else s.time, lastRecv := s.time }
def execScairReplayRequest (s : State) : Outcome :=
  if s.ev.idx < 4 then s.forPort (fun t p => replayPort t p t.ev.idx t.ev.aux) else .next s
/-- A flit that fails its CRC is discarded, and a replay from its SEQ is asked for: the lane expects that SEQ next. -/
def execScairFlitCrcFailure (s : State) : Outcome :=
  if s.ev.idx < 4 then s.forPort (fun t p =>
    sendControl (t.setPort p { t.port p with recvSeq := mset 0 (t.port p).recvSeq t.ev.idx t.ev.aux }) p 4 0 (t.ev.idx * 2 ^ 24 + t.ev.aux % 2 ^ 24))
  else .next s
/-- The requests that wait for replies over a port. -/
def State.overPort (s : State) (p : Nat) (r : Req) : Bool :=
  regionOf r.pa == .peer && !r.op.isTask && !r.limited && (if r.parked then r.via else s.peerPort r.pa) == p && r.answered.isNone
/-- A port that has received no valid flit for 100 µs is down (R383): a report, and its requests complete. -/
def linkDown (s : State) (p : Nat) : State :=
  let q := s.port p
  if q.up && q.lastRecv + 100000 ≤ s.time then
    let s1 := (s.setPort p { q with up := false }).report 10 p 0 0
    (s1.fabric.filter (s1.overPort p)).foldl (fun t r => failRequest t r stDown) s1
  else s
def execScairLinkDown (s : State) : Outcome := s.forPort linkDown

end Sys2Proof.Machine
end

