-- ==== Sys2Proof/Machine/Dispatch.lean ====
section
/-! DEFINITION. The meaning of every row of the opcode table: one arm per constructor, one direct call of its meaning. -/

namespace Sys2Proof.Machine

def exec (i : Instr) (s : State) : Host.Outcome State Fault Refusal :=
  match i with
  | .nop => Sys2Proof.Machine.execNop s
  | .idle => Sys2Proof.Machine.execIdle s
  | .add g d a b k => Sys2Proof.Machine.execAdd g d a b k s
  | .sub g d a b k => Sys2Proof.Machine.execSub g d a b k s
  | .mul g d a b k => Sys2Proof.Machine.execMul g d a b k s
  | .mulhi g d a b k => Sys2Proof.Machine.execMulhi g d a b k s
  | .mulhz g d a b k => Sys2Proof.Machine.execMulhz g d a b k s
  | .div g d a b k => Sys2Proof.Machine.execDiv g d a b k s
  | .divz g d a b k => Sys2Proof.Machine.execDivz g d a b k s
  | .rem g d a b k => Sys2Proof.Machine.execRem g d a b k s
  | .remz g d a b k => Sys2Proof.Machine.execRemz g d a b k s
  | .and g d a b => Sys2Proof.Machine.execAnd g d a b s
  | .or g d a b => Sys2Proof.Machine.execOr g d a b s
  | .xor g d a b => Sys2Proof.Machine.execXor g d a b s
  | .andn g d a b => Sys2Proof.Machine.execAndn g d a b s
  | .shl g d a b k => Sys2Proof.Machine.execShl g d a b k s
  | .shr g d a b k => Sys2Proof.Machine.execShr g d a b k s
  | .sra g d a b k => Sys2Proof.Machine.execSra g d a b k s
  | .rol g d a b k => Sys2Proof.Machine.execRol g d a b k s
  | .min g d a b k => Sys2Proof.Machine.execMin g d a b k s
  | .max g d a b k => Sys2Proof.Machine.execMax g d a b k s
  | .minz g d a b k => Sys2Proof.Machine.execMinz g d a b k s
  | .maxz g d a b k => Sys2Proof.Machine.execMaxz g d a b k s
  | .addi g d a m => Sys2Proof.Machine.execAddi g d a m s
  | .andi g d a m => Sys2Proof.Machine.execAndi g d a m s
  | .ori g d a m => Sys2Proof.Machine.execOri g d a m s
  | .xori g d a m => Sys2Proof.Machine.execXori g d a m s
  | .shli g d a m => Sys2Proof.Machine.execShli g d a m s
  | .shri g d a m => Sys2Proof.Machine.execShri g d a m s
  | .srai g d a m => Sys2Proof.Machine.execSrai g d a m s
  | .addiW g d a m => Sys2Proof.Machine.execAddiW g d a m s
  | .shliW g d a n => Sys2Proof.Machine.execShliW g d a n s
  | .shriW g d a n => Sys2Proof.Machine.execShriW g d a n s
  | .sraiW g d a n => Sys2Proof.Machine.execSraiW g d a n s
  | .cmpeq g q q2 a o => Sys2Proof.Machine.execCmpeq g q q2 a o s
  | .cmpne g q q2 a o => Sys2Proof.Machine.execCmpne g q q2 a o s
  | .cmplt g q q2 a o => Sys2Proof.Machine.execCmplt g q q2 a o s
  | .cmple g q q2 a o => Sys2Proof.Machine.execCmple g q q2 a o s
  | .cmpltz g q q2 a o => Sys2Proof.Machine.execCmpltz g q q2 a o s
  | .cmplez g q q2 a o => Sys2Proof.Machine.execCmplez g q q2 a o s
  | .cmpeqW g q q2 a o => Sys2Proof.Machine.execCmpeqW g q q2 a o s
  | .cmpneW g q q2 a o => Sys2Proof.Machine.execCmpneW g q q2 a o s
  | .cmpltW g q q2 a o => Sys2Proof.Machine.execCmpltW g q q2 a o s
  | .cmpleW g q q2 a o => Sys2Proof.Machine.execCmpleW g q q2 a o s
  | .cmpltzW g q q2 a o => Sys2Proof.Machine.execCmpltzW g q q2 a o s
  | .cmplezW g q q2 a o => Sys2Proof.Machine.execCmplezW g q q2 a o s
  | .pand g q pa pb na nb => Sys2Proof.Machine.execPand g q pa pb na nb s
  | .por g q pa pb na nb => Sys2Proof.Machine.execPor g q pa pb na nb s
  | .pxor g q pa pb na nb => Sys2Proof.Machine.execPxor g q pa pb na nb s
  | .pnot g q pa na => Sys2Proof.Machine.execPnot g q pa na s
  | .pset g a b => Sys2Proof.Machine.execPset g a b s
  | .pget g d => Sys2Proof.Machine.execPget g d s
  | .clz g d a k => Sys2Proof.Machine.execClz g d a k s
  | .ctz g d a k => Sys2Proof.Machine.execCtz g d a k s
  | .popc g d a k => Sys2Proof.Machine.execPopc g d a k s
  | .bext g d a b => Sys2Proof.Machine.execBext g d a b s
  | .bins g d a b => Sys2Proof.Machine.execBins g d a b s
  | .sext g d a n => Sys2Proof.Machine.execSext g d a n s
  | .zext g d a n => Sys2Proof.Machine.execZext g d a n s
  | .mov g d a => Sys2Proof.Machine.execMov g d a s
  | .li g d m => Sys2Proof.Machine.execLi g d m s
  | .lih g d a m => Sys2Proof.Machine.execLih g d a m s
  | .sysr g r n => Sys2Proof.Machine.execSysr g r n s
  | .sysw g r n => Sys2Proof.Machine.execSysw g r n s
  | .sysx g r n => Sys2Proof.Machine.execSysx g r n s
  | .b g o => Sys2Proof.Machine.execB g o s
  | .bl g o => Sys2Proof.Machine.execBl g o s
  | .br g a => Sys2Proof.Machine.execBr g a s
  | .call g d a => Sys2Proof.Machine.execCall g d a s
  | .ret g a => Sys2Proof.Machine.execRet g a s
  | .disp g a b => Sys2Proof.Machine.execDisp g a b s
  | .loop g l c e => Sys2Proof.Machine.execLoop g l c e s
  | .loopi g l c e => Sys2Proof.Machine.execLoopi g l c e s
  | .yield g => Sys2Proof.Machine.execYield g s
  | .susp g => Sys2Proof.Machine.execSusp g s
  | .tend g => Sys2Proof.Machine.execTend g s
  | .halt g => Sys2Proof.Machine.execHalt g s
  | .iwait g d n => Sys2Proof.Machine.execIwait g d n s
  | .trap g n => Sys2Proof.Machine.execTrap g n s
  | .brk g n => Sys2Proof.Machine.execBrk g n s
  | .eret g => Sys2Proof.Machine.execEret g s
  | .ldb g d h o t => Sys2Proof.Machine.execLdb g d h o t s
  | .ldh g d h o t => Sys2Proof.Machine.execLdh g d h o t s
  | .ldw g d h o t => Sys2Proof.Machine.execLdw g d h o t s
  | .ldd g d h o t => Sys2Proof.Machine.execLdd g d h o t s
  | .ldbz g d h o t => Sys2Proof.Machine.execLdbz g d h o t s
  | .ldhz g d h o t => Sys2Proof.Machine.execLdhz g d h o t s
  | .ldwz g d h o t => Sys2Proof.Machine.execLdwz g d h o t s
  | .stb g d h o t => Sys2Proof.Machine.execStb g d h o t s
  | .sth g d h o t => Sys2Proof.Machine.execSth g d h o t s
  | .stw g d h o t => Sys2Proof.Machine.execStw g d h o t s
  | .std g d h o t => Sys2Proof.Machine.execStd g d h o t s
  | .vld g d h o t => Sys2Proof.Machine.execVld g d h o t s
  | .vst g d h o t => Sys2Proof.Machine.execVst g d h o t s
  | .vldb g d h o t => Sys2Proof.Machine.execVldb g d h o t s
  | .cbput g d n => Sys2Proof.Machine.execCbput g d n s
  | .cbget g d n => Sys2Proof.Machine.execCbget g d n s
  | .ldc g d h o t => Sys2Proof.Machine.execLdc g d h o t s
  | .stc g d h o t => Sys2Proof.Machine.execStc g d h o t s
  | .cbadvp g d o => Sys2Proof.Machine.execCbadvp g d o s
  | .cbadvc g d o => Sys2Proof.Machine.execCbadvc g d o s
  | .cbcfg g d o t => Sys2Proof.Machine.execCbcfg g d o t s
  | .wld4 g d h o t => Sys2Proof.Machine.execWld4 g d h o t s
  | .wld8 g d h o t => Sys2Proof.Machine.execWld8 g d h o t s
  | .ldfe g d h o t => Sys2Proof.Machine.execLdfe g d h o t s
  | .stef g d h o t => Sys2Proof.Machine.execStef g d h o t s
  | .ldff g d h o t => Sys2Proof.Machine.execLdff g d h o t s
  | .stff g d h o t => Sys2Proof.Machine.execStff g d h o t s
  | .feset g h o t => Sys2Proof.Machine.execFeset g h o t s
  | .feclr g h o t => Sys2Proof.Machine.execFeclr g h o t s
  | .ldacq g d h o w x => Sys2Proof.Machine.execLdacq g d h o w x s
  | .strel g d h o w x => Sys2Proof.Machine.execStrel g d h o w x s
  | .fence g w => Sys2Proof.Machine.execFence g w s
  | .amoaddW g d h o w q x => Sys2Proof.Machine.execAmoaddW g d h o w q x s
  | .amoaddD g d h o w q x => Sys2Proof.Machine.execAmoaddD g d h o w q x s
  | .amoandW g d h o w q x => Sys2Proof.Machine.execAmoandW g d h o w q x s
  | .amoandD g d h o w q x => Sys2Proof.Machine.execAmoandD g d h o w q x s
  | .amoorW g d h o w q x => Sys2Proof.Machine.execAmoorW g d h o w q x s
  | .amoorD g d h o w q x => Sys2Proof.Machine.execAmoorD g d h o w q x s
  | .amoxorW g d h o w q x => Sys2Proof.Machine.execAmoxorW g d h o w q x s
  | .amoxorD g d h o w q x => Sys2Proof.Machine.execAmoxorD g d h o w q x s
  | .amominW g d h o w q x => Sys2Proof.Machine.execAmominW g d h o w q x s
  | .amominD g d h o w q x => Sys2Proof.Machine.execAmominD g d h o w q x s
  | .amomaxW g d h o w q x => Sys2Proof.Machine.execAmomaxW g d h o w q x s
  | .amomaxD g d h o w q x => Sys2Proof.Machine.execAmomaxD g d h o w q x s
  | .amominzW g d h o w q x => Sys2Proof.Machine.execAmominzW g d h o w q x s
  | .amominzD g d h o w q x => Sys2Proof.Machine.execAmominzD g d h o w q x s
  | .amomaxzW g d h o w q x => Sys2Proof.Machine.execAmomaxzW g d h o w q x s
  | .amomaxzD g d h o w q x => Sys2Proof.Machine.execAmomaxzD g d h o w q x s
  | .amoswpW g d h o w q x => Sys2Proof.Machine.execAmoswpW g d h o w q x s
  | .amoswpD g d h o w q x => Sys2Proof.Machine.execAmoswpD g d h o w q x s
  | .amocasW g d h o w q x => Sys2Proof.Machine.execAmocasW g d h o w q x s
  | .amocasD g d h o w q x => Sys2Proof.Machine.execAmocasD g d h o w q x s
  | .amofaddW g d h o w q x => Sys2Proof.Machine.execAmofaddW g d h o w q x s
  | .tktwait g d h o => Sys2Proof.Machine.execTktwait g d h o s
  | .tktdone g h o => Sys2Proof.Machine.execTktdone g h o s
  | .xlat g d a kind => Sys2Proof.Machine.execXlat g d a kind s
  | .hinv g d => Sys2Proof.Machine.execHinv g d s
  | .hget g d a sel => Sys2Proof.Machine.execHget g d a sel s
  | .hchk g d a => Sys2Proof.Machine.execHchk g d a s
  | .scld g d h o w => Sys2Proof.Machine.execScld g d h o w s
  | .scst g d h o w => Sys2Proof.Machine.execScst g d h o w s
  | .scaddW g d h o w => Sys2Proof.Machine.execScaddW g d h o w s
  | .scaddD g d h o w => Sys2Proof.Machine.execScaddD g d h o w s
  | .wbinv g h o => Sys2Proof.Machine.execWbinv g h o s
  | .pfl2 g h o => Sys2Proof.Machine.execPfl2 g h o s
  | .vadd g d a b f x => Sys2Proof.Machine.execVadd g d a b f x s
  | .vsub g d a b f x => Sys2Proof.Machine.execVsub g d a b f x s
  | .vmul g d a b f x => Sys2Proof.Machine.execVmul g d a b f x s
  | .vfma g d a b f x => Sys2Proof.Machine.execVfma g d a b f x s
  | .vfms g d a b f x => Sys2Proof.Machine.execVfms g d a b f x s
  | .vabs g d a b f x => Sys2Proof.Machine.execVabs g d a b f x s
  | .vneg g d a b f x => Sys2Proof.Machine.execVneg g d a b f x s
  | .vmin g d a b f x => Sys2Proof.Machine.execVmin g d a b f x s
  | .vmax g d a b f x => Sys2Proof.Machine.execVmax g d a b f x s
  | .vand g d a b => Sys2Proof.Machine.execVand g d a b s
  | .vor g d a b => Sys2Proof.Machine.execVor g d a b s
  | .vxor g d a b => Sys2Proof.Machine.execVxor g d a b s
  | .vshl g d a b f => Sys2Proof.Machine.execVshl g d a b f s
  | .vshr g d a b f => Sys2Proof.Machine.execVshr g d a b f s
  | .vsra g d a b f => Sys2Proof.Machine.execVsra g d a b f s
  | .vcmpeq g d a b f x => Sys2Proof.Machine.execVcmpeq g d a b f x s
  | .vcmplt g d a b f x => Sys2Proof.Machine.execVcmplt g d a b f x s
  | .vcmple g d a b f x => Sys2Proof.Machine.execVcmple g d a b f x s
  | .vsel g d a b f x => Sys2Proof.Machine.execVsel g d a b f x s
  | .vmov g d a => Sys2Proof.Machine.execVmov g d a s
  | .vzero g d => Sys2Proof.Machine.execVzero g d s
  | .viota g d a b f x => Sys2Proof.Machine.execViota g d a b f x s
  | .vcvt g d a b f x => Sys2Proof.Machine.execVcvt g d a b f x s
  | .vpack g d a b f x => Sys2Proof.Machine.execVpack g d a b f x s
  | .vunpk g d a b f x => Sys2Proof.Machine.execVunpk g d a b f x s
  | .vquant g d a b f x => Sys2Proof.Machine.execVquant g d a b f x s
  | .vdequant g d a b f x => Sys2Proof.Machine.execVdequant g d a b f x s
  | .vtld g t n => Sys2Proof.Machine.execVtld g t n s
  | .vtcfg g t a lmode umode lo q => Sys2Proof.Machine.execVtcfg g t a lmode umode lo q s
  | .vtab g d a b f x => Sys2Proof.Machine.execVtab g d a b f x s
  | .vredsum g d a b f x => Sys2Proof.Machine.execVredsum g d a b f x s
  | .vredmax g d a b f x => Sys2Proof.Machine.execVredmax g d a b f x s
  | .vredmin g d a b f x => Sys2Proof.Machine.execVredmin g d a b f x s
  | .vredarg g d a b f x => Sys2Proof.Machine.execVredarg g d a b f x s
  | .vscan g d a b f x => Sys2Proof.Machine.execVscan g d a b f x s
  | .vbcast g d a b f x => Sys2Proof.Machine.execVbcast g d a b f x s
  | .vins g d a b f x => Sys2Proof.Machine.execVins g d a b f x s
  | .vext g d a b f x => Sys2Proof.Machine.execVext g d a b f x s
  | .vperm g d a b f x => Sys2Proof.Machine.execVperm g d a b f x s
  | .vslide g d a b f x => Sys2Proof.Machine.execVslide g d a b f x s
  | .vrev g d a b f x => Sys2Proof.Machine.execVrev g d a b f x s
  | .mpush g m ss => Sys2Proof.Machine.execMpush g m ss s
  | .mstep g m ss => Sys2Proof.Machine.execMstep g m ss s
  | .macc g m ss y => Sys2Proof.Machine.execMacc g m ss y s
  | .mdrain g m ss y => Sys2Proof.Machine.execMdrain g m ss y s
  | .mclr g m ss => Sys2Proof.Machine.execMclr g m ss s
  | .mfill g m ss y => Sys2Proof.Machine.execMfill g m ss y s
  | .mcfg g scb af acc dcb df rnd => Sys2Proof.Machine.execMcfg g scb af acc dcb df rnd s
  | .mmode g rank => Sys2Proof.Machine.execMmode g rank s
  | .mrowReg g a => Sys2Proof.Machine.execMrowReg g a s
  | .mrowImm g k => Sys2Proof.Machine.execMrowImm g k s
  | .tbind g t h o excl => Sys2Proof.Machine.execTbind g t h o excl s
  | .tunbind g t => Sys2Proof.Machine.execTunbind g t s
  | .tpin g t => Sys2Proof.Machine.execTpin g t s
  | .tunpin g t => Sys2Proof.Machine.execTunpin g t s
  | .tpf g h o => Sys2Proof.Machine.execTpf g h o s
  | .tinvAddr g h o => Sys2Proof.Machine.execTinvAddr g h o s
  | .tinvBinding g t => Sys2Proof.Machine.execTinvBinding g t s
  | .twst g t o v => Sys2Proof.Machine.execTwst g t o v s
  | .twstRow g t o n => Sys2Proof.Machine.execTwstRow g t o n s
  | .tstat g t d => Sys2Proof.Machine.execTstat g t d s
  | .cpy g t a b fill x => Sys2Proof.Machine.execCpy g t a b fill x s
  | .cpy2 g t a => Sys2Proof.Machine.execCpy2 g t a s
  | .gath g t a b k x => Sys2Proof.Machine.execGath g t a b k x s
  | .scat g t a b k x => Sys2Proof.Machine.execScat g t a b k x s
  | .kvw g t a x => Sys2Proof.Machine.execKvw g t a x s
  | .cpyr g t a => Sys2Proof.Machine.execCpyr g t a s
  | .cred g t a => Sys2Proof.Machine.execCred g t a s
  | .cgath g t a => Sys2Proof.Machine.execCgath g t a s
  | .bul g t a dup x => Sys2Proof.Machine.execBul g t a dup x s
  | .tlwait g t a q => Sys2Proof.Machine.execTlwait g t a q s
  | .tlget g t d sel => Sys2Proof.Machine.execTlget g t d sel s
  | .tlsig g t a => Sys2Proof.Machine.execTlsig g t a s
  | .gjoin g a b => Sys2Proof.Machine.execGjoin g a b s
  | .gleave g a => Sys2Proof.Machine.execGleave g a s
  | .gbar g a q => Sys2Proof.Machine.execGbar g a q s
  | .gwait g d q a => Sys2Proof.Machine.execGwait g d q a s
  | .tspawn g a => Sys2Proof.Machine.execTspawn g a s
  | .tdec g a => Sys2Proof.Machine.execTdec g a s
  | .tarm g a b => Sys2Proof.Machine.execTarm g a b s
  | .moveNull src g => Sys2Proof.Machine.execMoveNull src g s
  | .moveRowk src g => Sys2Proof.Machine.execMoveRowk src g s
  | .moveFmaA src g => Sys2Proof.Machine.execMoveFmaA src g s
  | .moveFmaT src g => Sys2Proof.Machine.execMoveFmaT src g s
  | .moveAcc src g => Sys2Proof.Machine.execMoveAcc src g s
  | .moveOut src g => Sys2Proof.Machine.execMoveOut src g s
  | .moveLcSet src g => Sys2Proof.Machine.execMoveLcSet src g s
  | .moveLcT src g => Sys2Proof.Machine.execMoveLcT src g s
  | .moveBr src g => Sys2Proof.Machine.execMoveBr src g s
  | .moveEnd src g => Sys2Proof.Machine.execMoveEnd src g s
  | .moveAcc1 src g => Sys2Proof.Machine.execMoveAcc1 src g s
  | .moveFmaT1 src g => Sys2Proof.Machine.execMoveFmaT1 src g s
  | .moveAddA src g => Sys2Proof.Machine.execMoveAddA src g s
  | .moveAddT src g => Sys2Proof.Machine.execMoveAddT src g s
  | .moveMulA src g => Sys2Proof.Machine.execMoveMulA src g s
  | .moveMulT src g => Sys2Proof.Machine.execMoveMulT src g s
  | .moveCmpA src g => Sys2Proof.Machine.execMoveCmpA src g s
  | .moveCmpT src g => Sys2Proof.Machine.execMoveCmpT src g s
  | .bundleDispatch => Sys2Proof.Machine.execBundleDispatch s
  | .bundleIssue => Sys2Proof.Machine.execBundleIssue s
  | .syncMet => Sys2Proof.Machine.execSyncMet s
  | .resultLanding => Sys2Proof.Machine.execResultLanding s
  | .cbFire => Sys2Proof.Machine.execCbFire s
  | .cbCountRise => Sys2Proof.Machine.execCbCountRise s
  | .replyArrival => Sys2Proof.Machine.execReplyArrival s
  | .segmentExpansionComplete => Sys2Proof.Machine.execSegmentExpansionComplete s
  | .segmentRefillComplete => Sys2Proof.Machine.execSegmentRefillComplete s
  | .tableSwap => Sys2Proof.Machine.execTableSwap s
  | .xlatComplete => Sys2Proof.Machine.execXlatComplete s
  | .pginvWrite => Sys2Proof.Machine.execPginvWrite s
  | .invalidationComplete => Sys2Proof.Machine.execInvalidationComplete s
  | .waymaskWrite => Sys2Proof.Machine.execWaymaskWrite s
  | .felWrite => Sys2Proof.Machine.execFelWrite s
  | .mb7Write => Sys2Proof.Machine.execMb7Write s
  | .mailboxWrite => Sys2Proof.Machine.execMailboxWrite s
  | .registerWrite => Sys2Proof.Machine.execRegisterWrite s
  | .tileFillComplete => Sys2Proof.Machine.execTileFillComplete s
  | .replicaCopyComplete => Sys2Proof.Machine.execReplicaCopyComplete s
  | .prefetchFillStart => Sys2Proof.Machine.execPrefetchFillStart s
  | .scrub => Sys2Proof.Machine.execScrub s
  | .uncorrectableError => Sys2Proof.Machine.execUncorrectableError s
  | .preemptionRequest => Sys2Proof.Machine.execPreemptionRequest s
  | .preemption => Sys2Proof.Machine.execPreemption s
  | .preemptionOverdue => Sys2Proof.Machine.execPreemptionOverdue s
  | .continuationPickup => Sys2Proof.Machine.execContinuationPickup s
  | .continuationKill => Sys2Proof.Machine.execContinuationKill s
  | .readyAgeing => Sys2Proof.Machine.execReadyAgeing s
  | .timeSliceSwitch => Sys2Proof.Machine.execTimeSliceSwitch s
  | .launchQueueTake => Sys2Proof.Machine.execLaunchQueueTake s
  | .graphReplayStart => Sys2Proof.Machine.execGraphReplayStart s
  | .graphReplayComplete => Sys2Proof.Machine.execGraphReplayComplete s
  | .nodeDecrement => Sys2Proof.Machine.execNodeDecrement s
  | .nodeArm => Sys2Proof.Machine.execNodeArm s
  | .engineCommandStart => Sys2Proof.Machine.execEngineCommandStart s
  | .commandRetire => Sys2Proof.Machine.execCommandRetire s
  | .remoteWindowWrite => Sys2Proof.Machine.execRemoteWindowWrite s
  | .collectiveResult => Sys2Proof.Machine.execCollectiveResult s
  | .migration => Sys2Proof.Machine.execMigration s
  | .migrationPagePull => Sys2Proof.Machine.execMigrationPagePull s
  | .bankUnitAccept => Sys2Proof.Machine.execBankUnitAccept s
  | .bankUnitResult => Sys2Proof.Machine.execBankUnitResult s
  | .bankRequestPromotion => Sys2Proof.Machine.execBankRequestPromotion s
  | .homeApply => Sys2Proof.Machine.execHomeApply s
  | .hotLineWithdraw => Sys2Proof.Machine.execHotLineWithdraw s
  | .switchCombine => Sys2Proof.Machine.execSwitchCombine s
  | .combineHoldExpiry => Sys2Proof.Machine.execCombineHoldExpiry s
  | .combinedReplySplit => Sys2Proof.Machine.execCombinedReplySplit s
  | .sailWheelApply => Sys2Proof.Machine.execSailWheelApply s
  | .rateLimitedSend => Sys2Proof.Machine.execRateLimitedSend s
  | .fabricLinkFailure => Sys2Proof.Machine.execFabricLinkFailure s
  | .supplySag => Sys2Proof.Machine.execSupplySag s
  | .timerMatch => Sys2Proof.Machine.execTimerMatch s
  | .faultReport => Sys2Proof.Machine.execFaultReport s
  | .bhSchedStop => Sys2Proof.Machine.execBhSchedStop s
  | .bhPreempt => Sys2Proof.Machine.execBhPreempt s
  | .bhQuiesceAbandon => Sys2Proof.Machine.execBhQuiesceAbandon s
  | .quiesceComplete => Sys2Proof.Machine.execQuiesceComplete s
  | .sluiceClose => Sys2Proof.Machine.execSluiceClose s
  | .sluiceCloseComplete => Sys2Proof.Machine.execSluiceCloseComplete s
  | .retentionSave => Sys2Proof.Machine.execRetentionSave s
  | .retentionSaveComplete => Sys2Proof.Machine.execRetentionSaveComplete s
  | .clockGate => Sys2Proof.Machine.execClockGate s
  | .clockStopped => Sys2Proof.Machine.execClockStopped s
  | .railOff => Sys2Proof.Machine.execRailOff s
  | .railDown => Sys2Proof.Machine.execRailDown s
  | .railOn => Sys2Proof.Machine.execRailOn s
  | .railUp => Sys2Proof.Machine.execRailUp s
  | .clockUngate => Sys2Proof.Machine.execClockUngate s
  | .pllLock => Sys2Proof.Machine.execPllLock s
  | .bhWipe => Sys2Proof.Machine.execBhWipe s
  | .wipeComplete => Sys2Proof.Machine.execWipeComplete s
  | .retentionRestore => Sys2Proof.Machine.execRetentionRestore s
  | .retentionRestoreComplete => Sys2Proof.Machine.execRetentionRestoreComplete s
  | .sluiceOpen => Sys2Proof.Machine.execSluiceOpen s
  | .sluiceOpenComplete => Sys2Proof.Machine.execSluiceOpenComplete s
  | .bhSchedResume => Sys2Proof.Machine.execBhSchedResume s
  | .bhWakeWrite => Sys2Proof.Machine.execBhWakeWrite s
  | .coreRestart => Sys2Proof.Machine.execCoreRestart s
  | .pwrlimWrite => Sys2Proof.Machine.execPwrlimWrite s
  | .ptabWrite => Sys2Proof.Machine.execPtabWrite s
  | .contextDescriptorWrite => Sys2Proof.Machine.execContextDescriptorWrite s
  | .bhReset => Sys2Proof.Machine.execBhReset s
  | .gkeyDestroy => Sys2Proof.Machine.execGkeyDestroy s
  | .lifecycleRequest => Sys2Proof.Machine.execLifecycleRequest s
  | .moduleReset => Sys2Proof.Machine.execModuleReset s
  | .lifetimeCounterCommit => Sys2Proof.Machine.execLifetimeCounterCommit s
  | .vfWake => Sys2Proof.Machine.execVfWake s
  | .vfHinv => Sys2Proof.Machine.execVfHinv s
  | .consentSubmit => Sys2Proof.Machine.execConsentSubmit s
  | .attestationRequest => Sys2Proof.Machine.execAttestationRequest s
  | .atsInvalidation => Sys2Proof.Machine.execAtsInvalidation s
  | .vfFlr => Sys2Proof.Machine.execVfFlr s
  | .pfFlr => Sys2Proof.Machine.execPfFlr s
  | .peerRequest => Sys2Proof.Machine.execPeerRequest s
  | .scairHeartbeat => Sys2Proof.Machine.execScairHeartbeat s
  | .scairXoff => Sys2Proof.Machine.execScairXoff s
  | .scairXon => Sys2Proof.Machine.execScairXon s
  | .scairReplayRequest => Sys2Proof.Machine.execScairReplayRequest s
  | .scairLinkDown => Sys2Proof.Machine.execScairLinkDown s
  | .scairFlitCrcFailure => Sys2Proof.Machine.execScairFlitCrcFailure s
  | .orderlyPowerDown => Sys2Proof.Machine.execOrderlyPowerDown s
  | .migrationBackgroundPush => Sys2Proof.Machine.execMigrationBackgroundPush s
  | .debugFreezeResume => Sys2Proof.Machine.execDebugFreezeResume s

end Sys2Proof.Machine
end

