-- ==== Sys2Proof/Machine/Round.lean ====
section
/-! DEFINITION. A round of the machine (the order in which cores, bank units and timed events take their turns), the turn of an
agent, and the placing of one instruction where a step fetches it. One round is one cycle of the 1.0 GHz clock of the cores,
which is also one count of TIME (R1, R353). -/

namespace Sys2Proof.Machine

/-! What happens by time alone. -/

/-- The buckets gain RATE / 2,000 tokens a fabric cycle, two a round, up to BURST; waiting requests are counted (R307, R308). -/
def fillBuckets (s : State) : State :=
  let running := ((s.cores.filterMap (fun (c, k) => k.running.map (fun r => (r.ctx, bulkOf c))))
    ++ s.engines.flatMap (fun (e, q) => q.queue.map (fun m => (m.ctx, engBulk e)))).eraseDups
  let listed := s.buckets.map (fun e => (e.1 / 64, e.1 % 64))
  ((listed ++ running.filter (fun e => !listed.contains e)).filter (fun e => s.rate e.1 e.2 != 0)).foldl (fun (t : State) (x, b) =>
    let k := t.bucket x b
    let waits := t.fabric.any (fun r => r.limited && r.ctx == x && bulkOf r.core == b)
      || t.engines.any (fun (e, q) => engBulk e == b && q.queue.any (fun m => m.paying && m.ctx == x))
    let burst : Int := wbits (t.limiter x b) 32 16 * 2000
    t.setBucket x b { k with tokens := if burst ≤ k.tokens then k.tokens else min burst (k.tokens + 2 * t.rate x b)
                             wait := if waits then k.wait + 2 else k.wait }) s

/-- The bin that counts a temperature (R386). -/
def temperatureBin (t : Int) : Nat := if t < 45 then 0 else min 15 (((t - 45) / 5).toNat + 1)
/-- Every second the bin of the hottest sensor counts one. -/
def countTemperature (s : State) : State :=
  if s.time % 1000000000 == 0 then s.count (0x30900 + 8 * temperatureBin (Config.hottest s.time)) 1 else s
/-- The timed events that are due: timers, overdue pre-emptions, ageing, heartbeats and lost links, temperatures, the commit of the
counters, promotions. -/
def timedEvents (s : State) : State :=
  let s1 := s.cores.foldl (fun (t : State) (c, k) => if (k.sysReg 0xA).toNat == t.time then matchTimer t c else t) s
  let s2 := s1.cores.foldl (fun (t : State) (c, _) => noteOverdue t c) s1
  let s3 := s2.ready.foldl (fun (t : State) (b, _) => ageReady t b) s2
  let s4 := countTemperature ((List.range 16).foldl (fun (t : State) p => linkDown (heartbeat t p) p) s3)
  let s5 := if s4.time % 60000000000 == 0 then commitCounters s4 else s4
  s5.banks.foldl (fun (t : State) (ch, u) => if u.runs.isEmpty then t else promoteRuns t ch) s5

/-- Idle cores choose in the order of their numbers (R266). -/
def pickAll (s : State) : State := s.ready.foldl (fun (t : State) (b, _) => (coresOf b).foldl pickNext t) s
/-- The launch queues with entries that their schedulers may take. -/
def seeQueues (s : State) : State :=
  s.queues.foldl (fun (t : State) (n, q) =>
    let x := t.bulk q.bulk
    if q.bound && !q.stopped && !q.moving && q.ahead != 0 && x.sched && x.state == 0 then t.pendOnce .launchQueueTake { unit := n } else t) s
/-- The turns of the next round: every core that runs, but those of a bulkhead whose clock a sag holds back (R39), then every
bank unit with a run. -/
def turnsOf (s : State) : List Agent :=
  (s.cores.filter (fun (c, k) => k.runs && !(s.bulk (bulkOf c)).sag)).map (fun (c, _) => Agent.core c)
    ++ (s.banks.filter (fun (_, u) => !u.runs.isEmpty)).map (fun (ch, _) => Agent.bank ch)
/-- A core that runs nothing has its cycles too: its tile fills go on. -/
def idleCycles (s : State) : State :=
  s.cores.foldl (fun (t : State) (c, k) =>
    if k.runs then t else (completeReplicas t c).modCore c (fun y => { y with cycle := y.cycle + 1 })) s
/-- The end of a round: TIME advances. -/
def endRound (s : State) : State :=
  let s1 := flushMsix (seeQueues (pickAll (timedEvents (fillBuckets (idleCycles { s with time := s.time + 1 })))))
  { s1 with agenda := turnsOf s1, bulks := s1.bulks.map (fun (b, x) => (b, { x with sag := false })) }

/-! Turns. -/

/-- The turn of a bank unit: its next move, or the end of a run whose move is illegal (R323). -/
def bankTurn (s : State) (ch : Nat) : Outcome :=
  let t : State := { s with ev := { unit := ch }, now := {} }
  match t.run with
  | none => .next t
  | some r =>
    match fetchMove t with
    | none => .next (t.endRun r none 3)
    | some op => issueOp op t
/-- The next turn of the round, or the end of it. -/
def takeTurn (s : State) : Outcome :=
  match s.agenda with
  | [] => .next (endRound s)
  | .core c :: rest => .next (coreCycle { s with agenda := rest } c)
  | .bank ch :: rest => bankTurn { s with agenda := rest } ch

/-! Placing an instruction. -/

/-- The header of a bundle that ends its segment and has one new syllable. -/
def oneHeader (slot : Nat) (safe : Bool) : W32 := BitVec.ofNat 32 (2 ^ (24 + slot) + b2n safe * 2 ^ 8 + 2 ^ 7)
/-- Where a placed bundle stands: the header of its segment, and its own. -/
def placedHead : Nat := 0x1000
def placedAt : Nat := placedHead + 16
/-- A segment of one bundle with the words of an instruction. -/
def oneSegment (w : Nat) (safe : Bool) : Seg :=
  let syl : W32 := BitVec.ofNat 32 w
  { head := placedHead, next := 0, hint := 0, bad := 0
    words := [oneHeader (tableSlot w) safe, syl] ++ (if wbit (syl.setWidth 64) 23 then [BitVec.ofNat 32 (w / 2 ^ 32)] else []) }
/-- The continuation of a placed instruction on a core that has none. -/
def placedRun : Running := { recA := 0, ctx := 0, part := 0, group := 0, node := 0, param := 0, frame := 0x10000 }

/-- A syllable is placed on core 0: its segment stands in the loop buffer, and the core's next cycle dispatches and issues it.
yield and susp need a safe point, eret needs the core to be in service. -/
def placeSyllable (s : State) (w : Nat) : State :=
  let i := decodeTableWord 32 w
  let leaves := match i with | some (.yield _) => true | some (.susp _) => true | _ => false
  let returns := match i with | some (.eret _) => true | _ => false
  let k := s.core 0
  let run := k.running.getD placedRun
  let k1 : Core := { k with
    active := true, running := some { run with dbg := false }, pc := placedAt, rptK := 0, issues := [], brWait := none
    seg := some (oneSegment w leaves), other := none, expandLeft := 0, refill := 0, refillTo := none, drain := .none, skipSlots := []
    slots := k.slots.map (fun sl => { sl with next := k.nextIdx }) }
  let k2 := if returns then { k1.setSys 3 (wput (k1.sysReg 3) 63 1 1) with frozen := some (k.freezeState { code := 0, cause := 0, res := 0 } 0 false []) } else k1
  let s1 := s.setCore 0 k2
  { s1 with
    pending := [], agenda := [.core 0]
    safePoints := if leaves then mput s1.safePoints run.part ({ adr := placedAt } :: mget [] s1.safePoints run.part) else s1.safePoints }
/-- A move is placed as the program of a run of bank unit 0. -/
def placeMove (s : State) (w : Nat) : State :=
  let s1 := s.setBank 0 { s.bank 0 with busy := true, prog := [BitVec.ofNat 16 w, 0], keys := [(0, 0x10000)], olen := 4096, runs := [{}] }
  { s1 with pending := [], agenda := [.bank 0] }

end Sys2Proof.Machine
end

