-- ==== Sys2Proof/Machine/Step.lean ====
section
/-! DEFINITION. One step of the machine: an event that may happen now, or the next turn of the round. -/

namespace Sys2Proof.Machine

/-- The pending event that comes next, if one does: the spec leaves its time open (Config.pick). -/
def State.chosen (s : State) : Nat := Config.pick s.choice % (s.pending.length + 1)

/-- One step. With no event pending it is the next turn; otherwise a free choice takes one of the events or the turn. -/
def step (s : State) : Host.Outcome State Fault Refusal :=
  match s.pending with
  | [] => takeTurn { s with free := s.free + 1 }
  | _ :: _ =>
    match s.pending[s.chosen]? with
    | none => takeTurn { s with free := s.free + 1, choice := s.choice + 1 }
    | some p => exec p.event { s with free := s.free + 1, choice := s.choice + 1, pending := s.pending.eraseIdx s.chosen, ev := p.args, now := {} }

/-- The machine with an instruction, laid out as the opcode table numbers its words, where the next step fetches it. -/
def State.withFetchWord (s : State) (nbits w : Nat) : State := if nbits == 16 then placeMove s w else placeSyllable s w

end Sys2Proof.Machine
end

