-- ==== Sys2Proof/Safety.lean ====
section
/-! DEFINITION. The vocabulary of the statements: when an operation takes effect, what it yields, the invariant of the
machine, and the results of spec/04 written with the operations of bit vectors. -/

namespace Sys2Proof.Machine

/-- An operation takes effect: its guard holds (R43) and eret does not skip it (R334). -/
def State.live (s : State) (g : Guard) : Prop := s.me.guardHolds g = true ∧ s.now.skip = false

/-- The issue notes its weight (R36) and nothing else. -/
def State.weighs (s : State) (w : Nat) : State := { s with now := { s.now with weight := w } }

/-- The state after an issue that yields results and does nothing else: its weight is noted, and each result is in flight
with its latency (R16), in this order. -/
def State.yields (s : State) (w : Nat) (rs : List (Nat × Landing)) : State := rs.foldl (fun t r => t.emit r.1 r.2) (s.weighs w)

/-- The issue in progress waits: it takes effect in a later cycle (R25). -/
def State.waitsNow (s : State) (w : Nat) : State := (s.weighs w).stall

/-- The invariant: memory is in its canonical form. -/
def State.Inv (s : State) : Prop := s.mem.wf = true

/-- The results that land now: due, and without a trap of their own. -/
def Core.landsNow (k : Core) : List Flight := k.flights.filter (fun f => k.isDue f && !f.traps)

/-! The values of R61 to R67, written with bit-vector operations. -/

/-- Bits 31:0, and the write-back of a .w result (R61). -/
def low (x : Word) : W32 := x.setWidth 32
def sx (x : W32) : Word := x.signExtend 64

/-- Lane n of a vector value in a format (R107). -/
def laneOf (f : Fmt) (v : Vec) (n : Nat) : BitVec f.width := BitVec.ofNat f.width (v.toNat / 2 ^ (f.width * n))

/-! Conditions that several statements share. -/

/-- R76: a target from a register passes its check when bits 63:48 and 1:0 are 0, and it is a bundle header where it lies inside
the executing segment, or has bits 3:0 zero where it lies outside. -/
def targetPasses (k : Core) (v : Word) : Prop :=
  v.toNat < 2 ^ 48 ∧ v.toNat % 4 = 0 ∧
    ((∃ sg, k.seg = some sg ∧ sg.covers v.toNat = true ∧ sg.holds v.toNat = true) ∨
     ((∀ sg, k.seg = some sg → sg.covers v.toNat = false) ∧ v.toNat % 16 = 0))

/-- R193, R229: an access of z bytes at offset a of the scratchpad passes its checks. -/
def scratchFits (a z : Nat) : Prop := a + z ≤ 0x100000 ∧ a % max 1 (min z 256) = 0

/-- The atomics of R241 with a register operand, each with its operation and its size in bytes. -/
def amoForms (g : Guard) (d : SReg) (h : HReg) (o : SReg) (w : Scope) (q : Bool) (x : Option W32) : List (Instr × AmoOp × Nat) :=
  [(.amoaddW g d h o w q x, .add, 4), (.amoaddD g d h o w q x, .add, 8), (.amoandW g d h o w q x, .and, 4), (.amoandD g d h o w q x, .and, 8),
   (.amoorW g d h o w q x, .or, 4), (.amoorD g d h o w q x, .or, 8), (.amoxorW g d h o w q x, .xor, 4), (.amoxorD g d h o w q x, .xor, 8),
   (.amominW g d h o w q x, .min, 4), (.amominD g d h o w q x, .min, 8), (.amomaxW g d h o w q x, .max, 4), (.amomaxD g d h o w q x, .max, 8),
   (.amominzW g d h o w q x, .minz, 4), (.amominzD g d h o w q x, .minz, 8), (.amomaxzW g d h o w q x, .maxz, 4),
   (.amomaxzD g d h o w q x, .maxz, 8), (.amoswpW g d h o w q x, .swp, 4), (.amoswpD g d h o w q x, .swp, 8)]

/-- What R241 writes, from the old value and the operand as bit vectors. -/
def amoWrites {n : Nat} (op : AmoOp) (old x : BitVec n) : BitVec n :=
  match op with
  | .add => old + x
  | .and => old &&& x
  | .or => old ||| x
  | .xor => old ^^^ x
  | .min => if x.slt old then x else old
  | .max => if old.slt x then x else old
  | .minz => if x.ult old then x else old
  | .maxz => if old.ult x then x else old
  | .swp => x

/-- A core with nothing on its way into its scratchpad, whose slot waits for no reply. -/
def quiet (s : State) : Prop := s.me.flights = [] ∧ s.me.mark.gated = [] ∧ (s.me.slot s.now.slot).waiting = none

/-- The bindings a beat selects, as index within the set and slot, in the order of their numbers (R164). -/
def beatOn (s : State) (m : BitVec 8) (st : Bool) : List (Nat × Nat) := (selected m st).map (fun e => (e.1, (s.me.bind e.2).slot))
/-- A beat passes the checks of R166, no slot it reads has a parity error (R172), and it does its work. -/
def beatGoes (s : State) (m : BitVec 8) (st : Bool) : Prop :=
  m ≠ 0 ∧ (∀ e ∈ selected m st, s.me.bindReady e.2 = true) ∧ ((beatOn s m st).map (fun e => e.2 / 8)).Nodup ∧
    ∀ e ∈ beatOn s m st, (s.me.tile e.2).sound = true

end Sys2Proof.Machine
end

