-- ==== Sys2Proof/Certificates/Slice0/Obligations.lean ====
section
/-! DEFINITION. The statements: what the rules of spec/ say the machine and its instructions do. -/

open Sys2Proof
open Sys2Proof.Machine

/-! Slots SA and SB (spec/04 R61 to R72). -/

/-- R61, R62: add, sub and mul, 64-bit and .w forms. The result is in flight with the latency of R17. R62, R63: high products, quotients
and remainders, with the borderline cases of the table of R63. R62: the bitwise operations, and the smaller and the larger of two
sources as signed or as unsigned integers. -/
def Obligations.Arithmetic : Prop :=
  (∀ (s : State) (g : Guard) (d a b : SReg), s.live g →
    exec (.add g d a b false) s = .next (s.yields 1 [(1, .s d (s.me.rs a + s.me.rs b))]) ∧
    exec (.add g d a b true) s = .next (s.yields 1 [(1, .s d (sx (low (s.me.rs a) + low (s.me.rs b))))]) ∧
    exec (.sub g d a b false) s = .next (s.yields 1 [(1, .s d (s.me.rs a - s.me.rs b))]) ∧
    exec (.sub g d a b true) s = .next (s.yields 1 [(1, .s d (sx (low (s.me.rs a) - low (s.me.rs b))))]) ∧
    exec (.mul g d a b false) s = .next (s.yields 2 [(3, .s d (s.me.rs a * s.me.rs b))]) ∧
    exec (.mul g d a b true) s = .next (s.yields 2 [(3, .s d (sx (low (s.me.rs a) * low (s.me.rs b))))])) ∧
  (∀ (s : State) (g : Guard) (d a b : SReg), s.live g →
    let x := s.me.rs a
    let y := s.me.rs b
    exec (.mulhi g d a b false) s = .next (s.yields 2 [(3, .s d (BitVec.ofInt 64 (x.toInt * y.toInt / 2 ^ 64)))]) ∧
    exec (.mulhi g d a b true) s = .next (s.yields 2 [(3, .s d (sx (BitVec.ofInt 32 ((low x).toInt * (low y).toInt / 2 ^ 32))))]) ∧
    exec (.mulhz g d a b false) s = .next (s.yields 2 [(3, .s d (BitVec.ofNat 64 (x.toNat * y.toNat / 2 ^ 64)))]) ∧
    exec (.mulhz g d a b true) s = .next (s.yields 2 [(3, .s d (sx (BitVec.ofNat 32 ((low x).toNat * (low y).toNat / 2 ^ 32))))]) ∧
    exec (.div g d a b false) s = .next (s.yields 2 [(18, .s d (if y = 0 then BitVec.allOnes 64 else x.sdiv y))]) ∧
    exec (.div g d a b true) s =
      .next (s.yields 2 [(18, .s d (if low y = 0 then BitVec.allOnes 64 else sx ((low x).sdiv (low y))))]) ∧
    exec (.divz g d a b false) s = .next (s.yields 2 [(18, .s d (if y = 0 then BitVec.allOnes 64 else x / y))]) ∧
    exec (.divz g d a b true) s =
      .next (s.yields 2 [(18, .s d (if low y = 0 then BitVec.allOnes 64 else sx (low x / low y)))]) ∧
    exec (.rem g d a b false) s = .next (s.yields 2 [(18, .s d (if y = 0 then x else x.srem y))]) ∧
    exec (.rem g d a b true) s = .next (s.yields 2 [(18, .s d (sx (if low y = 0 then low x else (low x).srem (low y))))]) ∧
    exec (.remz g d a b false) s = .next (s.yields 2 [(18, .s d (if y = 0 then x else x % y))]) ∧
    exec (.remz g d a b true) s = .next (s.yields 2 [(18, .s d (sx (if low y = 0 then low x else low x % low y)))])) ∧
  (∀ (s : State) (g : Guard) (d a b : SReg), s.live g →
    let x := s.me.rs a
    let y := s.me.rs b
    exec (.and g d a b) s = .next (s.yields 1 [(1, .s d (x &&& y))]) ∧
    exec (.or g d a b) s = .next (s.yields 1 [(1, .s d (x ||| y))]) ∧
    exec (.xor g d a b) s = .next (s.yields 1 [(1, .s d (x ^^^ y))]) ∧
    exec (.andn g d a b) s = .next (s.yields 1 [(1, .s d (x &&& ~~~y))]) ∧
    exec (.min g d a b false) s = .next (s.yields 1 [(1, .s d (if x.toInt ≤ y.toInt then x else y))]) ∧
    exec (.min g d a b true) s =
      .next (s.yields 1 [(1, .s d (sx (if (low x).toInt ≤ (low y).toInt then low x else low y)))]) ∧
    exec (.max g d a b false) s = .next (s.yields 1 [(1, .s d (if x.toInt ≤ y.toInt then y else x))]) ∧
    exec (.max g d a b true) s =
      .next (s.yields 1 [(1, .s d (sx (if (low x).toInt ≤ (low y).toInt then low y else low x)))]) ∧
    exec (.minz g d a b false) s = .next (s.yields 1 [(1, .s d (if x ≤ y then x else y))]) ∧
    exec (.minz g d a b true) s = .next (s.yields 1 [(1, .s d (sx (if low x ≤ low y then low x else low y)))]) ∧
    exec (.maxz g d a b false) s = .next (s.yields 1 [(1, .s d (if x ≤ y then y else x))]) ∧
    exec (.maxz g d a b true) s = .next (s.yields 1 [(1, .s d (sx (if low x ≤ low y then low y else low x)))]))

/-- R64, R65: shifts and rotates by bits 5:0 (.w: 4:0) of a register, and shifts by an immediate of 0 to 63 (.w: 0 to 31). R65, R66: the
other immediate forms and the moves; m is I or the extension word, sign-extended. R72, R17: sysr sets s(S) to the register numbered N as
it reads in the issue cycle, sysw sends s(S) to it, sysx does both; each reaches its readers after 2 cycles. -/
def Obligations.ShiftsImmediatesAndMoves : Prop :=
  (∀ (s : State) (g : Guard) (d a b : SReg), s.live g →
    let x := s.me.rs a
    let n := (s.me.rs b).toNat % 64
    let n32 := (s.me.rs b).toNat % 32
    exec (.shl g d a b false) s = .next (s.yields 1 [(1, .s d (x <<< n))]) ∧
    exec (.shl g d a b true) s = .next (s.yields 1 [(1, .s d (sx (low x <<< n32)))]) ∧
    exec (.shr g d a b false) s = .next (s.yields 1 [(1, .s d (x >>> n))]) ∧
    exec (.shr g d a b true) s = .next (s.yields 1 [(1, .s d (sx (low x >>> n32)))]) ∧
    exec (.sra g d a b false) s = .next (s.yields 1 [(1, .s d (x.sshiftRight n))]) ∧
    exec (.sra g d a b true) s = .next (s.yields 1 [(1, .s d (sx ((low x).sshiftRight n32)))]) ∧
    exec (.rol g d a b false) s = .next (s.yields 1 [(1, .s d (x.rotateLeft n))]) ∧
    exec (.rol g d a b true) s = .next (s.yields 1 [(1, .s d (sx ((low x).rotateLeft n32)))]) ∧
    (∀ m : Imm, WellFormed (.shli g d a m) = true →
      let k := match m with | .short i => i.toNat | .ext w => w.toNat
      k < 64 ∧ exec (.shli g d a m) s = .next (s.yields 1 [(1, .s d (x <<< k))]) ∧
      exec (.shri g d a m) s = .next (s.yields 1 [(1, .s d (x >>> k))]) ∧
      exec (.srai g d a m) s = .next (s.yields 1 [(1, .s d (x.sshiftRight k))])) ∧
    (∀ i : BitVec 7, WellFormed (.shliW g d a i) = true →
      i.toNat < 32 ∧ exec (.shliW g d a i) s = .next (s.yields 1 [(1, .s d (sx (low x <<< i.toNat)))]) ∧
      exec (.shriW g d a i) s = .next (s.yields 1 [(1, .s d (sx (low x >>> i.toNat)))]) ∧
      exec (.sraiW g d a i) s = .next (s.yields 1 [(1, .s d (sx ((low x).sshiftRight i.toNat)))]))) ∧
  (∀ (s : State) (g : Guard) (d a : SReg) (m : Imm), s.live g →
    let x := s.me.rs a
    let v : Word := match m with | .short i => i.signExtend 64 | .ext w => w.signExtend 64
    exec (.addi g d a m) s = .next (s.yields 1 [(1, .s d (x + v))]) ∧
    exec (.addiW g d a m) s = .next (s.yields 1 [(1, .s d (sx (low x + low v)))]) ∧
    exec (.andi g d a m) s = .next (s.yields 1 [(1, .s d (x &&& v))]) ∧
    exec (.ori g d a m) s = .next (s.yields 1 [(1, .s d (x ||| v))]) ∧
    exec (.xori g d a m) s = .next (s.yields 1 [(1, .s d (x ^^^ v))]) ∧
    exec (.mov g d a) s = .next (s.yields 1 [(1, .s d x)]) ∧
    exec (.li g d m) s = .next (s.yields 1 [(1, .s d v)]) ∧
    exec (.lih g d a m) s = .next (s.yields 1 [(1, .s d (low v ++ low x))])) ∧
  (∀ (s : State) (g : Guard) (r : SReg) (n : BitVec 13), s.live g →
    exec (.sysr g r n) s = .next (s.yields 1 [(2, .s r (readSys s s.cur n.toNat))]) ∧
    exec (.sysw g r n) s = .next (s.yields 1 [(2, .sys n.toNat (s.me.rs r))]) ∧
    exec (.sysx g r n) s = .next (s.yields 1 [(2, .s r (readSys s s.cur n.toNat)), (2, .sys n.toNat (s.me.rs r))]))

/-- R62: the counts of zero and of one bits. The number n of leading (trailing) zeros is the one with n zero bits and then a one bit, or
the width for zero; popc counts the bit positions that hold a one. R67: bit fields, bit by bit. bext reads w bits from l on,
zero-extended; bins replaces bits l to min(l + w, 64) - 1; sext and zext copy bit k - 1 or 0 into the bits from k on. -/
def Obligations.BitCountsAndFields : Prop :=
  (∀ (s : State) (g : Guard) (d a : SReg) (k : Bool), s.live g →
    let x := s.me.rs a
    let w := if k then 32 else 64
    (∃ n, exec (.clz g d a k) s = .next (s.yields 1 [(1, .s d (BitVec.ofNat 64 n))]) ∧ n ≤ w ∧
      (∀ i, i < n → x.getLsbD (w - 1 - i) = false) ∧ (n < w → x.getLsbD (w - 1 - n) = true)) ∧
    (∃ n, exec (.ctz g d a k) s = .next (s.yields 1 [(1, .s d (BitVec.ofNat 64 n))]) ∧ n ≤ w ∧
      (∀ i, i < n → x.getLsbD i = false) ∧ (n < w → x.getLsbD n = true)) ∧
    exec (.popc g d a k) s =
      .next (s.yields 1 [(1, .s d (BitVec.ofNat 64 ((List.range w).countP (fun i => x.getLsbD i))))])) ∧
  (∀ (s : State) (g : Guard) (d a b : SReg), s.live g →
    let x := s.me.rs a
    let l := (s.me.rs b).toNat % 64
    let w := min ((s.me.rs b).toNat / 256 % 128) 64
    (∃ r, exec (.bext g d a b) s = .next (s.yields 1 [(1, .s d r)]) ∧
      ∀ i, i < 64 → r.getLsbD i = (decide (i < w) && x.getLsbD (l + i))) ∧
    (∃ r, exec (.bins g d a b) s = .next (s.yields 1 [(1, .s d r)]) ∧
      ∀ i, i < 64 → r.getLsbD i = if l ≤ i ∧ i < l + w then x.getLsbD (i - l) else (s.me.rs d).getLsbD i) ∧
    (∀ k : BitVec 7, WellFormed (.sext g d a k) = true →
      (∃ r, exec (.sext g d a k) s = .next (s.yields 1 [(1, .s d r)]) ∧
        ∀ i, i < 64 → r.getLsbD i = if i < k.toNat then x.getLsbD i else x.getLsbD (k.toNat - 1)) ∧
      (∃ r, exec (.zext g d a k) s = .next (s.yields 1 [(1, .s d r)]) ∧
        ∀ i, i < 64 → r.getLsbD i = (decide (i < k.toNat) && x.getLsbD i))))

/-- R69: the twelve compares. pQ receives the test, pQ2 its complement. R70, R71: predicate logic; pset writes p1 to p7 under its mask,
pget reads all eight. -/
def Obligations.ComparesAndPredicates : Prop :=
  (∀ (s : State) (g : Guard) (q q2 : PReg) (a : SReg) (o : CmpOpnd), s.live g →
    let x := s.me.rs a
    let y : Word := match o with | .reg b => s.me.rs b | .imm i => i.signExtend 64 | .ext w => w.signExtend 64
    let both (r : Bool) : Host.Outcome State Fault Refusal := .next (s.yields 1 [(1, .p q r), (1, .p q2 (!r))])
    exec (.cmpeq g q q2 a o) s = both (decide (x = y)) ∧
    exec (.cmpne g q q2 a o) s = both (decide (x ≠ y)) ∧
    exec (.cmplt g q q2 a o) s = both (x.slt y) ∧
    exec (.cmple g q q2 a o) s = both (x.sle y) ∧
    exec (.cmpltz g q q2 a o) s = both (x.ult y) ∧
    exec (.cmplez g q q2 a o) s = both (x.ule y) ∧
    exec (.cmpeqW g q q2 a o) s = both (decide (low x = low y)) ∧
    exec (.cmpneW g q q2 a o) s = both (decide (low x ≠ low y)) ∧
    exec (.cmpltW g q q2 a o) s = both ((low x).slt (low y)) ∧
    exec (.cmpleW g q q2 a o) s = both ((low x).sle (low y)) ∧
    exec (.cmpltzW g q q2 a o) s = both ((low x).ult (low y)) ∧
    exec (.cmplezW g q q2 a o) s = both ((low x).ule (low y))) ∧
  (∀ (s : State) (g : Guard) (q pa pb : PReg) (na nb : Bool) (d a b : SReg), s.live g →
    let x := xor (s.me.rp pa) na
    let y := xor (s.me.rp pb) nb
    exec (.pand g q pa pb na nb) s = .next (s.yields 1 [(1, .p q (x && y))]) ∧
    exec (.por g q pa pb na nb) s = .next (s.yields 1 [(1, .p q (x || y))]) ∧
    exec (.pxor g q pa pb na nb) s = .next (s.yields 1 [(1, .p q (xor x y))]) ∧
    exec (.pnot g q pa na) s = .next (s.yields 1 [(1, .p q (!x))]) ∧
    exec (.pset g a b) s = .next (s.yields 1 (([1, 2, 3, 4, 5, 6, 7].filter (fun i => (s.me.rs b).getLsbD i)).map
      (fun i => (1, .p (BitVec.ofNat 3 i) ((s.me.rs a).getLsbD i))))) ∧
    (∃ v, exec (.pget g d) s = .next (s.yields 1 [(1, .s d v)]) ∧
      (∀ i : PReg, v.getLsbD i.toNat = s.me.rp i) ∧ (∀ i, 8 ≤ i → v.getLsbD i = false)))

/-! Slot BR (spec/04 R73 to R83, spec/21 R347 to R350). -/

/-- R73, R74: b and bl transfer to the header address + 4 * O. Inside the executing segment the next bundle issues without a refill; to
an address that is neither there nor the start of the prefetched segment a refill of 40 cycles comes first (R34). bl also sends the
fall-through address to s63. R75, R76: br, call and ret transfer to s(A); call writes the fall-through address into s(D) with latency 1;
ret differs from br only in the count of returns. A target that fails the check of R76 transfers nothing: the illegal-bundle trap is
taken, with the link of call on its way and the return counted; while a slot still has to issue an earlier bundle it waits. That the
segment just left is not kept as a prefetched one is the model's choice (log entry 92). -/
def Obligations.BranchesAndTransfers : Prop :=
  (∀ (s : State) (g : Guard) (o : BitVec 19) (target : Nat), s.live g →
    (target : Int) = (s.now.adr : Int) + 4 * o.toInt → target < 2 ^ 48 →
    ∃ t u, exec (.b g o) s = .next t ∧ exec (.bl g o) s = .next u ∧
      t.now.taken = true ∧ u.now.taken = true ∧ t.me.pc = target ∧ u.me.pc = target ∧
      (∀ sg, s.me.seg = some sg → sg.holds target = true →
        t.me = { s.me with pc := target, rptK := 0, refill := 0 }) ∧
      ((∀ sg, s.me.seg = some sg → sg.holds target = false) → (∀ sg, s.me.other = some sg → sg.first ≠ target) →
        t.me.refill = 40 ∧ t.me.seg = none ∧ t.me.other = none) ∧
      t.me.s = s.me.s ∧ t.me.flights = s.me.flights ∧
      u.me = { t.me with flights := s.me.flights ++ [{ slot := s.now.slot, due := s.now.clk + 1, seq := s.now.seq,
                                                       what := .s 63 (BitVec.ofNat 64 s.now.fall), adr := s.now.adr }] } ∧
      t.mem = s.mem ∧ u.mem = s.mem) ∧
  (∀ (s : State) (g : Guard) (d a : SReg), s.live g →
    (targetPasses s.me (s.me.rs a) →
      exec (.br g a) s = .next (transfer (s.weighs 1) s.cur (s.me.rs a).toNat) ∧
      exec (.call g d a) s = .next (transfer ((s.weighs 1).result 1 d (BitVec.ofNat 64 s.now.fall)) s.cur (s.me.rs a).toNat) ∧
      exec (.ret g a) s =
        .next (transfer ((s.weighs 1).modMe (fun k => { k with returns := k.returns + 1 })) s.cur (s.me.rs a).toNat) ∧
      (transfer (s.weighs 1) s.cur (s.me.rs a).toNat).me.pc = (s.me.rs a).toNat) ∧
    (¬ targetPasses s.me (s.me.rs a) →
      let failed : TrapRec := { code := 1, cause := 0, res := 3, adr := (s.me.rs a).toNat, ilb := BitVec.ofNat 64 (3 * 2 ^ 44), after := true }
      let linked := (s.weighs 1).result 1 d (BitVec.ofNat 64 s.now.fall)
      let counted := (s.weighs 1).modMe (fun k => { k with returns := k.returns + 1 })
      let waits (u : State) : State := u.modMe (fun k => { k with drain := .illegal failed })
      ((∀ j, j < 7 → s.me.nextIdx ≤ (s.me.slot j).next) →
        exec (.br g a) s = .next (takeTrap failed (s.weighs 1)) ∧ exec (.call g d a) s = .next (takeTrap failed linked) ∧
        exec (.ret g a) s = .next (takeTrap failed counted)) ∧
      ((∃ j, j < 7 ∧ (s.me.slot j).next < s.me.nextIdx) →
        exec (.br g a) s = .next (waits (s.weighs 1)) ∧ exec (.call g d a) s = .next (waits linked) ∧
        exec (.ret g a) s = .next (waits counted))))

/-- R80, R81: disp selects by the count an entry of a table of ten 8-byte entries, waits four cycles, reads the entry at their end (log
entry 93) and transfers there; a table that crosses 0x100000 or is not aligned traps with code 8. The handle 15 in that trap's record is
the model's choice (log entry 94). That an entry whose granule carries a poison mark is used as it stands is the model's reading (log
entry 43). -/
def Obligations.BucketDispatch : Prop :=
  (∀ (s : State) (g : Guard) (a b : SReg), s.live g →
    let cnt := (s.me.rs a).toNat
    let table := (s.me.rs b).toNat
    let bkt (i : Nat) : Nat := (readSys s s.cur (0x18 + i)).toNat % 2 ^ 32
    (table + 80 > 0x100000 →
      exec (.disp g a b) s = .next ((s.weighs 1).trap { code := 8, cause := 2, res := 1, hnd := 15, va := table })) ∧
    (table + 80 ≤ 0x100000 → table % 8 ≠ 0 →
      exec (.disp g a b) s = .next ((s.weighs 1).trap { code := 8, cause := 3, res := 1, hnd := 15, va := table })) ∧
    (table + 80 ≤ 0x100000 → table % 8 = 0 → ∀ e,
      ((cnt = 0 ∧ e = 0) ∨
       (cnt ≠ 0 ∧ (∃ i, i < 8 ∧ cnt ≤ bkt i ∧ (∀ j, j < i → bkt j < cnt) ∧ e = 1 + i)) ∨
       (cnt ≠ 0 ∧ (∀ i, i < 8 → bkt i < cnt) ∧ e = 9)) →
      ∃ t, exec (.disp g a b) s = .next t ∧ t.me = { s.me with dispAt := some (table + 8 * e), refill := 4 } ∧ t.now.taken = true ∧
        t.mem = s.mem)) ∧
  (∀ (s : State) (a : Nat), s.me.dispAt = some a → s.me.flights = [] →
    let entry : Word := bytesToWord (s.me.gatedView.scratchRead a 8)
    targetPasses s.me entry →
      dispJump s s.cur = transfer (s.modMe (fun k => { k with dispAt := none })) s.cur entry.toNat)

/-- R77: loop and loopi. The trip count is s(C) as a signed number between 0 and 2^32 - 1, or the immediate; every active loop at that
counter or higher ends; with a trip count of 0 the body is skipped. R78: at the end bundle of an active loop the counter falls by one;
while it is not 0 control goes to the first body bundle, and at 0 the loop ends and control falls through. Stated where LDRAIN is not
valid (R273) and no higher loop ends there. -/
def Obligations.Loops : Prop :=
  (∀ (s : State) (g : Guard) (l : LcReg) (c : SReg) (m : Count) (e : BitVec 11), s.live g → s.me.loops.length = 4 →
    let last := s.now.adr + 4 * e.toNat
    let started (n : Nat) (t : State) : Prop :=
      t.me.loop l.toNat = { count := BitVec.ofNat 32 n, active := decide (n ≠ 0), first := s.now.fall, last := last } ∧
      (∀ i, i < 4 → l.toNat < i → t.me.loop i = { s.me.loop i with active := false }) ∧
      (∀ i, i < l.toNat → t.me.loop i = s.me.loop i) ∧ t.me.s = s.me.s ∧ t.me.flights = s.me.flights ∧ t.mem = s.mem ∧
      (n ≠ 0 → t.me.pc = s.me.pc ∧ t.now.taken = s.now.taken) ∧
      (n = 0 → t.now.taken = true ∧ ∀ sg, s.me.seg = some sg → sg.fall last (sg.bundleAt last) ≠ 0 →
        t.me.pc = sg.fall last (sg.bundleAt last))
    (∃ t, exec (.loop g l c e) s = .next t ∧
      started (if (s.me.rs c).toInt ≤ 0 then 0 else min (s.me.rs c).toNat (2 ^ 32 - 1)) t) ∧
    (∃ t, exec (.loopi g l m e) s = .next t ∧ started (match m with | .short i => i.toNat | .ext w => w.toNat) t)) ∧
  (∀ (s : State) (c adr fall i : Nat), i < 4 → (s.core c).loops.length = 4 → wbit ((s.core c).sysReg 8) 63 = false →
    ((s.core c).loop i).active = true → ((s.core c).loop i).last = adr → ((s.core c).loop i).count ≠ 0 →
    (∀ j, j < 4 → j ≠ i → ((s.core c).loop j).active = false ∨ ((s.core c).loop j).last ≠ adr) → fall ≠ 0 →
    let n := ((s.core c).loop i).count
    let t := resolveBranch s c adr fall
    (n ≠ 1 → (t.core c).loop i = { (s.core c).loop i with count := n - 1 } ∧ (t.core c).pc = ((s.core c).loop i).first) ∧
    (n = 1 → (t.core c).loop i = { (s.core c).loop i with count := 0, active := false } ∧ (t.core c).pc = fall) ∧
    (∀ j, j < 4 → j ≠ i → (t.core c).loop j = (s.core c).loop j) ∧ t.mem = s.mem)

/-- R78, R82, R83: the four instructions that end a run, on a core that has drained. yield and susp save the continuation with the
address behind their bundle (the back edge of a loop that ends there, otherwise the fall-through) and STATUS 1 or 2 and give the core
up; yield enters the ready queue again. tend and halt write STATUS 4 and give the core up, and halt stops it. Stated for a continuation
outside a group and a graph, without an armed mark; without a save area yield and susp trap with code 8, cause 5. That a yield or susp
at the end of a loop resumes at its back edge is the model's choice (log entry 113). -/
def Obligations.RunEnds : Prop :=
  ∀ (s : State) (g : Guard) (r : Running), s.live g → s.me.running = some r → s.me.mark.armed = false →
    drained s s.cur = true →
    let at_ (i : Instr) : State := (s.weighs 1).modMe (fun k => { k with drain := .op i s.now.adr s.now.fall s.now.safe s.now.seq })
    let gone (i : Instr) (h : Bool) : State := (at_ i).modMe (fun k => { k.giveUp with halted := h })
    let entry : SafePoint := (s.safePoint r.part s.now.adr).getD { adr := s.now.adr }
    let closed (i : Instr) : Core × Option Nat := (at_ i).me.endBundle s.now.adr
    let behind (i : Instr) : State := (at_ i).setCore s.cur (closed i).1
    let resumeAt (i : Instr) : Nat := (closed i).2.getD s.now.fall
    (r.frame ≠ 0 → ∀ u, saveContinuation (behind (.yield g)) s.cur entry 1 (resumeAt (.yield g)) = (u, none) →
      exec (.yield g) s = .next (requeue (u.modCore s.cur Core.giveUp) s.cur r)) ∧
    (r.frame ≠ 0 → ∀ u, saveContinuation (behind (.susp g)) s.cur entry 2 (resumeAt (.susp g)) = (u, none) →
      exec (.susp g) s = .next (u.modCore s.cur Core.giveUp)) ∧
    ((∀ l, l < 4 → (s.me.loop l).active = false) → ∀ i, resumeAt i = s.now.fall) ∧
    (r.frame = 0 → exec (.yield g) s = .next ((s.weighs 1).trap { code := 8, cause := 5, res := 1 }) ∧
      exec (.susp g) s = .next ((s.weighs 1).trap { code := 8, cause := 5, res := 1 })) ∧
    (r.group = 0 → r.node = 0 →
      let ended (u : State) : State := (writeStatus u r.ctx r.recA 4).forget r.ctx r.recA
      exec (.tend g) s = .next (ended (gone (.tend g) s.me.halted)) ∧
      exec (.halt g) s = .next (ended (gone (.halt g) true)) ∧
      (gone (.tend g) s.me.halted).me.running = none ∧ (gone (.halt g) true).me.running = none ∧
      (gone (.halt g) true).me.halted = true ∧
      -- no group's answer to the run is left: neither in the log nor to come
      ∀ u, (ended u).mem = (writeStatus u r.ctx r.recA 4).mem ∧
        (∀ e ∈ (ended u).arrivals, e.ctx = r.ctx → e.tgt = r.recA → e.kind < 3) ∧
        (∀ p ∈ (ended u).groups, ∀ w ∈ p.2.waiters, w.1 = r.ctx → w.2.1 ≠ r.recA) ∧
        (∀ y ∈ (ended u).fabric, y.ctx = r.ctx → y.pa = r.recA → y.op ≠ .gbar ∧ y.op ≠ .gwait))

/-- R350: iwait on a drained core ends at once when an interrupt bit of its mask is set, with those bits as its result, and waits
otherwise. Stated in a bundle without SAFE, without an active loop. -/
def Obligations.InterruptWait : Prop :=
  ∀ (s : State) (g : Guard) (d : SReg) (i : BitVec 7), s.live g → drained s s.cur = true → s.now.safe = false →
    let hit := wbits (s.me.sysReg 9) 0 5 &&& i.toNat
    ∃ t, exec (.iwait g d i) s = .next t ∧ t.mem = s.mem ∧ t.me.s = s.me.s ∧
      (hit = 0 → t.me.drain = .iwaiting d i.toNat s.now.adr false s.now.seq ∧ t.me.flights = s.me.flights) ∧
      (hit ≠ 0 → (∀ l, l < 4 → (s.me.loop l).active = false) → t.me.drain = .none ∧
        t.me.flights = [{ slot := 7, due := (s.me.slot 7).clk, seq := s.now.seq, what := .s d (BitVec.ofNat 64 hit), adr := s.now.adr }])

/-- R329 to R333: what taking a trap does where the context has a handler, outside service and with no restart mark armed. The record
names code, cause, slot, RES, handle, generation, bundle and address; the state is frozen; every slot is idle and no loop active;
dispatch goes on at TRAPV. Registers, buffers, handles and memory are unchanged. -/
def Obligations.TrapTaken : Prop :=
  ∀ (s : State) (t : TrapRec), s.me.svc = false → s.me.mark.armed = false → wbits (s.me.sysReg 6) 4 44 ≠ 0 →
    t.note = false → (t.after = true → s.me.landsNow = []) →
    (s.me.flights.filter (fun f => !f.walks)).length + s.me.comingElems.length ≤ 64 → t.code < 256 → t.cause < 256 → t.res < 4 → t.slot < 8 → t.hnd < 16 →
    t.gen < 2 ^ 16 → t.adr < 2 ^ 48 → t.va < 2 ^ 57 →
    let u := takeTrap t s
    let k := u.me
    let res := if t.code = 9 ∨ t.code = 10 then 1 else t.res
    wbits (k.sysReg 3) 48 8 = t.code ∧ wbits (k.sysReg 3) 40 8 = t.cause ∧ wbits (k.sysReg 3) 32 3 = t.slot ∧
    wbits (k.sysReg 3) 56 2 = res ∧ wbits (k.sysReg 3) 16 4 = t.hnd ∧ wbits (k.sysReg 3) 0 16 = t.gen ∧ k.svc = true ∧
    (k.sysReg 4).toNat = t.adr ∧ (k.sysReg 5).toNat = t.va ∧ (t.code = 1 → k.sysReg 2 = t.ilb) ∧
    k.pc = wbits (s.me.sysReg 6) 4 44 * 16 + 16 ∧ k.refill = 40 ∧
    (∀ i, i < 8 → (k.slot i).op = none ∧ (k.slot i).waiting = none) ∧ (∀ l, l < 4 → (k.loop l).active = false) ∧
    (∀ f ∈ k.flights, f.walks = true) ∧
    (∃ fz, k.frozen = some fz ∧ fz.res = res ∧ fz.pc = s.me.pc ∧ fz.loops = s.me.loops ∧ fz.issues = s.me.issues ∧
      fz.nextIdx = s.me.nextIdx ∧
      ((∀ f ∈ s.me.flights, ∀ e sel r n, f.what ≠ .tlSample e sel r n) → fz.late = s.me.flights.filter (fun f => !f.walks)) ∧
      -- a tlget in flight has taken its sample, which lands at its time (R291)
      (∀ f e r n, t.after = false → s.me.flights = [f] → f.what = .tlSample e .count r (n + 1) →
        fz.late = [{ f with due := f.due + (n + 1), what := .s r (s.eng e).count }])) ∧
    k.s = s.me.s ∧ k.p = s.me.p ∧ k.v = s.me.v ∧ k.h = s.me.h ∧ k.cb = s.me.cb ∧ k.scratch = s.me.scratch ∧ u.mem = s.mem

/-- R328, R336, R340: the other ways a trap is taken. Without a handler the continuation ends; in service it ends and the double fault
is reported; a translation or permission fault with a mark armed takes the registers back to the mark. The number 1 in the report of a
double fault is the model's choice (log entry 83), and that a trap without a handler leaves ILB as it is, also for code 1, its reading
(log entry 105). -/
def Obligations.TrapsThatDoNotFreeze : Prop :=
  ∀ (s : State) (t : TrapRec), t.note = false → t.after = false →
    let raised : State := { s with now := { s.now with raised := some t } }
    let again : State := raised.modCore s.cur (fun k => k)
    (s.me.svc = false → wbits (s.me.sysReg 6) 4 44 = 0 → takeTrap t s = endContinuation again s.cur) ∧
    (s.me.svc = true →
      let res := if t.code = 9 ∨ t.code = 10 then (if s.me.mark.armed then 2 else 1) else t.res
      let t1 : TrapRec := { t with res := res }
      takeTrap t s = endContinuation ((again.modCore s.cur (fun k => k.writeRecord t1 res false)).report 1 s.cur s.me.ctxOf
        (trapc t1 res false).toNat (t.adr % 2 ^ 48) (t.va % 2 ^ 57)) s.cur) ∧
    (s.me.svc = false → wbits (s.me.sysReg 6) 4 44 ≠ 0 → s.me.mark.armed = true → t.code = 9 ∨ t.code = 10 →
      s.me.flights = [] →
      let k := (takeTrap t s).me
      k.s = s.me.mark.shadow.s ∧ k.p = s.me.mark.shadow.p ∧ k.v = s.me.mark.shadow.v ∧ k.sysReg 1 = s.me.mark.shadow.seed ∧
      wbits (k.sysReg 3) 56 2 = 2 ∧ k.svc = true ∧ k.pc = wbits (s.me.sysReg 6) 4 44 * 16 + 16)

/-- R348: trap and brk. The bundle has issued in full: control resolves first, then the trap with code 4 or 3, its operand as cause,
slot 7 and RES 0 is taken, once every other slot has issued the bundle. Under the context's debug flag brk freezes the core for the
management core instead. The number 5 in the report of brk is the model's choice (log entry 83). -/
def Obligations.SoftwareTraps : Prop :=
  ∀ (s : State) (g : Guard) (i : BitVec 7), s.live g →
    let resolved := resolveBranch (s.weighs 1) s.cur s.now.adr s.now.fall
    let rec_ (code : Nat) : TrapRec := { code := code, cause := i.toNat, res := 0, slot := 7, adr := s.now.adr, after := true }
    let behind : Prop := ∀ j, j < 7 → resolved.me.nextIdx ≤ (resolved.me.slot j).next
    let waits (code : Nat) : State := resolved.modMe (fun k => { k with drain := .illegal (rec_ code) })
    (behind → exec (.trap g i) s = .next (takeTrap (rec_ 4) resolved)) ∧ (¬ behind → exec (.trap g i) s = .next (waits 4)) ∧
    ((∀ r, s.me.running = some r → r.flagged = false) → (behind → exec (.brk g i) s = .next (takeTrap (rec_ 3) resolved)) ∧
      (¬ behind → exec (.brk g i) s = .next (waits 3))) ∧
    (∀ r, s.me.running = some r → r.flagged = true →
      ∃ t, exec (.brk g i) s = .next t ∧ t.me.running = some { r with dbg := true } ∧ t.me.sysReg 3 = s.me.sysReg 3 ∧
        t.me.frozen = s.me.frozen ∧
        { event := .faultReport, args := { note := { reason := 5, source := s.cur, ctx := r.ctx, info := i.toNat } } } ∈ t.pending)

/-- R334, R340, R349: the return from service, once the core has drained. With RES 0 or 1 the frozen state goes on where it stopped,
with RES 3 dispatch goes on at TRAPA, with RES 2 at the mark. Registers are as the handler left them. -/
def Obligations.ReturnFromService : Prop :=
  ∀ (s : State) (g : Guard) (fz : Frozen), s.live g → drained s s.cur = true → s.me.frozen = some fz →
    let res := wbits (s.me.sysReg 3) 56 2
    ∃ t, exec (.eret g) s = .next t ∧ t.me.svc = false ∧ t.me.frozen = none ∧ t.me.s = s.me.s ∧ t.me.p = s.me.p ∧
      t.me.v = s.me.v ∧ t.me.refill = 40 ∧ t.mem = s.mem ∧ t.me.loops = fz.loops ∧
      (res = 0 ∨ res = 1 → t.me.pc = fz.pc ∧ t.me.slots = fz.slots ∧ t.me.issues = fz.issues ∧ t.me.flights = fz.late ∧
        t.me.seg = fz.seg) ∧
      (res = 3 → t.me.pc = wbits (s.me.sysReg 4) 0 48 ∧ t.me.slots = fz.slots) ∧
      (res = 2 → t.me.pc = s.me.mark.adr ∧ ∀ i, i < fz.slots.length → (t.me.slot i).op = (fz.slots.getD i {}).op ∧ (t.me.slot i).clk = 0)

/-! Memory instructions of slots LA and LB (spec/12, spec/13, spec/14). -/

/-- R232, R193: loads through h15. The z bytes at the offset, least significant first, are in flight with latency 4; sign- or
zero-extended in a scalar register, all 256 in a vector register, 8 bytes repeated over it, or 128 elements widened to BF16. R232, R193:
stores through h15. The low z bytes of the source, least significant first, reach the offset one cycle later. -/
def Obligations.ScratchpadAccess : Prop :=
  (∀ (s : State) (g : Guard) (d : SReg) (v : VReg) (o : SReg) (t : Step), s.live g →
    let a (z : Nat) : Nat := (s.offset o (stepBytes t z)).toNat
    let bs (z : Nat) : List Byte := s.me.gatedView.scratchRead (a z) z
    let ok (z : Nat) : Prop := scratchFits (a z) z ∧ s.me.gatedView.scratchPoisoned (a z) z = false
    let signed (z : Nat) : Word := (BitVec.ofNat (8 * z) (bytesToNat (bs z))).signExtend 64
    let plain (z : Nat) : Word := BitVec.ofNat 64 (bytesToNat (bs z))
    let load (w z : Nat) (x : Landing) : Host.Outcome State Fault Refusal := .next ((s.weighs w).emit 4 x 0 false (a z) 15 0)
    (ok 1 → exec (.ldb g d 15 o t) s = load 4 1 (.s d (signed 1)) ∧ exec (.ldbz g d 15 o t) s = load 4 1 (.s d (plain 1))) ∧
    (ok 2 → exec (.ldh g d 15 o t) s = load 4 2 (.s d (signed 2)) ∧ exec (.ldhz g d 15 o t) s = load 4 2 (.s d (plain 2))) ∧
    (ok 4 → exec (.ldw g d 15 o t) s = load 4 4 (.s d (signed 4)) ∧ exec (.ldwz g d 15 o t) s = load 4 4 (.s d (plain 4))) ∧
    (ok 8 → exec (.ldd g d 15 o t) s = load 4 8 (.s d (plain 8)) ∧
      exec (.vldb g v 15 o t) s = load 12 8 (.v v (bytesVec (List.replicate 32 (bs 8)).flatten))) ∧
    (ok 256 → exec (.vld g v 15 o t) s = load 12 256 (.v v (bytesVec (bs 256)))) ∧
    (ok 64 → exec (.wld4 g v 15 o t) s = load 12 64 (.v v (vecOf .bf16 ((lanesOf 4 128 (bytesToNat (bs 64))).map (widen .i4))))) ∧
    (ok 128 → exec (.wld8 g v 15 o t) s =
      load 12 128 (.v v (vecOf .bf16 ((lanesOf 8 128 (bytesToNat (bs 128))).map
        (widen (match (s.me.sysReg (0x60 + bankOf (a 128) % 32)).toNat % 16 with
          | 3 => .e4m3 | 4 => .e5m2 | 5 => .mk8 | _ => .i8))))))) ∧
  (∀ (s : State) (g : Guard) (d : SReg) (v : VReg) (o : SReg) (t : Step), s.live g →
    let a (z : Nat) : Nat := (s.offset o (stepBytes t z)).toNat
    let low_ (z : Nat) : List Byte := (List.range z).map (fun i => (s.me.rs d).extractLsb' (8 * i) 8)
    (scratchFits (a 1) 1 → exec (.stb g d 15 o t) s = .next (s.yields 4 [(1, .store (a 1) (low_ 1))])) ∧
    (scratchFits (a 2) 2 → exec (.sth g d 15 o t) s = .next (s.yields 4 [(1, .store (a 2) (low_ 2))])) ∧
    (scratchFits (a 4) 4 → exec (.stw g d 15 o t) s = .next (s.yields 4 [(1, .store (a 4) (low_ 4))])) ∧
    (scratchFits (a 8) 8 → exec (.std g d 15 o t) s = .next (s.yields 4 [(1, .store (a 8) (low_ 8))])) ∧
    (scratchFits (a 256) 256 → exec (.vst g v 15 o t) s =
      .next (s.yields 12 [(1, .store (a 256) ((List.range 256).map (fun i => (s.me.rv v).extractLsb' (8 * i) 8)))])))

/-- R199, R223, R229, R232: loads from memory through another handle. From a pinned page of the core's own bulkhead the data is in
flight with latency 24, as the home gives it after the core's earlier requests to its lines; from any other page a plain load traps with
code 7; ldd reads the management and hub spaces. That a near load takes its bytes in the step of its issue is the model's choice (log
entry 85). -/
def Obligations.NearLoads : Prop :=
  ∀ (s : State) (g : Guard) (d : SReg) (v : VReg) (h : HReg) (o : SReg) (t : Step) (pa home hi : Nat), s.live g → h ≠ 15 →
    let off (z : Nat) : Word := s.offset o (stepBytes t z)
    let hd := s.handle s.cur h.toNat
    let goes (z : Nat) (p8 : Bool) : Prop := s.access s.cur h.toNat (off z) z false false p8 = .ok (.mem pa home hi)
    let at_ (w z : Nat) : State :=
      (settleHome (s.weighs w) s.cur pa z).readsLines s.me.ctxOf s.me.partOf hi (bulkOf s.cur) pa z
    let read (w z : Nat) : List Byte × Nat × State := ((at_ w z).viewOf (at_ w z).cur).homeRead (at_ w z).me.partOf home pa z
    let load (w z : Nat) (land : List Byte → Landing) : Host.Outcome State Fault Refusal :=
      .next ((at_ w z).emit 24 (land (read w z).1) 0 (decide ((read w z).2.1 ≠ stGood)) (hd.vbase.toNat + (off z).toNat) h.toNat hd.gen.toNat)
    let signed (z : Nat) (bs : List Byte) : Landing := .s d ((BitVec.ofNat (8 * z) (bytesToNat bs)).signExtend 64)
    let plain (bs : List Byte) : Landing := .s d (BitVec.ofNat 64 (bytesToNat bs))
    let far (w : Nat) : Host.Outcome State Fault Refusal := .next ((s.weighs w).trap (handleTrap h.toNat hd 7 (farCause s s.cur hi pa) 0))
    (farCause s s.cur hi pa = 0 →
      (goes 1 false → exec (.ldb g d h o t) s = load 6 1 (signed 1) ∧ exec (.ldbz g d h o t) s = load 6 1 plain) ∧
      (goes 2 false → exec (.ldh g d h o t) s = load 6 2 (signed 2) ∧ exec (.ldhz g d h o t) s = load 6 2 plain) ∧
      (goes 4 false → exec (.ldw g d h o t) s = load 6 4 (signed 4) ∧ exec (.ldwz g d h o t) s = load 6 4 plain) ∧
      (goes 8 true → exec (.ldd g d h o t) s = load 6 8 plain) ∧
      (goes 8 false → exec (.vldb g v h o t) s = load 12 8 (fun bs => .v v (bytesVec (List.replicate 32 bs).flatten))) ∧
      (goes 256 false → exec (.vld g v h o t) s = load 12 256 (fun bs => .v v (bytesVec bs))) ∧
      (goes 64 false → exec (.wld4 g v h o t) s = load 12 64 (fun bs => .v v (widenLanes .i4 bs))) ∧
      (goes 128 false → exec (.wld8 g v h o t) s = load 12 128 (fun bs => .v v (widenLanes .i8 bs)))) ∧
    (s.fabric = [] → ∀ w z, (at_ w z).mem = s.mem ∧ (at_ w z).cores = s.cores ∧ (at_ w z).fabric = []) ∧
    (farCause s s.cur hi pa ≠ 0 →
      (goes 1 false → exec (.ldb g d h o t) s = far 6 ∧ exec (.ldbz g d h o t) s = far 6) ∧
      (goes 2 false → exec (.ldh g d h o t) s = far 6 ∧ exec (.ldhz g d h o t) s = far 6) ∧
      (goes 4 false → exec (.ldw g d h o t) s = far 6 ∧ exec (.ldwz g d h o t) s = far 6) ∧
      (goes 8 true → exec (.ldd g d h o t) s = far 6) ∧ (goes 8 false → exec (.vldb g v h o t) s = far 12) ∧
      (goes 256 false → exec (.vld g v h o t) s = far 12) ∧ (goes 64 false → exec (.wld4 g v h o t) s = far 12) ∧
      (goes 128 false → exec (.wld8 g v h o t) s = far 12)) ∧
    (∀ hub a, s.access s.cur h.toNat (off 8) 8 false false true = .ok (.space hub a) →
      exec (.ldd g d h o t) s = .next (s.yields 6 [(24, .mgmtLoad hub a d)]))

/-- R220, R229, R232: stores to memory through a handle are posted to the home of their address one cycle later; nothing else changes in
the cycle of issue. std writes the management and hub spaces. -/
def Obligations.PostedStores : Prop :=
  ∀ (s : State) (g : Guard) (d : SReg) (v : VReg) (h : HReg) (o : SReg) (t : Step) (pa home hi : Nat), s.live g → h ≠ 15 →
    s.queued s.cur < 16 →
    let off (z : Nat) : Word := s.offset o (stepBytes t z)
    let goes (z : Nat) (p8 : Bool) : Prop := s.access s.cur h.toNat (off z) z true false p8 = .ok (.mem pa home hi)
    let post (w z : Nat) (data : List Byte) : Host.Outcome State Fault Refusal :=
      .next (s.yields w [(1, .post (s.request .store z pa home ((s.handle s.cur h.toNat).vbase.toNat + (off z).toNat) .dev data hi))])
    let low_ (z : Nat) : List Byte := (List.range z).map (fun i => (s.me.rs d).extractLsb' (8 * i) 8)
    (goes 1 false → exec (.stb g d h o t) s = post 6 1 (low_ 1)) ∧ (goes 2 false → exec (.sth g d h o t) s = post 6 2 (low_ 2)) ∧
    (goes 4 false → exec (.stw g d h o t) s = post 6 4 (low_ 4)) ∧ (goes 8 true → exec (.std g d h o t) s = post 6 8 (low_ 8)) ∧
    (goes 256 false → exec (.vst g v h o t) s = post 12 256 ((List.range 256).map (fun i => (s.me.rv v).extractLsb' (8 * i) 8))) ∧
    (∀ hub a, s.access s.cur h.toNat (off 8) 8 true false true = .ok (.space hub a) →
      exec (.std g d h o t) s = .next (s.yields 6 [(1, .mgmt hub a (s.me.rs d))]))

/-- R209, R211: what an access through a handle meets, in the order of the checks: an invalid handle, a pending one, a faulted one, then
of a valid one a limit, an alignment, a permission, an address of the aperture. That the limit comes before the alignment is the model's
reading (log entry 94). -/
def Obligations.AccessChecks : Prop :=
  ∀ (s : State) (h : Nat) (o : Word) (z : Nat) (wr at8 p8 : Bool), h < 13 ∨ (h < 15 ∧ isMgmt s.cur = false) →
    let hd := s.handle s.cur h
    let va := hd.vbase.toNat + o.toNat
    let stops (code cause a : Nat) : Access :=
      .trap { code := code, cause := cause, res := 1, hnd := h, gen := hd.gen.toNat, va := a }
    let acc := s.access s.cur h o z wr at8 p8
    (hd.state = 0 → acc = stops 8 1 0) ∧
    (hd.state = 1 → acc = .wait) ∧
    (hd.state = 3 → acc = stops 9 hd.cause va) ∧
    (hd.state = 2 → o.toNat + z > hd.limit → acc = stops 8 2 va) ∧
    (hd.state = 2 → o.toNat + z ≤ hd.limit → va % max 1 (min z 256) ≠ 0 → acc = stops 8 3 va) ∧
    (hd.state = 2 → o.toNat + z ≤ hd.limit → va % max 1 (min z 256) = 0 →
      (∀ cause, permRefusal .core wr at8 hd.ronly hd.leaf.toNat = some cause → acc = stops 10 cause va) ∧
      (permRefusal .core wr at8 hd.ronly hd.leaf.toNat = none → regionOf (hd.pbase + o.toNat) = .aperture → acc = stops 10 1 va) ∧
      (permRefusal .core wr at8 hd.ronly hd.leaf.toNat = none → regionOf (hd.pbase + o.toNat) ≠ .aperture →
        acc = .ok (.mem (hd.pbase + o.toNat) (s.leafHome s.me.partOf hd.leaf.toNat (hd.pbase + o.toNat)).1 hd.leaf.toNat))) ∧
    -- h15 names the scratchpad (R193)
    (∀ n, n = o.toNat → s.access s.cur 15 o z wr at8 p8 =
      if n + z > 0x100000 then .trap { code := 8, cause := 2, res := 1, hnd := 15, va := n }
      else if n % max 1 (min z 256) ≠ 0 then .trap { code := 8, cause := 3, res := 1, hnd := 15, va := n }
      else .ok (.scratch n))

/-- R30, R234, R235: a producer fires when there is room, a consumer when there are elements, and each raises the other count after one
cycle; otherwise the slot waits. cbput and cbget move one element of at most 256 bytes. TRAPD 0 of a buffer's traps is the model's
reading (log entry 51). -/
def Obligations.BufferMoves : Prop :=
  ∀ (s : State) (g : Guard) (v : VReg) (n : CbReg) (o : SReg), s.live g →
    let b := s.me.cbReg n.toNat
    let fired (b' : Cb) : State := (s.weighs 12).modMe (fun k => k.setCb n.toNat b')
    let fired4 (b' : Cb) : State := (s.weighs 4).modMe (fun k => k.setCb n.toNat b')
    let m := (s.me.rs o).toNat
    (b.conf = true → b.esz ≤ 8 → 1 ≤ b.cap →
      (1 ≤ b.room → exec (.cbput g v n) s = .next (((fired { b with room := b.room - 1, prd := (b.prd + 1) % max 1 b.cap }).emit 1
        (.bytes (b.base + b.prd % max 1 b.cap * 2 ^ b.esz) ((vecBytes (s.me.rv v)).take (2 ^ b.esz)))).emit 1 (.cnt n.toNat b.gen 1))) ∧
      (b.room = 0 → exec (.cbput g v n) s = .next (s.waitsNow 12)) ∧
      (1 ≤ b.cnt → (s.me.element b b.con).2 = false →
        exec (.cbget g v n) s = .next (((fired { b with cnt := b.cnt - 1, con := (b.con + 1) % max 1 b.cap }).emit 4
          (.v v (bytesVec (s.me.element b b.con).1))).emit 1 (.room n.toNat b.gen 1))) ∧
      (b.cnt = 0 → exec (.cbget g v n) s = .next (s.waitsNow 12))) ∧
    (b.conf = true → m ≤ b.cap →
      (m ≤ b.room → exec (.cbadvp g n o) s =
        .next ((fired4 { b with room := b.room - m, prd := (b.prd + m) % max 1 b.cap }).emit 1 (.cnt n.toNat b.gen m))) ∧
      (m ≤ b.cnt → exec (.cbadvc g n o) s =
        .next ((fired4 { b with cnt := b.cnt - m, con := (b.con + m) % max 1 b.cap }).emit 1 (.room n.toNat b.gen m))) ∧
      (b.room < m → exec (.cbadvp g n o) s = .next (s.waitsNow 4)) ∧ (b.cnt < m → exec (.cbadvc g n o) s = .next (s.waitsNow 4))) ∧
    (b.conf = false → exec (.cbput g v n) s = .next ((s.weighs 12).trap { code := 8, cause := 4, res := 1 }) ∧
      exec (.cbget g v n) s = .next ((s.weighs 12).trap { code := 8, cause := 4, res := 1 }) ∧
      exec (.cbadvp g n o) s = .next ((s.weighs 4).trap { code := 8, cause := 4, res := 1 }) ∧
      exec (.cbadvc g n o) s = .next ((s.weighs 4).trap { code := 8, cause := 4, res := 1 })) ∧
    (b.conf = true → 8 < b.esz → exec (.cbput g v n) s = .next ((s.weighs 12).trap { code := 8, cause := 4, res := 1 }) ∧
      exec (.cbget g v n) s = .next ((s.weighs 12).trap { code := 8, cause := 4, res := 1 })) ∧
    (b.conf = true → b.cap < m → exec (.cbadvp g n o) s = .next ((s.weighs 4).trap { code := 8, cause := 2, res := 1 }) ∧
      exec (.cbadvc g n o) s = .next ((s.weighs 4).trap { code := 8, cause := 2, res := 1 }))

/-- R233, R236: ldc fills an element of a buffer from the scratchpad or memory, stc writes one out, cbcfg configures a buffer from a
descriptor of 16 bytes in the scratchpad. How cbcfg treats a poisoned descriptor is the model's reading (log entry 42). -/
def Obligations.BufferElements : Prop :=
  ∀ (s : State) (g : Guard) (n : CbReg) (h : HReg) (o : SReg) (t : Step), s.live g →
    let b := s.me.cbReg n.toNat
    let z := 2 ^ b.esz
    let off := s.offset o (stepBytes t z)
    let va := (s.handle s.cur h.toNat).vbase.toNat + off.toNat
    (b.conf = true → 1 ≤ b.cap → (s.handle s.cur h.toNat).state ≠ 1 →
      (1 ≤ b.room → ∀ a, s.access s.cur h.toNat off z false false false = .ok (.scratch a) →
        exec (.ldc g n h o t) s = .next ((({ (s.weighs 12) with nextReq := s.nextReq + 1 } : State).modMe (fun k =>
          { k.setCb n.toNat { b with room := b.room - 1, prd := (b.prd + 1) % max 1 b.cap } with
            elems := k.elems ++ [{ id := s.nextReq, cb := n.toNat, gen := b.gen, off := b.base + b.prd % max 1 b.cap * 2 ^ b.esz,
                                   size := z, seq := s.now.seq, homes := [bulkOf s.cur] }] })).emit 4
          (.elem s.nextReq (s.me.gatedView.scratchRead a z)) 0 (s.me.gatedView.scratchPoisoned a z))) ∧
      (1 ≤ b.room → s.queued s.cur < 16 → ∀ pa home hi, s.access s.cur h.toNat off z false false false = .ok (.mem pa home hi) →
        ∃ u, exec (.ldc g n h o t) s = .next u ∧
          u.me.cbReg n.toNat = { b with room := b.room - 1, prd := (b.prd + 1) % max 1 b.cap } ∧
          u.me.elems = s.me.elems ++ [{ id := s.nextReq, cb := n.toNat, gen := b.gen, off := b.base + b.prd % max 1 b.cap * 2 ^ b.esz,
                                        size := z, seq := s.now.seq, homes := s.homesOf s.me.partOf hi home pa z }] ∧
          (∃ r ∈ u.fabric, r.id = s.nextReq ∧ r.core = s.cur ∧ r.op = .read ∧ r.pa = pa ∧ r.home = home ∧ r.size = z) ∧ u.mem = s.mem) ∧
      (1 ≤ b.cnt → (s.me.element b b.con).2 = false → s.queued s.cur < 16 → ∀ target,
        s.access s.cur h.toNat off z true false false = .ok target →
        exec (.stc g n h o t) s = .next ((((s.weighs 12).modMe (fun k =>
          k.setCb n.toNat { b with cnt := b.cnt - 1, con := (b.con + 1) % max 1 b.cap })).emit 1 (.room n.toNat b.gen 1)).storeTo target va
            (s.me.element b b.con).1)) ∧
      (b.room = 0 → exec (.ldc g n h o t) s = .next (s.waitsNow 12)) ∧ (b.cnt = 0 → exec (.stc g n h o t) s = .next (s.waitsNow 12))) ∧
    (let a := (s.offset o (stepBytes t 16)).toNat
     scratchFits a 16 → s.me.gatedView.scratchPoisoned a 16 = false → ∀ d,
      parseDescriptor (bytesToNat (s.me.gatedView.scratchRead a 16)) = some d →
      ∃ u, exec (.cbcfg g n o t) s = .next u ∧ u.me.scratch = s.me.scratch ∧ u.mem = s.mem ∧
        u.me.flights = s.me.flights ++ [{ slot := s.now.slot, due := s.now.clk + 4, seq := s.now.seq, what := .cbcfg n.toNat d,
                                          adr := s.now.adr }])

/-- R195, R238: full/empty words through h15, where no store of the core is still on its way. ldfe and ldff take the word of a full bit,
ldfe emptying it; stef and stff write the word and fill it, and feset fills it; ldfe and ldff wait while it is empty, stef while it is
full, and stff, feset and feclr never. An ldfe or ldff takes what a slot of the core has filled only once the bundles before that fill
have issued in every slot (R222, R223 item 4): how the fill is held for them is the model's reading (log entry 109). Through any other
handle they trap with code 8, cause 2. TRAPD of that trap is the model's reading (log entry 44). -/
def Obligations.FullEmptyWords : Prop :=
  ∀ (s : State) (g : Guard) (d : SReg) (o : SReg) (t : Step), s.live g → s.me.flights = [] → s.me.mark.gated = [] →
    let a := (s.offset o (stepBytes t 8)).toNat
    let word := BitVec.ofNat 64 (bytesToNat (s.me.scratchRead a 8))
    let landing : Flight := { slot := s.now.slot, due := s.now.clk + 4, seq := s.now.seq, what := .s d word, adr := s.now.adr }
    (∀ h : HReg, h ≠ 15 → ∀ i ∈ [.ldfe g d h o t, .ldff g d h o t, .stef g d h o t, .stff g d h o t, .feset g h o t, .feclr g h o t],
      exec i s = .next ((s.weighs 4).trap (handleTrap h.toNat (s.handle s.cur h.toNat) 8 2
        ((s.handle s.cur h.toNat).vbase.toNat + (s.offset o (stepBytes t 8)).toNat)))) ∧
    (scratchFits a 8 →
    (s.me.isFull a = true → exec (.stef g d 15 o t) s = .next (s.waitsNow 4)) ∧
    (s.me.isFull a = true → s.me.fillHeld a = false → s.me.scratchPoisoned a 8 = false →
      (∃ u, exec (.ldfe g d 15 o t) s = .next u ∧ u.me.isFull a = false ∧ u.me.flights = [landing] ∧ u.me.scratch = s.me.scratch ∧
        (∀ x, x / 8 ≠ a / 8 → u.me.isFull x = s.me.isFull x) ∧ u.mem = s.mem) ∧
      (∃ u, exec (.ldff g d 15 o t) s = .next u ∧ u.me.full = s.me.full ∧ u.me.flights = [landing] ∧ u.me.scratch = s.me.scratch ∧
        u.mem = s.mem)) ∧
    (s.me.isFull a = false ∨ s.me.fillHeld a = true → exec (.ldfe g d 15 o t) s = .next (s.waitsNow 4) ∧ exec (.ldff g d 15 o t) s = .next (s.waitsNow 4)) ∧
    (let held (u : State) : Prop := s.me.fills = [] → (u.me.fillHeld a = true ↔ s.me.passedBundles s.now.idx s.now.slot a = false)
     s.me.downNote = false →
      (s.me.isFull a = false → ∃ u, exec (.stef g d 15 o t) s = .next u ∧ u.me.isFull a = true ∧
        u.me.scratch = s.me.scratch.write a ((List.range 8).map (fun i => (s.me.rs d).extractLsb' (8 * i) 8)) ∧ held u ∧ u.mem = s.mem) ∧
      (∃ u, exec (.stff g d 15 o t) s = .next u ∧ u.me.isFull a = true ∧
        u.me.scratch = s.me.scratch.write a ((List.range 8).map (fun i => (s.me.rs d).extractLsb' (8 * i) 8)) ∧ held u ∧ u.mem = s.mem) ∧
      (∃ u, exec (.feset g 15 o t) s = .next u ∧ u.me.isFull a = true ∧ u.me.scratch = s.me.scratch ∧ held u ∧
        (∀ x, x / 8 ≠ a / 8 → u.me.isFull x = s.me.isFull x))) ∧
    (s.me.downNote = true →
      let failed := (s.weighs 4).trap { code := 5, cause := 2, res := 1, note := true }
      exec (.stff g d 15 o t) s = .next failed ∧ exec (.feset g 15 o t) s = .next failed) ∧
    (∃ u, exec (.feclr g 15 o t) s = .next u ∧ u.me.isFull a = false ∧ u.me.fillHeld a = false ∧ u.me.scratch = s.me.scratch ∧
      (∀ x, x / 8 ≠ a / 8 → u.me.isFull x = s.me.isFull x)))

/-- R210, R212, R248 to R250: handle operations. xlat and hinv take effect after one cycle; xlat takes the low 57 bits of s(A) by the
model's reading (log entry 21); hget reads a field of a handle; hchk reads its state and waits while it is pending; wbinv and pfl2 send
a request for the line after one cycle, and with a full interface queue wbinv waits and pfl2 is dropped (R307), and do nothing through
h15. -/
def Obligations.HandleOperations : Prop :=
  ∀ (s : State) (g : Guard) (d : SReg) (h : HReg) (a o : SReg) (kind : Bool), s.live g →
    let hd := s.handle s.cur h.toNat
    exec (.xlat g h a kind) s = .next (s.yields 4 [(1, .xlat h.toNat ((s.me.rs a).toNat % 2 ^ 57) kind)]) ∧
    exec (.hinv g h) s = .next (s.yields 4 [(1, .hinv h.toNat)]) ∧
    exec (.hget g d h 0) s = .next (s.yields 4 [(2, .s d (BitVec.ofNat 64
      (hd.gen.toNat * 2 ^ 16 + hd.cause % 16 * 16 + (if hd.ronly then 4 else 0) + hd.state % 4)))]) ∧
    exec (.hget g d h 1) s = .next (s.yields 4 [(2, .s d (hd.vbase.setWidth 64))]) ∧
    exec (.hget g d h 2) s = .next (s.yields 4 [(2, .s d (BitVec.ofNat 64 hd.limit))]) ∧
    exec (.hget g d h 3) s = .next (s.yields 4 [(2, .s d (BitVec.ofNat 64 (hd.size.toNat * 2 ^ 48 + hd.leaf.toNat)))]) ∧
    (hd.state ≠ 1 → exec (.hchk g d h) s = .next (s.yields 4 [(1, .s d (BitVec.ofNat 64 hd.state))])) ∧
    (hd.state = 1 → exec (.hchk g d h) s = .next (s.waitsNow 4)) ∧
    exec (.wbinv g 15 o) s = .next (s.weighs 4) ∧ exec (.pfl2 g 15 o) s = .next (s.weighs 4) ∧
    (h ≠ 15 → ∀ pa home hi, s.access s.cur h.toNat (s.offset o 0) 1 false false false = .ok (.mem pa home hi) →
      let r (op : ReqOp) : Req := s.request op 256 (alignDown pa 256) home (hd.vbase.toNat + (s.offset o 0).toNat) .dev [] hi
      (s.queued s.cur < 16 → exec (.wbinv g h o) s = .next (s.yields 4 [(1, .through (r .wbinv))]) ∧
        exec (.pfl2 g h o) s = .next (s.yields 4 [(1, .through (r .fetch))])) ∧
      (16 ≤ s.queued s.cur → exec (.wbinv g h o) s = .next (s.waitsNow 4) ∧ exec (.pfl2 g h o) s = .next (s.weighs 4))) ∧
    (h ≠ 15 → ∀ t, s.access s.cur h.toNat (s.offset o 0) 1 false false false = .trap t →
      exec (.wbinv g h o) s = .next ((s.weighs 4).trap t) ∧ exec (.pfl2 g h o) s = .next (s.weighs 4))

/-! Atomics, acquire and release, tickets and the sail wheel (spec/14 R239 to R247). -/

/-- R241 to R243: atomics through h15, a releasing form once everything before it is performed. The word takes its new value in the
cycle of issue, the old value is in flight to s(D) with latency 4, sign-extended in a .w form; amocas writes only where the word equals
s(D), and takes s(D + 1). -/
def Obligations.AtomicsOnTheScratchpad : Prop :=
  ∀ (s : State) (g : Guard) (d : SReg) (c : BitVec 5) (o : SReg) (w : Scope) (q : Bool) (x : Option W32), s.live g → quiet s →
    let done := commitGated (s.weighs 6) s.cur s.now.seq
    (q = true → done.performed s.cur w s.now.idx s.now.seq s.now.slot = true ∧ done.me.downNote = false) →
    let a := (s.offset o (atStep x)).toNat
    let old (z : Nat) : BitVec (8 * z) := BitVec.ofNat (8 * z) (bytesToNat (s.me.scratchRead a z))
    let bytes (z : Nat) (v : BitVec (8 * z)) : List Byte := (List.range z).map (fun i => v.extractLsb' (8 * i) 8)
    let takes (r : SReg) (z : Nat) : List Flight :=
      [{ slot := s.now.slot, due := s.now.clk + 4, seq := s.now.seq, what := .s r ((old z).signExtend 64), adr := s.now.adr }]
    let did (i : Instr) (r : SReg) (z : Nat) (new : Option (BitVec (8 * z))) : Prop :=
      ∃ t, exec i s = .next t ∧ t.me.flights = takes r z ∧ t.me.s = s.me.s ∧ t.mem = s.mem ∧
        t.me.scratch = (match new with | some v => s.me.scratch.write a (bytes z v) | none => s.me.scratch)
    (∀ e ∈ amoForms g d 15 o w q x, scratchFits a e.2.2 → s.me.scratchPoisoned a e.2.2 = false →
      did e.1 d e.2.2 (some (amoWrites e.2.1 (old e.2.2) ((s.me.rs d).setWidth (8 * e.2.2))))) ∧
    (scratchFits a 4 → s.me.scratchPoisoned a 4 = false →
      did (.amofaddW g d 15 o w q x) d 4 (some (BitVec.ofNat 32 (faddNew (old 4).toNat (low (s.me.rs d)).toNat))) ∧
      did (.amocasW g c 15 o w q x) (c ++ 0#1) 4
        (if old 4 = low (s.me.rs (c ++ 0#1)) then some (low (s.me.rs (c ++ 1#1))) else none)) ∧
    (scratchFits a 8 → s.me.scratchPoisoned a 8 = false →
      did (.amocasD g c 15 o w q x) (c ++ 0#1) 8 (if old 8 = s.me.rs (c ++ 0#1) then some (s.me.rs (c ++ 1#1)) else none)) ∧
    (∀ e ∈ amoForms g d 15 o w q x, scratchFits a e.2.2 → s.me.scratchPoisoned a e.2.2 = true →
      exec e.1 s = .next ((if q then done else s.weighs 6).trap { code := 5, cause := 1, res := 1, hnd := 15, va := a }))

/-- R230, R241, R242: an atomic on memory, a releasing form once everything before it is performed, sends its request to the home and
its slot waits; when the reply is there, the old value is in flight to s(D) with latency 1, sign-extended in a .w form. R230, R307: a
waiting operation's request: it waits for the core's own stores of the cycle and for room in the interface queue; then it is on its way
under the next number, and the slot waits for it. That the operand is taken when the request is sent is the model's reading (log entry
41). -/
def Obligations.AtomicsAtHomes : Prop :=
  (∀ (s : State) (g : Guard) (d : SReg) (c : BitVec 5) (h : HReg) (o : SReg) (w : Scope) (q : Bool) (x : Option W32), s.live g →
    let off := s.offset o (atStep x)
    let va := (s.handle s.cur h.toNat).vbase.toNat + off.toNat
    let sl := s.me.slot s.now.slot
    let word (z : Nat) (r : SReg) : List Byte := natToBytes z (s.me.rs r).toNat
    let done := commitGated (s.weighs 6) s.cur s.now.seq
    let all := done.performed s.cur w s.now.idx s.now.seq s.now.slot
    let base : State := if q then done else s.weighs 6
    let sends (i : Instr) (op : ReqOp) (z : Nat) (data : List Byte) : Prop :=
      sl.waiting = none → ∀ pa home hi, s.access s.cur h.toNat off z true true false = .ok (.mem pa home hi) →
      ((q = true → all = true ∧ done.me.downNote = false) → exec i s = .next ((commitDisarm base s.cur).ask
        { base.request op z pa home va w data hi with wantReply := true } off)) ∧
      (q = true → all = false → exec i s = .next done.stall)
    let hears (i : Instr) (r : SReg) (z : Nat) : Prop :=
      sl.waiting.isSome = true → ∀ y, sl.reply = some y → y.status = stGood →
      ∃ t, exec i s = .next t ∧ (t.me.slot s.now.slot).waiting = none ∧
        t.me.flights = s.me.flights ++ [{ slot := s.now.slot, due := s.now.clk + 1, seq := s.now.seq, what := .s r ((y.value.setWidth (8 * z)).signExtend 64), adr := s.now.adr }] ∧ t.mem = s.mem
    let holds (i : Instr) : Prop := sl.waiting.isSome = true → sl.reply = none → exec i s = .next (s.waitsNow 6)
    (∀ e ∈ amoForms g d h o w q x, sends e.1 (.amo e.2.1) e.2.2 (word e.2.2 d) ∧ hears e.1 d e.2.2 ∧ holds e.1) ∧
    sends (.amofaddW g d h o w q x) .fadd 4 (word 4 d) ∧ hears (.amofaddW g d h o w q x) d 4 ∧ holds (.amofaddW g d h o w q x) ∧
    sends (.amocasW g c h o w q x) .cas 4 (word 4 (c ++ 0#1) ++ word 4 (c ++ 1#1)) ∧ hears (.amocasW g c h o w q x) (c ++ 0#1) 4 ∧
    sends (.amocasD g c h o w q x) .cas 8 (word 8 (c ++ 0#1) ++ word 8 (c ++ 1#1)) ∧ hears (.amocasD g c h o w q x) (c ++ 0#1) 8) ∧
  (∀ (s : State) (r : Req) (o : Word),
    (16 ≤ s.queued s.cur → s.ask r o = s.stall) ∧
    (s.queued s.cur < 16 →
      let u := settlePosts s s.cur
      let t := s.ask r o
      t.now.stalled = true ∧ t.nextReq = u.nextReq + 1 ∧ t.mem = u.mem ∧ t.me.s = u.me.s ∧ t.me.flights = u.me.flights ∧
      (s.me.flights = [] → u = s.setCore s.cur s.me) ∧
      (∃ y ∈ t.fabric, y.id = u.nextReq ∧ y.pa = r.pa ∧ y.home = r.home ∧ y.op = r.op ∧ y.data = r.data ∧ y.size = r.size) ∧
      (s.now.slot < u.me.slots.length → (t.me.slot s.now.slot).waiting = some u.nextReq ∧ (t.me.slot s.now.slot).sent = o)))

/-- R219, R239, R240: ldacq loads 8 bytes like a plain load, through h15 behind the stores of lower slots and from a pinned page of the
core's own bulkhead, and asks the home elsewhere; strel makes its write of 8 bytes once everything before it is performed at its scope;
fence completes when every earlier read has returned and everything before it is performed; until then both wait. That fence waits for
every earlier access before it lets the slot go on is one of the ways that R240 says conform, by the model's choice (log entry 102). -/
def Obligations.AcquireReleaseFence : Prop :=
  ∀ (s : State) (g : Guard) (d : SReg) (h : HReg) (o : SReg) (w : Scope) (x : Option W32), s.live g →
    (s.me.slot s.now.slot).waiting = none →
    let off := s.offset o (atStep x)
    let done := commitGated (s.weighs 6) s.cur s.now.seq
    let all := done.performed s.cur w s.now.idx s.now.seq s.now.slot
    let hd := s.handle s.cur h.toNat
    let word : List Byte := natToBytes 8 (done.me.rs d).toNat
    (scratchFits off.toNat 8 →
      let u := settleBytes (s.weighs 6) off.toNat 8
      exec (.ldacq g d 15 o w x) s = .next (u.emit 4 (.s d (BitVec.ofNat 64 (bytesToNat (u.me.gatedView.scratchRead off.toNat 8)))) 0
        (u.me.gatedView.scratchPoisoned off.toNat 8) off.toNat 15 0)) ∧
    (∀ pa home hi, s.access s.cur h.toNat off 8 false false false = .ok (.mem pa home hi) →
      (farCause s s.cur hi pa = 0 → exec (.ldacq g d h o w x) s =
        .next ((settlePosts (s.weighs 6) s.cur).nearLoad h.toNat hd off.toNat pa home hi 8 (fun bs => .s d (BitVec.ofNat 64 (bytesToNat bs))))) ∧
      (farCause s s.cur hi pa ≠ 0 → s.me.mark.gated = [] → exec (.ldacq g d h o w x) s = .next ((s.weighs 6).ask
        { s.request .read 8 pa home (hd.vbase.toNat + off.toNat) w [] hi with wantReply := true } off))) ∧
    (all = true → done.me.downNote = false → scratchFits off.toNat 8 →
      exec (.strel g d 15 o w x) s = .next ((settleBytes done off.toNat 8).modMe (fun k => k.scratchWrite off.toNat word))) ∧
    (all = true → done.me.downNote = false → ∀ pa home hi, s.access s.cur h.toNat off 8 true false false = .ok (.mem pa home hi) →
      (done.queued done.cur < 16 → exec (.strel g d h o w x) s = .next ((settlePosts done done.cur).send
        (done.request .store 8 pa home ((done.handle done.cur h.toNat).vbase.toNat + off.toNat) w word hi)).2) ∧
      (16 ≤ done.queued done.cur → exec (.strel g d h o w x) s = .next done.stall)) ∧
    (all = false → scratchFits off.toNat 8 → exec (.strel g d 15 o w x) s = .next done.stall) ∧
    (s.returned s.cur s.now.seq = false → exec (.fence g w) s = .next (s.waitsNow 6)) ∧
    (s.returned s.cur s.now.seq = true →
      (all = true → done.me.downNote = false → exec (.fence g w) s = .next done) ∧
      (all = false → exec (.fence g w) s = .next done.stall) ∧
      (all = true → done.me.downNote = true →
        exec (.fence g w) s = .next (done.trap { code := 5, cause := 2, res := 1, note := true })))

/-- R220, R246, R247: tickets and the sail wheel. On the core's own words, where nothing is on its way, tktwait goes on when now-serving
has reached the ticket and waits before, and tktdone adds 1; scld, scst and scadd send a request with a stamp whose home is the core,
which reads, writes or adds and answers the old value. On memory each sends its request to the home, all but tktwait after a release,
and goes on with the reply. That a sail-wheel request through h15 stays within the core is the model's reading (log entry 81). -/
def Obligations.TicketsAndSailWheel : Prop :=
  (∀ (s : State) (g : Guard) (d : SReg) (o : SReg), s.live g → quiet s →
    let a := (s.offset o 0).toNat
    let old (z : Nat) : BitVec (8 * z) := BitVec.ofNat (8 * z) (bytesToNat (s.me.scratchRead a z))
    let bytes (z : Nat) (v : BitVec (8 * z)) : List Byte := (List.range z).map (fun i => v.extractLsb' (8 * i) 8)
    let done := commitGated (s.weighs 6) s.cur s.now.seq
    let all (w : Scope) : Prop := done.performed s.cur w s.now.idx s.now.seq s.now.slot = true ∧ done.me.downNote = false
    (scratchFits a 8 → s.me.scratchPoisoned a 8 = false →
      ((old 8 - s.me.rs d).toNat < 2 ^ 63 → ∃ t, exec (.tktwait g d 15 o) s = .next t ∧ t.now.stalled = s.now.stalled ∧
        t.me.scratch = s.me.scratch ∧ t.me.s = s.me.s ∧ t.me.flights = [] ∧ t.mem = s.mem) ∧
      (2 ^ 63 ≤ (old 8 - s.me.rs d).toNat → exec (.tktwait g d 15 o) s = .next (s.waitsNow 6)) ∧
      (all .dev → ∃ t, exec (.tktdone g 15 o) s = .next t ∧ t.me.scratch = s.me.scratch.write a (bytes 8 (old 8 + 1)) ∧
        t.me.flights = [] ∧ t.mem = s.mem)) ∧
    (∀ w, all w →
      let own (op : ReqOp) (z : Nat) (data : List Byte) : Host.Outcome State Fault Refusal := .next ((done.ownStep a z).ask
        { done.request op z (2 ^ 60 + a) 32 a w data with wantReply := true, stamp := done.stamp s.cur + 1, mgmt := true, own := true }
        (s.offset o 0))
      let word (z : Nat) : List Byte := natToBytes z (done.me.rs d).toNat
      (scratchFits a 8 → exec (.scld g d 15 o w) s = own .scLoad 8 [] ∧ exec (.scst g d 15 o w) s = own .scStore 8 (word 8) ∧
        exec (.scaddD g d 15 o w) s = own .scAdd 8 (word 8)) ∧
      (scratchFits a 4 → exec (.scaddW g d 15 o w) s = own .scAdd 4 (word 4)))) ∧
  (∀ (s : State) (r : Req), r.own = true →
    let a := r.pa % 0x100000
    let old := bytesToNat ((s.core r.core).scratchRead a r.size)
    let operand := bytesToNat (r.data.take r.size)
    let t := applyRequest s r
    let becomes (v : Nat) : Prop := (t.core r.core).scratch = (s.core r.core).scratch.write a (natToBytes r.size v)
    t.mem = s.mem ∧ (∀ q ∈ t.fabric, q.id ≠ r.id) ∧
    (r.op = .scStore → becomes operand) ∧
    ((s.core r.core).scratchPoisoned a r.size = false →
      (∃ y, t.replies = s.replies ++ [(r.core, y, r.slot)] ∧ y.id = r.id ∧ y.value = BitVec.ofNat 64 old ∧ y.status = stGood) ∧
      (r.op = .scLoad → (t.core r.core).scratch = (s.core r.core).scratch) ∧
      (r.op = .scAdd → becomes ((old + operand) % 2 ^ (8 * r.size))))) ∧
  (∀ (s : State) (g : Guard) (d : SReg) (h : HReg) (o : SReg) (w : Scope), s.live g →
    let off := s.offset o 0
    let va := (s.handle s.cur h.toNat).vbase.toNat + off.toNat
    let sl := s.me.slot s.now.slot
    let done := commitGated (s.weighs 6) s.cur s.now.seq
    let all (w : Scope) : Prop := done.performed s.cur w s.now.idx s.now.seq s.now.slot = true ∧ done.me.downNote = false
    let word (z : Nat) : List Byte := natToBytes z (s.me.rs d).toNat
    let reaches (z : Nat) (wr : Bool) (pa home hi : Nat) : Prop := s.access s.cur h.toNat off z wr false false = .ok (.mem pa home hi)
    let asks (i : Instr) (u : State) (op : ReqOp) (z pa home hi : Nat) (w : Scope) (data : List Byte) (stamp : Nat) : Prop :=
      exec i s = .next ((commitDisarm u s.cur).ask { u.request op z pa home va w data hi with wantReply := true, stamp := stamp } off)
    (sl.waiting = none → ∀ pa home hi,
      (reaches 8 true pa home hi → asks (.tktwait g d h o) (s.weighs 6) .tktWait 8 pa home hi .dev (word 8) 0) ∧
      (reaches 8 true pa home hi → all .dev → asks (.tktdone g h o) done .tktDone 8 pa home hi .dev [] 0) ∧
      (reaches 8 false pa home hi → all w → asks (.scld g d h o w) done .scLoad 8 pa home hi w [] (done.stamp s.cur + 1)) ∧
      (reaches 8 true pa home hi → all w → asks (.scst g d h o w) done .scStore 8 pa home hi w (word 8) (done.stamp s.cur + 1)) ∧
      (reaches 4 true pa home hi → all w → asks (.scaddW g d h o w) done .scAdd 4 pa home hi w (word 4) (done.stamp s.cur + 1)) ∧
      (reaches 8 true pa home hi → all w → asks (.scaddD g d h o w) done .scAdd 8 pa home hi w (word 8) (done.stamp s.cur + 1))) ∧
    (∀ y, sl.waiting.isSome = true → sl.reply = some y → y.status = stGood →
      let heard := (s.weighs 6).modMe (fun k => k.modSlot s.now.slot (fun z => { z with waiting := none, reply := none }))
      exec (.tktwait g d h o) s = .next heard ∧ exec (.tktdone g h o) s = .next heard ∧ exec (.scst g d h o w) s = .next heard ∧
      exec (.scld g d h o w) s = .next (heard.emit 1 (.s d y.value)) ∧ exec (.scaddD g d h o w) s = .next (heard.emit 1 (.s d y.value)) ∧
      exec (.scaddW g d h o w) s = .next (heard.emit 1 (.s d (sx (low y.value))))))

/-! Slot VX (spec/05, spec/06). -/

/-- R107 to R111: lane arithmetic. An integer lane wraps; a float lane is the exact result rounded once; every lane of the result is in
flight with the latency of R17, and an integer operation records no event. -/
def Obligations.VectorArithmetic : Prop :=
  ∀ (s : State) (g : Guard) (d a b : VReg) (f : Fmt) (x : Option VExt), s.live g →
    let la (n : Nat) : BitVec f.width := laneOf f (s.me.rv a) n
    let lb (n : Nat) : BitVec f.width := laneOf f (s.me.rv b) n
    let lc (n : Nat) : BitVec f.width := laneOf f (s.me.rv (match x with | some e => e.c | none => d)) n
    let num (c : BitVec f.width) : FVal := decodeNum f c.toNat
    let down := rndOf x == .rdn
    let gives (i : Instr) (w lat : Nat) (wrap : Nat → BitVec f.width) (exact : Nat → FVal × Bool) : Prop :=
      ∃ r kind, exec i s = .next ((s.weighs w).emit lat (.v d r) kind) ∧
        (f.isIA = true → kind = 0 ∧ ∀ n, n < f.lanes → laneOf f r n = wrap n) ∧
        (f.isIA = false → ∀ n, n < f.lanes → laneOf f r n = BitVec.ofNat f.width (laneRound f (rndOf x) (s.random n) (exact n)).1)
    gives (.vadd g d a b f x) 16 2 (fun n => la n + lb n) (fun n => addNum down (num (la n)) (num (lb n))) ∧
    gives (.vsub g d a b f x) 16 2 (fun n => la n - lb n) (fun n => addNum down (num (la n)) (negNum (num (lb n)))) ∧
    gives (.vmul g d a b f x) 40 4 (fun n => la n * lb n) (fun n => mulNum (num (la n)) (num (lb n))) ∧
    gives (.vfma g d a b f x) 40 4 (fun n => la n * lb n + lc n) (fun n => fmaNum down (num (la n)) (num (lb n)) (num (lc n))) ∧
    gives (.vfms g d a b f x) 40 4 (fun n => la n * lb n - lc n) (fun n => fmaNum down (num (la n)) (num (lb n)) (negNum (num (lc n))))

/-- R111: vabs, vneg, vmin and vmax. Integers by value, floats by their sign bit and by the ranking in which -0 lies below +0 and any
NaN gives the canonical NaN. R112 to R114: logic on all bits, shifts of each lane by the lane of vB modulo the width, compares that give
masks, vsel, vmov and vzero. R121: permutations. Lanes that a source does not have read as zero. -/
def Obligations.VectorLanes : Prop :=
  (∀ (s : State) (g : Guard) (d a b : VReg) (f : Fmt) (x : Option VExt), s.live g →
    let la (n : Nat) : BitVec f.width := laneOf f (s.me.rv a) n
    let lb (n : Nat) : BitVec f.width := laneOf f (s.me.rv b) n
    let num (c : BitVec f.width) : FVal := decodeNum f c.toNat
    let nan (n : Nat) : Bool := f.isFloat && (isNaN (num (la n)) || isNaN (num (lb n)))
    let gives (i : Instr) (ok : Bool) (lane : Nat → BitVec f.width) : Prop :=
      ok = true → ∃ r, exec i s = .next (s.yields 16 [(2, .v d r)]) ∧ ∀ n, n < f.lanes → laneOf f r n = lane n
    gives (.vabs g d a b f x) f.isIA (fun n => if (la n).toInt < 0 then -(la n) else la n) ∧
    gives (.vabs g d a b f x) (!f.isIA) (fun n => BitVec.ofNat f.width ((la n).toNat % 2 ^ (f.width - 1))) ∧
    gives (.vneg g d a b f x) f.isIA (fun n => -(la n)) ∧
    gives (.vneg g d a b f x) (!f.isIA) (fun n => la n ^^^ BitVec.ofNat f.width (2 ^ (f.width - 1))) ∧
    gives (.vmin g d a b f x) true (fun n =>
      if nan n then BitVec.ofNat f.width (canonicalNaN f) else if ltRank (num (lb n)) (num (la n)) then lb n else la n) ∧
    gives (.vmax g d a b f x) true (fun n =>
      if nan n then BitVec.ofNat f.width (canonicalNaN f) else if ltRank (num (la n)) (num (lb n)) then lb n else la n)) ∧
  (∀ (s : State) (g : Guard) (d a b : VReg) (f : Fmt) (x : Option VExt), s.live g →
    let la (n : Nat) : BitVec f.width := laneOf f (s.me.rv a) n
    let lb (n : Nat) : BitVec f.width := laneOf f (s.me.rv b) n
    let lc (n : Nat) : BitVec f.width := laneOf f (s.me.rv (match x with | some e => e.c | none => d)) n
    let num (c : BitVec f.width) : FVal := decodeNum f c.toNat
    let mask (t : Bool) : BitVec f.width := if t then BitVec.allOnes f.width else 0
    let gives (i : Instr) (lane : Nat → BitVec f.width) : Prop :=
      ∃ r, exec i s = .next (s.yields 16 [(2, .v d r)]) ∧ ∀ n, n < f.lanes → laneOf f r n = lane n
    exec (.vand g d a b) s = .next (s.yields 16 [(2, .v d (s.me.rv a &&& s.me.rv b))]) ∧
    exec (.vor g d a b) s = .next (s.yields 16 [(2, .v d (s.me.rv a ||| s.me.rv b))]) ∧
    exec (.vxor g d a b) s = .next (s.yields 16 [(2, .v d (s.me.rv a ^^^ s.me.rv b))]) ∧
    exec (.vmov g d a) s = .next (s.yields 16 [(2, .v d (s.me.rv a))]) ∧
    exec (.vzero g d) s = .next (s.yields 16 [(2, .v d 0)]) ∧
    gives (.vshl g d a b f) (fun n => la n <<< ((lb n).toNat % f.width)) ∧
    gives (.vshr g d a b f) (fun n => la n >>> ((lb n).toNat % f.width)) ∧
    gives (.vsra g d a b f) (fun n => (la n).sshiftRight ((lb n).toNat % f.width)) ∧
    gives (.vcmpeq g d a b f x) (fun n => mask (eqNum (num (la n)) (num (lb n)))) ∧
    gives (.vcmplt g d a b f x) (fun n => mask (ltNum (num (la n)) (num (lb n)))) ∧
    gives (.vcmple g d a b f x) (fun n => mask (ltNum (num (la n)) (num (lb n)) || eqNum (num (la n)) (num (lb n)))) ∧
    gives (.vsel g d a b f x) (fun n => if lc n ≠ 0 then la n else lb n)) ∧
  (∀ (s : State) (g : Guard) (d a b : VReg) (f : Fmt) (x : Option VExt), s.live g →
    let m := immOf x
    let la (n : Nat) : BitVec f.width := if n < f.lanes then laneOf f (s.me.rv a) n else 0
    let lb (n : Nat) : BitVec f.width := if n < f.lanes then laneOf f (s.me.rv b) n else 0
    let gives (i : Instr) (lane : Nat → BitVec f.width) : Prop :=
      ∃ r, exec i s = .next (s.yields 16 [(2, .v d r)]) ∧ ∀ n, n < f.lanes → laneOf f r n = lane n
    gives (.vbcast g d a b f x) (fun _ => la m) ∧
    gives (.vins g d a b f x) (fun n => if n = m then la 0 else laneOf f (s.me.rv d) n) ∧
    gives (.vext g d a b f x) (fun n => if n = 0 then la m else 0) ∧
    gives (.vperm g d a b f x) (fun n => la (lb n).toNat) ∧
    gives (.vslide g d a b f x) (fun n => if n + m < f.lanes then la (n + m) else lb (n + m - f.lanes)) ∧
    gives (.vrev g d a b f x) (fun n => la (f.lanes - 1 - n)))

/-- R114 to R116: viota counts from its immediate; vcvt, vpack and vunpk convert each element once, by its place; at equal formats only
NaNs change. -/
def Obligations.VectorConversion : Prop :=
  ∀ (s : State) (g : Guard) (d a b : VReg) (f : Fmt) (x : Option VExt), s.live g →
    let sf := sfOf f x
    let conv (el code : Nat) : BitVec f.width := BitVec.ofNat f.width (convLane f sf (rndOf x) (immOf x / 8 % 2 == 1) (s.random el) code).1
    let src (v : VReg) (n : Nat) : Nat := (laneOf sf (s.me.rv v) n).toNat
    let p := immOf x % 8
    let gives (i : Instr) (w lat : Nat) (lane : Nat → BitVec f.width) : Prop :=
      ∃ r kind, exec i s = .next ((s.weighs w).emit lat (.v d r) kind) ∧ ∀ n, n < f.lanes → laneOf f r n = lane n
    (f.isIA = true → gives (.viota g d a b f x) 16 2 (fun n => BitVec.ofInt f.width (sxNat 20 (immOf x) + n))) ∧
    (f.isIA = false → gives (.viota g d a b f x) 16 2 (fun n =>
      BitVec.ofNat f.width (roundNum f (rndOf x) (s.random n) (intVal (sxNat 20 (immOf x) + n))).1)) ∧
    (sf.width ≤ f.width → (p + 1) * f.lanes ≤ sf.lanes → gives (.vcvt g d a b f x) 20 3 (fun n => conv n (src a (p * f.lanes + n)))) ∧
    (f.width < sf.width → (p + 1) * sf.lanes ≤ f.lanes → gives (.vcvt g d a b f x) 20 3 (fun n =>
      if p * sf.lanes ≤ n ∧ n < (p + 1) * sf.lanes then conv n (src a (n - p * sf.lanes)) else laneOf f (s.me.rv d) n)) ∧
    (2 * sf.lanes = f.lanes → gives (.vpack g d a b f x) 20 3 (fun n =>
      if n < sf.lanes then conv n (src a n) else conv n (src b (n - sf.lanes)))) ∧
    (sf.lanes = 2 * f.lanes → gives (.vunpk g d a b f x) 20 3 (fun n =>
      BitVec.ofNat f.width (convLane f sf (rndOf x) false (s.random n) (src a (2 * n + immOf x % 2))).1)) ∧
    (sf = f → ∀ el code, code < 2 ^ f.width → (f.isFloat && isNaN (decodeNum f code)) = false → conv el code = BitVec.ofNat f.width code)

/-- R117 to R119: vquant writes 128 element codes and the block's scale byte: with a NaN or an infinity among the values 0xFF and zeros,
for zeros alone 0x7F, otherwise 127 + t, kept within 0 and 254, for the least t with every magnitude at most mx * 2^t; each element is
its value over that scale, saturated and rounded once. vdequant scales the elements back, and a scale of 0xFF gives the canonical NaN.
-/
def Obligations.BlockVectors : Prop :=
  ∀ (s : State) (g : Guard) (d a b : VReg) (f : Fmt) (x : Option VExt), s.live g →
    let sf := sfOf f x
    let v := s.me.rv a
    let values := ((if sf = .f32 then vecLanes sf v ++ vecLanes sf (s.me.rv b) else vecLanes sf v).map (decodeNum sf))
    let mx : Nat := match f with | .e4m3 => 448 | .e5m2 => 57344 | .mk8 => 124 | .i8 => 127 | .i4 => 7 | _ => 1
    let above (y : FVal) (t : Int) : Bool := ltNum (.fin false mx t) (match y with | .fin _ m e => .fin false m e | z => z)
    let bad := values.any (fun y => isNaN y || isInf y)
    let scale := v.toNat / 2 ^ (128 * sf.width) % 256
    (∃ r kind, exec (.vquant g d a b f x) s = .next ((s.weighs 20).emit 3 (.v d r) kind) ∧
      (f.width = 8 ∨ f.width = 4 → sf = .f32 ∨ sf = .bf16 ∨ sf = .f16 →
        let e := r.toNat / 2 ^ (128 * f.width) % 256
        r.toNat < 2 ^ (128 * f.width + 8) ∧
        (bad = true → e = 255 ∧ kind = (if values.any isInf then 1 else 0) ∧ ∀ n, n < 128 → laneOf f r n = 0) ∧
        (bad = false → (values.all isZero = true → e = 127) ∧
          (∀ t, (∀ y ∈ values, above y t = false) → (∃ y ∈ values, above y (t - 1) = true) → (e : Int) = max 0 (min 254 (127 + t))) ∧
          ∀ n, n < 128 → ∀ y, values[n]? = some y →
            let z := scaleNum y (127 - e)
            laneOf f r n = BitVec.ofNat f.width
              (if f.isFloat then roundFloat f (rndOf x) (s.random n) .sat z else roundInt f (rndOf x) (s.random n) z).1))) ∧
    (∃ r kind, exec (.vdequant g d a b f x) s = .next ((s.weighs 20).emit 3 (.v d r) kind) ∧
      (f = .f32 ∨ f = .bf16 ∨ f = .f16 → ∀ n, n < f.lanes →
        laneOf f r n = if scale = 255 then BitVec.ofNat f.width (canonicalNaN f)
          else BitVec.ofNat f.width (roundNum f (rndOf x) (s.random n) (scaleNum (decodeNum sf
            (laneOf sf v ((if f = .f32 then 64 * (immOf x % 2) else 0) + n)).toNat) ((scale : Int) - 127))).1))

/-- R101, R102, R120: reductions leave their result in lane 0 and zeros elsewhere; an integer sum is exact and saturates; the extremes
rank -0 below +0 and any NaN gives the canonical NaN; vredarg gives the place of the extreme, or of the first NaN; a scan gives the
running sums, of floats each rounded to FP32 before the next is added and to the destination once. -/
def Obligations.VectorReductions : Prop :=
  ∀ (s : State) (g : Guard) (d a b : VReg) (f : Fmt) (x : Option VExt), s.live g →
    let sf := sfOf f x
    let codes := vecLanes sf (s.me.rv a)
    let own := vecLanes f (s.me.rv a)
    let root (i : Instr) (r : Nat × Nat) : Prop := exec i s = .next ((s.weighs 40).emit 8 (.v d (BitVec.ofNat 2048 r.1)) r.2)
    (sf.isFA = false → root (.vredsum g d a b f x) (satLane f (codes.map (laneInt sf)).sum)) ∧
    (sf.isFA = true → ∃ y k, treeFold sumStep 7 (codes.map (fun c => (decodeNum sf c, 0))) = [(y, k)] ∧
      root (.vredsum g d a b f x) ((roundNum f (rndOf x) (s.random 0) y).1, worseKind k (roundNum f (rndOf x) (s.random 0) y).2)) ∧
    ((f.isFloat && own.any (fun c => isNaN (decodeNum f c))) = true →
      root (.vredmax g d a b f x) (canonicalNaN f, 0) ∧ root (.vredmin g d a b f x) (canonicalNaN f, 0)) ∧
    ((f.isFloat && own.any (fun c => isNaN (decodeNum f c))) = false →
      (∃ m ∈ own, root (.vredmax g d a b f x) (m, 0) ∧ ∀ c ∈ own, ltRank (decodeNum f m) (decodeNum f c) = false) ∧
      (∃ m ∈ own, root (.vredmin g d a b f x) (m, 0) ∧ ∀ c ∈ own, ltRank (decodeNum f c) (decodeNum f m) = false)) ∧
    (∀ n, n < sf.lanes → (sf.isFloat && isNaN (decodeNum sf (codes.getD n 0))) = true →
      (∀ m, m < n → (sf.isFloat && isNaN (decodeNum sf (codes.getD m 0))) = false) → root (.vredarg g d a b f x) (n, 0)) ∧
    ((∀ c ∈ codes, (sf.isFloat && isNaN (decodeNum sf c)) = false) →
      ∃ n, n < sf.lanes ∧ root (.vredarg g d a b f x) (n, 0) ∧ ∀ m, m < sf.lanes →
        let y := decodeNum sf (codes.getD n 0)
        let z := decodeNum sf (codes.getD m 0)
        if immOf x % 2 = 0 then ltRank y z = false ∧ (m < n → ltRank z y = true) else ltRank z y = false ∧ (m < n → ltRank y z = true)) ∧
    (∃ r kind, exec (.vscan g d a b f x) s = .next ((s.weighs 40).emit 8 (.v d r) kind) ∧
      (sf.isFA = false → ∀ n, n < f.lanes →
        laneOf f r n = BitVec.ofNat f.width (satLane f ((codes.take (min n (sf.lanes - 1) + 1)).map (laneInt sf)).sum).1) ∧
      (sf.isFA = true →
        let y (n : Nat) : FVal := decodeNum sf (laneOf sf (s.me.rv a) n).toNat
        ∀ acc : Nat → FVal, acc 0 = y 0 →
          (∀ n, acc (n + 1) = decodeNum .f32 (laneRound .f32 .rne 0 (addNum false (acc n) (y (n + 1)))).1) →
          ∀ n, n < f.lanes → n < sf.lanes → laneOf f r n = BitVec.ofNat f.width (roundNum f (rndOf x) (s.random n) (acc n)).1))

/-- R122 to R125: the table engine. vtld takes 12 elements of a buffer, reads one in each of 12 cycles and replaces the coefficients
after 16, vtcfg sets range and tails after 2, vtab interpolates each lane: a NaN gives the canonical NaN, a value below lo the lower
tail, one at or above lo + 256 w the upper tail. A table whose lo is no number leaves the lanes open: they are free values. The free
lanes and the time at which vtld takes its elements are the model's (log entries 47 and 48). -/
def Obligations.TableEngine : Prop :=
  ∀ (s : State) (g : Guard) (t : BitVec 2) (n : CbReg) (d a b : VReg) (f : Fmt) (x : Option VExt) (lm um : TailMode) (lo : BitVec 16)
    (q : BitVec 4), s.live g →
    let cb := s.me.cbReg n.toNat
    let tab := s.me.table (b.toNat % 4)
    let sf := sfOf f x
    (cb.conf = true → cb.esz = 8 → 12 ≤ cb.cap → 12 ≤ cb.cnt → s.me.elementsPoisoned cb 12 = false →
      exec (.vtld g t n) s = .next ((((s.weighs 48).modMe (fun k => k.setCb n.toNat { cb with cnt := cb.cnt - 12, con := (cb.con + 12) % max 1 cb.cap })).emit
        12 (.room n.toNat cb.gen 12)).emit 1 (.tread t.toNat
          ((List.range 11).map (fun i => cb.base + (cb.con + i + 1) % max 1 cb.cap * 2 ^ cb.esz)) (wordsOf (s.me.element cb cb.con).1)))) ∧
    -- each later cycle reads one more element as it then stands, and the table lands four cycles after the last
    (∀ (k : Core) (fl : Flight) (i at_ : Nat) (rest : List Nat) (got : List W32),
      let y := k.tableStep fl i (at_ :: rest) got
      let more := got ++ wordsOf (k.gatedView.scratchRead at_ 256)
      (rest = [] → y.what = .table i more ∧ y.due = fl.due + 5) ∧ (rest ≠ [] → y.what = .tread i rest more ∧ y.due = fl.due + 1)) ∧
    (cb.conf = true → cb.esz = 8 → 12 ≤ cb.cap → cb.cnt < 12 → exec (.vtld g t n) s = .next (s.waitsNow 48)) ∧
    exec (.vtcfg g t a lm um lo q) s = .next (s.yields 16 [(2, .tcfg t.toNat lo q lm um
      (if lm = .const ∨ um = .const then (s.me.rv a).setWidth 32 else 0))]) ∧
    (isNaN tab.low = false → isInf tab.low = false → sf.width ≤ 32 →
      ∃ r kind, exec (.vtab g d a b f x) s = .next ((s.weighs 48).emit 6 (.v d r) kind) ∧
        (f.lanes = sf.lanes → ∀ i, i < f.lanes →
          let y := decodeNum sf (laneOf sf (s.me.rv a) i).toNat
          (isNaN y = true → laneOf f r i = BitVec.ofNat f.width (canonicalNaN f)) ∧
          (isNaN y = false → ltNum y tab.low = true →
            laneOf f r i = BitVec.ofNat f.width (tab.tail tab.lmode false f (rndOf x) (s.random i) y)) ∧
          (isNaN y = false → ltNum y tab.low = false → ltNum y tab.high = false →
            laneOf f r i = BitVec.ofNat f.width (tab.tail tab.umode true f (rndOf x) (s.random i) y)) ∧
          (isNaN y = false → ltNum y tab.low = false → ltNum y tab.high = true →
            laneOf f r i = BitVec.ofNat f.width (roundNum f (rndOf x) (s.random i) (tab.poly (tab.place y).1 (tab.place y).2).1).1))) ∧
    (isNaN tab.low = true ∨ isInf tab.low = true → ∃ u r, exec (.vtab g d a b f x) s = .next u ∧ u.mem = s.mem ∧ u.me.v = s.me.v ∧
      u.me.flights = s.me.flights ++ [{ slot := s.now.slot, due := s.now.clk + 6, seq := s.now.seq, what := .v d r, adr := s.now.adr }])

/-! Slot MX: beats and tiles (spec/05, spec/09, spec/10). -/

/-- R166, R172: what a beat of each kind meets before it does anything. A mask of 0 does nothing; two bindings that name slots of one
array trap with code 6, cause 5; the first binding that is unbound (1), has no slot (2), holds a bad record (3) or was lost (4) traps
with code 6, otherwise a poisoned one with code 5; a binding whose record is not there yet makes the slot wait; a parity error in a slot
that the beat reads invalidates the slot, whose refill begins, and makes the beat wait. -/
def Obligations.BeatChecks : Prop :=
  ∀ (s : State) (g : Guard) (m : BitVec 8) (st : Bool) (y : RowStep), s.live g →
    ∀ i ∈ [Instr.mpush g m st, .mstep g m st, .macc g m st y, .mdrain g m st y, .mclr g m st, .mfill g m st y],
    let sel := (selected m st).map (fun e => e.2)
    let status (b : Nat) : Nat := (s.me.bind b).status
    let named := sel.filter (fun b => (s.me.bind b).names)
    let traps (code cause va : Nat) : Prop :=
      ∃ w, exec i s = .next ((s.weighs w).trap { code := code, cause := cause, res := 1, va := va })
    (m = 0 → exec i s = .next (s.weighs 0)) ∧
    (¬ (named.map (fun b => (s.me.bind b).slot / 8)).Nodup → traps 6 5 0) ∧
    ((named.map (fun b => (s.me.bind b).slot / 8)).Nodup →
      (∀ pre b post, sel = pre ++ b :: post → (∀ c ∈ pre, status c ≠ 0 ∧ status c ≠ 4 ∧ status c ≠ 6 ∧ status c ≠ 7) →
        (status b = 0 → traps 6 1 0) ∧ (status b = 4 → traps 6 2 0) ∧ (status b = 6 → traps 6 3 0) ∧ (status b = 7 → traps 6 4 0)) ∧
      (∀ pre b post, sel = pre ++ b :: post → (∀ c ∈ sel, status c ≠ 0 ∧ status c ≠ 4 ∧ status c ≠ 6 ∧ status c ≠ 7) →
        (∀ c ∈ pre, status c ≠ 5) → status b = 5 → traps 5 1 (s.me.bind b).va) ∧
      ((∀ b ∈ sel, (s.me.bind b).names = true) → (∃ b ∈ sel, s.me.bindReady b = false) → ∃ w, exec i s = .next (s.waitsNow w)) ∧
      ((∀ b ∈ sel, s.me.bindReady b = true) → (∃ b ∈ sel, (s.me.tile (s.me.bind b).slot).sound = false) →
        ∃ u, exec i s = .next u ∧ u.now.stalled = true ∧ u.mem = s.mem ∧ u.me.tb = s.me.tb ∧ u.me.s = s.me.s ∧
          u.me.flights = s.me.flights ∧ u.me.at_ = s.me.at_ ∧ u.me.mx = s.me.mx ∧
          ∀ b ∈ sel, let gl := (s.me.bind b).slot
            if (s.me.tile gl).sound = true then (u.me.tile gl).v = true
            else (u.me.tile gl).v = false ∧ (u.me.tile gl).filling = true ∧ (u.me.tile gl).tag = (s.me.tile gl).tag))

/-- R164, R165, R176 to R178: mpush loads the next source element into the selected arrays, with one plane stepped; mstep steps one
more; macc adds each array's group to row RI of its accumulator tile, while RI is below the row limit, and starts a new group. The other
arrays, rows and registers are unchanged. An array keeps the format with which its elements were pushed, whatever AF is later, by the
model's reading (log entry 49). -/
def Obligations.PushStepAccumulate : Prop :=
  ∀ (s : State) (g : Guard) (m : BitVec 8) (st : Bool) (y : RowStep), s.live g → beatGoes s m st →
    let k := s.me
    let sel := beatOn s m st
    let kept (t : State) : Prop := t.mem = s.mem ∧ t.me.s = k.s ∧ t.me.p = k.p ∧ t.me.v = k.v ∧ t.me.tb = k.tb ∧ t.me.tiles = k.tiles ∧
      (∀ a, (∀ e ∈ sel, e.2 / 8 ≠ a) → t.me.array a = k.array a)
    -- the array of a slot as the beat finds it: through another slot than its group's, the group starts anew
    let found (gl : Nat) : ArraySt := if (k.array (gl / 8)).gslot = some gl then k.array (gl / 8) else { k.array (gl / 8) with pc := 0, gslot := some gl }
    (let b := k.cbReg k.mx.scb
     let n := if sel.any (fun e => (k.tile e.2).fmt == .i4) then 2 else 1
     b.conf = true → b.esz = 8 → n ≤ b.cap → n ≤ b.cnt → k.elementsPoisoned b n = false →
      ∃ t, exec (.mpush g m st) s = .next t ∧ kept t ∧ t.me.cbReg k.mx.scb = { b with cnt := b.cnt - n, con := (b.con + n) % max 1 b.cap } ∧
        t.me.flights = k.flights ++ [{ slot := s.now.slot, due := s.now.clk + 1, seq := s.now.seq, what := .room k.mx.scb b.gen n, adr := s.now.adr }] ∧
        { t.me.mx with arrays := k.mx.arrays } = k.mx ∧ t.me.at_ = k.at_ ∧
        ∀ e ∈ sel, t.me.array (e.2 / 8) = { codes := (((k.elements b n).map (elementCodes k.mx.af)).flatMap (·.1)).map (BitVec.ofNat 16), sa := BitVec.ofNat 8 ((((k.elements b n).map (elementCodes k.mx.af)).map (·.2)).headD 0), af := k.mx.af, pc := 1, gslot := some e.2 }) ∧
    (∃ t, exec (.mstep g m st) s = .next t ∧ kept t ∧ { t.me.mx with arrays := k.mx.arrays } = k.mx ∧ t.me.at_ = k.at_ ∧
      t.me.flights = k.flights ∧
      ∀ e ∈ sel, t.me.array (e.2 / 8) = { found e.2 with pc := min ((found e.2).pc + 1) (found e.2).af.width }) ∧
    (∃ t, exec (.macc g m st y) s = .next t ∧ kept t ∧
      { t.me.mx with arrays := k.mx.arrays } = { k.mx with ri := (match y with | .next => (k.mx.ri + 1) % 128 | .hold => k.mx.ri | .rewind => 0) } ∧
      (∀ e ∈ sel, t.me.array (e.2 / 8) = { found e.2 with pc := 0 }) ∧
      (∀ e ∈ sel, k.mx.ri < k.mx.rl → t.me.accRow ((k.mx.acc + e.1) % 48) k.mx.ri =
        (accumulate (k.accRow ((k.mx.acc + e.1) % 48) k.mx.ri) (groupOf (found e.2) k.mx.rank (k.tile e.2))).1) ∧
      (∀ a r, (k.mx.rl ≤ k.mx.ri ∨ ∀ e ∈ sel, (k.mx.acc + e.1) % 48 * 128 + k.mx.ri ≠ a * 128 + r) → t.me.accRow a r = k.accRow a r))

/-- R164, R165, R177, R178: mdrain fires n elements of the drain buffer with row DI of the tiles of its n bindings in the drain format,
zeros from the row limit on; mclr zeroes the tiles; mfill puts n elements into row RI of the tiles (stated for the rounding modes that
need no random number). -/
def Obligations.DrainClearFill : Prop :=
  ∀ (s : State) (g : Guard) (m : BitVec 8) (st : Bool) (y : RowStep), s.live g → beatGoes s m st →
    let k := s.me
    let sel := beatOn s m st
    let n := sel.length
    let stepped (i : Nat) : Nat := match y with | .next => (i + 1) % 128 | .hold => i | .rewind => 0
    let kept (t : State) : Prop := t.mem = s.mem ∧ t.me.s = k.s ∧ t.me.p = k.p ∧ t.me.v = k.v ∧ t.me.tb = k.tb ∧ t.me.tiles = k.tiles
    let fly (lat : Nat) (w : Landing) (kind : Nat) : Flight :=
      { slot := s.now.slot, due := s.now.clk + lat, seq := s.now.seq, what := w, kind := kind, adr := s.now.adr }
    (let b := k.cbReg k.mx.dcb
     let rs (c : Nat) : Nat := stoRandom (k.sysReg 1) (s.now.adr % 2 ^ 48) k.lcs (s.now.k % 2 ^ 32) s.now.slot (128 * (k.mx.di % 128) + c)
     let row (i : Nat) : List W32 := if k.mx.di < k.mx.rl then k.accRow ((k.mx.acc + i) % 48) k.mx.di else List.replicate 128 0
     b.conf = true → b.esz = (if k.mx.df = .f32 ∨ k.mx.df = .i32 then 9 else 8) → n ≤ b.cap → n ≤ b.room →
      ∃ t kind, exec (.mdrain g m st y) s = .next t ∧ kept t ∧ t.me.at_ = k.at_ ∧ t.me.mx.di = stepped k.mx.di ∧ t.me.mx.ri = k.mx.ri ∧
        t.me.cbReg k.mx.dcb = { b with room := b.room - n, prd := (b.prd + n) % max 1 b.cap } ∧
        t.me.flights = k.flights ++ sel.zipIdx.map (fun (e, j) => fly 4 (.bytes (b.base + (b.prd + j) % max 1 b.cap * 2 ^ b.esz)
          (drainElement k.mx.df k.mx.rnd rs (row e.1)).1) 0) ++ [fly 4 (.cnt k.mx.dcb b.gen n) 0] ++ (if kind = 0 then [] else [fly 4 .event kind])) ∧
    (∃ t, exec (.mclr g m st) s = .next t ∧ kept t ∧ t.me.flights = k.flights ∧ t.me.mx.ri = k.mx.ri ∧ t.me.mx.di = k.mx.di ∧
      (∀ a r, r < 128 → t.me.accRow a r = if ∃ e ∈ sel, (k.mx.acc + e.1) % 48 = a then List.replicate 128 0 else k.accRow a r)) ∧
    (let b := k.cbReg k.mx.scb
     b.conf = true → b.esz = (if k.mx.df = .f32 ∨ k.mx.df = .i32 then 9 else 8) → n ≤ b.cap → n ≤ b.cnt → k.elementsPoisoned b n = false →
     k.mx.rnd ≠ .sto →
      ∃ t kind, exec (.mfill g m st y) s = .next t ∧ kept t ∧ t.me.mx.ri = stepped k.mx.ri ∧ t.me.mx.di = k.mx.di ∧
        t.me.cbReg k.mx.scb = { b with cnt := b.cnt - n, con := (b.con + n) % max 1 b.cap } ∧
        t.me.flights = k.flights ++ [fly 1 (.room k.mx.scb b.gen n) 0] ++ (if kind = 0 then [] else [fly 4 .event kind]) ∧
        (∀ j, j < n → t.me.accRow ((k.mx.acc + (sel.getD j (0, 0)).1) % 48) k.mx.ri = (fillValues k.mx.df ((k.elements b n).getD j [])).map (fun v =>
          BitVec.ofNat 32 (roundNum .f32 k.mx.rnd 0 v).1)) ∧
        (∀ a r, (∀ e ∈ sel, (k.mx.acc + e.1) % 48 * 128 + k.mx.ri ≠ a * 128 + r) → t.me.accRow a r = k.accRow a r))

/-- R179 to R181, R182, R184, R185, R188: the setup of the beat machine and the tile bindings. mcfg writes its fields, zeroes RI, DI and
every PC and keeps AREG; mrow's limit is at most 128. tbind of a record that a free array holds binds its lowest slot at once; tunbind
unbinds; tpin and tunpin set and clear the pin of a bound slot; tinv invalidates every slot of the record, whose bindings are lost;
tstat reads a binding. R170, R186, R187: twst writes one element, and twst.row 128 bytes from a buffer element of 128 bytes, into every
slot that holds the record, and writes the bytes through to memory in the next cycle. The cause for a handle that has changed is the
model's reading (log entry 52), and the address in the records of twst's own traps its choice (log entry 116). -/
def Obligations.MatrixSetupAndTileStores : Prop :=
  (∀ (s : State) (g : Guard) (scb dcb : CbReg) (af df : Fmt) (acc : BitVec 6) (rnd : Rnd) (a d o : SReg) (n : BitVec 8) (rank : Bool)
    (t : TbReg) (h : HReg) (excl : Bool), s.live g →
    let k := s.me
    let b := k.bind t.toNat
    let sl := k.tile b.slot
    let only (f : Core → Core) : State := (s.weighs 4).modMe f
    -- the slots of a record: those that hold or fetch it, and a pinned one whose fill has failed
    let of (pa part : Nat) : List Nat := (List.range 64).filter (fun gl => (k.tile gl).holds pa part ||
      ((k.tile gl).pin && (k.tile gl).tag == pa && (k.tile gl).part == part))
    let lost (gls : List Nat) (u : State) : Prop := u.mem = s.mem ∧ u.me.s = k.s ∧ (∀ gl ∈ gls, u.me.tile gl = {}) ∧
      ∀ j, u.me.bind j = if (k.bind j).names = true ∧ (k.bind j).slot ∈ gls then { k.bind j with status := 7 } else k.bind j
    (∃ u, exec (.mcfg g scb af acc dcb df rnd) s = .next u ∧ u.mem = s.mem ∧
      u.me = { k with mx := { k.mx with scb := scb.toNat, af := af, acc := acc.toNat, dcb := dcb.toNat, df := df, rnd := rnd, ri := 0, di := 0, arrays := u.me.mx.arrays } } ∧
      ∀ x, u.me.array x = { k.array x with pc := 0 }) ∧
    exec (.mmode g rank) s = .next (only (fun k => { k with mx := { k.mx with rank := rank } })) ∧
    exec (.mrowReg g a) s = .next (only (fun k => { k with mx := { k.mx with rl := min (s.me.rs a).toNat 128 } })) ∧
    exec (.mrowImm g n) s = .next (only (fun k => { k with mx := { k.mx with rl := min n.toNat 128 } })) ∧
    exec (.tunbind g t) s = .next (only (fun k => k.setBind t.toNat {})) ∧
    (b.names = true → exec (.tpin g t) s = .next (only (fun k => k.setTile b.slot { sl with pin := true })) ∧
      exec (.tunpin g t) s = .next (only (fun k => k.setTile b.slot { sl with pin := false }))) ∧
    (b.names = false → exec (.tpin g t) s = .next (s.weighs 4) ∧ exec (.tunpin g t) s = .next (s.weighs 4) ∧ exec (.tinvBinding g t) s = .next (s.weighs 4) ∧
      exec (.tstat g t d) s = .next (s.yields 4 [(2, .s d (BitVec.ofNat 64 b.status))])) ∧
    (b.names = true → exec (.tstat g t d) s = .next (s.yields 4 [(2, .s d (BitVec.ofNat 64 (b.status + (if sl.v then 8 else 0) +
      b.slot / 8 * 16 + b.slot % 8 * 128 + (if sl.pin then 1024 else 0) + (if sl.filling then 2048 else 0) +
      (if sl.v then (sl.data.getD 0x4080 0).toNat % 16 * 4096 else 0))))])) ∧
    (b.names = true → ∃ u, exec (.tinvBinding g t) s = .next u ∧ lost (of sl.tag sl.part) u) ∧
    (∀ pa home hi, s.tileAccess h o (some .fill) = .ok (.mem pa home hi) →
      (∀ gl, (k.setBind t.toNat {}).matching pa k.partOf = [gl] → (k.setBind t.toNat {}).setArrays t.toNat = [] →
        ∃ u, exec (.tbind g t h o excl) s = .next u ∧ u.mem = s.mem ∧ u.me.s = k.s ∧
          u.me.bind t.toNat = { status := 1, slot := gl, hnd := h.toNat, gen := (s.handle s.cur h.toNat).gen, va := (s.handle s.cur h.toNat).vbase.toNat + (s.me.rs o).toNat } ∧
          (∀ j, j ≠ t.toNat → u.me.bind j = k.bind j)) ∧
      (k.matching pa k.partOf ≠ [] → exec (.tpf g h o) s = .next (s.weighs 4)) ∧
      (k.matching pa k.partOf = [] → exec (.tpf g h o) s = .next (only (fun k => { k with prefetches := k.prefetches ++ [(pa, k.partOf, hi, s.nextReq)] })))) ∧
    (∀ pa home hi, s.tileAccess h o none = .ok (.mem pa home hi) → ∃ u, exec (.tinvAddr g h o) s = .next u ∧ lost (of pa k.partOf) u)) ∧
  (∀ (s : State) (g : Guard) (t : TbReg) (o : SReg) (v : BitVec 8) (n : CbReg), s.live g →
    let k := s.me
    let b := k.bind t.toNat
    let hd := s.handle s.cur b.hnd
    let sl := k.tile b.slot
    let i := (k.rs o).toNat
    let cb := k.cbReg n.toNat
    let size := if sl.fmt = .i4 then 256 else 128
    let past : State := (s.weighs 4).trap { code := 8, cause := 2, res := 1, hnd := b.hnd, gen := hd.gen.toNat, va := b.va }
    let writes (u : State) (off : Nat) (bs : List Byte) : Prop :=
      (∀ gl ∈ k.matching sl.tag sl.part, (k.tile gl).v = true → (u.me.tile gl).data = (bs.zipIdx).foldl (fun d (x, j) => d.set (off + j) x) (k.tile gl).data) ∧
      (∀ gl, gl ∉ k.matching sl.tag sl.part → u.me.tile gl = k.tile gl) ∧ u.mem = s.mem ∧ u.me.s = k.s ∧ u.me.tb = k.tb ∧
      (∃ r, u.me.flights.getLast? = some { slot := s.now.slot, due := s.now.clk + 1, seq := s.now.seq, what := .through r, adr := s.now.adr } ∧
        r.op = .store ∧ r.pa = sl.tag + off ∧ r.data = bs ∧ r.mask = [] ∧ r.core = s.cur)
    k.bindReady t.toNat = true → s.queued s.cur < 16 → hd.gen = b.gen → hd.state = 2 →
      permRefusal .twst true false hd.ronly hd.leaf.toNat = none →
      (128 * size ≤ i → exec (.twst g t o v) s = .next past) ∧ (128 ≤ i → exec (.twstRow g t o n) s = .next past) ∧
      (i < 128 * size → sl.fmt ≠ .i4 → ∃ u, exec (.twst g t o v) s = .next u ∧ u.me.flights.length = k.flights.length + 1 ∧ writes u i [v]) ∧
      (i < 128 * size → sl.fmt = .i4 → ∃ u, exec (.twst g t o v) s = .next u ∧ u.mem = s.mem ∧
        ∀ gl ∈ k.matching sl.tag sl.part, (k.tile gl).v = true →
          let x := 128 * (i / 256) + i % 128
          let old := (k.tile gl).data.getD x 0
          (u.me.tile gl).data = (k.tile gl).data.set x (if i / 128 % 2 = 1 then (old &&& 0x0F) ||| BitVec.ofNat 8 (v.toNat % 16 * 16)
            else (old &&& 0xF0) ||| BitVec.ofNat 8 (v.toNat % 16))) ∧
      (i < 128 → cb.conf = true → cb.esz = 7 → 1 ≤ cb.cap → 1 ≤ cb.cnt → (k.element cb cb.con).2 = false →
        ∃ u, exec (.twstRow g t o n) s = .next u ∧ writes u (128 * i) (k.element cb cb.con).1 ∧
          u.me.cbReg n.toNat = { cb with cnt := cb.cnt - 1, con := (cb.con + 1) % max 1 cb.cap }))

/-! Slot EN and the bank units (spec/16, spec/17, spec/20). -/

/-- R276 to R280, R287, R288, R292: the commands of slot EN. A reference without an engine context traps with code 8, cause 6, one of
another kind with cause 7; a full queue makes the slot wait; otherwise the context takes the command with the next number, and a copy
the formats that its banks have now (R194); a cpyr too, by the model's choice (log entry 98). The channel that a bul's extension word
names needs no grant of its own by the model's choice (log entry 99). Stated where no gated store names a register of the management
core's spaces. R290, R291: tlwait goes on once COUNT has reached its operand, with p(Q) telling whether a command up to there has
failed; tlget samples COUNT or the error record within its four cycles, .errc clearing the record. The cycle of a sample and the trap of
tlwait and tlget at V 0 are the model's (log entry 62). -/
def Obligations.EngineCommands : Prop :=
  (∀ (s : State) (g : Guard) (t : TlReg) (a b : SReg) (fill dup : Bool) (k : BitVec 3) (x : Option W32) (ch : Option (BitVec 8)), s.live g →
    (∀ y ∈ s.me.mark.gated, y.space = none) →
    let v := s.me.tlctx
    let word : Word := mget 0 v t.toNat
    let kind := wbits word 20 4
    let x1 := s.me.rs a
    let x2 := s.me.rs b
    let nobody : Command := { num := 0, opc := 0, k := 0, a := 0, b := 0, ext := none, core := s.cur, ctx := s.me.ctxOf, part := s.me.partOf,
                              after := some (s.now.idx, s.now.seq, s.now.slot) }
    let copies : List (Instr × Command) :=
      [(.cpy g t a b fill x, { nobody with opc := 1, k := if fill then 1 else 0, a := x1, b := x2, ext := x, conv := if x.isSome then copyFormats s.me.bankfs x1 x2 else none }),
       (.cpy2 g t a, { nobody with opc := 2, a := x1 }), (.gath g t a b k x, { nobody with opc := 3, k := k.toNat, a := x1, b := x2, ext := x }),
       (.scat g t a b k x, { nobody with opc := 4, k := k.toNat, a := x1, b := x2, ext := x }), (.kvw g t a x, { nobody with opc := 5, a := x1, ext := x }),
       (.cpyr g t a, { nobody with opc := 6, a := x1, bankf := s.me.bankfs })]
    let others : List (Instr × Command × List Nat × Option Nat) :=
      [(.cred g t a, { nobody with opc := 0x40, a := x1 }, [2], none), (.cgath g t a, { nobody with opc := 0x41, a := x1 }, [2], none),
       (.bul g t a dup ch, { nobody with opc := 0xA0, k := if dup then 1 else 0, a := x1 }, [3], ch.map (·.toNat)),
       (.tlsig g t a, { nobody with opc := 0x62, a := x1 }, [0, 1, 2, 3], none)]
    ∀ f ∈ copies.map (fun c => (c.1, c.2, [0, 1, 2], (none : Option Nat))) ++ others,
      let i := f.1
      let c := f.2.1
      let e := s.tlEngine s.me.partOf word f.2.2.2
      let q := s.eng e
      let num := (match q.queue.getLast? with | some l => l.num | none => q.count.toNat) + 1
      (wbit word 63 = false → exec i s = .next ((s.weighs 4).trap { code := 8, cause := 6, res := 1 })) ∧
      (wbit word 63 = true → kind ∉ f.2.2.1 → exec i s = .next ((s.weighs 4).trap { code := 8, cause := 7, res := 1 })) ∧
      (wbit word 63 = true → kind ∈ f.2.2.1 → 64 ≤ q.queue.length → exec i s = .next (s.waitsNow 4)) ∧
      (wbit word 63 = true → kind ∈ f.2.2.1 → q.queue.length < 64 →
        ∃ u, exec i s = .next u ∧ u.eng e = { q with queue := q.queue ++ [{ c with num := num }] } ∧
          { event := .engineCommandStart, args := { unit := e, idx := num } } ∈ u.pending ∧
          u.me.s = s.me.s ∧ u.me.p = s.me.p ∧ u.me.v = s.me.v ∧ u.me.flights = s.me.flights ∧ u.me.mark.gated = [] ∧
          (restartSlot s s.me.ctxOf e num = none → u.mem = s.mem))) ∧
  (∀ (s : State) (g : Guard) (t : TlReg) (a d : SReg) (q : PReg) (sel : TlSel), s.live g →
    let word : Word := mget 0 s.me.tlctx t.toNat
    let e := s.tlEngine s.me.partOf word none
    let x := s.eng e
    let n := (s.me.rs a).toNat
    (wbit word 63 = false → exec (.tlwait g t a q) s = .next ((s.weighs 4).trap { code := 8, cause := 6, res := 1 }) ∧
      exec (.tlget g t d sel) s = .next ((s.weighs 4).trap { code := 8, cause := 6, res := 1 })) ∧
    (wbit word 63 = true → wbits word 20 4 < 4 →
      (n ≤ x.count.toNat → exec (.tlwait g t a q) s = .next (s.yields 4 [(1, .p q (decide (x.errn ≠ 0 ∧ x.errn ≤ n)))])) ∧
      (x.count.toNat < n → s.bulkUp (engBulk e) = false → exec (.tlwait g t a q) s = .next (s.yields 4 [(1, .p q true)])) ∧
      (x.count.toNat < n → s.bulkUp (engBulk e) = true → exec (.tlwait g t a q) s = .next (s.waitsNow 4)) ∧
      (∃ w, 1 ≤ w ∧ w ≤ 4 ∧ exec (.tlget g t d sel) s = .next (({ (s.weighs 4) with free := s.free + 1 } : State).emit w (.tlSample e sel d (4 - w))))) ∧
    (∀ (c : Nat) (f : Flight), f.what = .tlSample e sel d 0 → f.kind = 0 → d ≠ 0 →
      let u := landOne s c f
      (u.core c).rs d = (match sel with | .count => x.count | _ => BitVec.ofNat 64 (x.errc * 2 ^ 56 + x.errn % 2 ^ 56)) ∧ u.mem = s.mem ∧
      u.eng e = (match sel with | .errc => { x with errn := 0, errc := 0 } | _ => x)))

/-- R268 to R270, R293, R294: group and task instructions on a core that runs a continuation. gjoin and gleave change GROUP at once and
tell the group's home; gbar and gwait ask it and go on with its answer; tspawn, tdec and tarm are sent without a wait. Stated where no
gated store names a register of the management core's spaces. At the home (R267 to R271, R202) a join adds 1 to MEM, writes GROUP of the
record and a NOTIFY that is not 0; a leave subtracts 1, an abnormal one adds 1 to ABN and takes its arrival with it; an arrival adds 1
to ARR, and the barrier completes at ARR = MEM, with ARR 0 and an answer to every member that arrived, whose core swaps the bank of its
window; a gwait is answered with ABN once MEM is 0, when the record dissolves and NOTIFY's node is decremented. Group 0 is the model's
reading (log entry 64). -/
def Obligations.GroupsAndTasks : Prop :=
  (∀ (s : State) (y : Req) (notify : Nat), let k := groupKey y.part y.va
    let s1 := s.dropReq y.id
    let me := (y.ctx, y.pa)
    let mine := (y.ctx, y.pa, y.id)
    s.bulkUp (s.groupHome y.part y.va) = true → y.va ≠ 0 →
    (∀ c, s.coreRunning y.ctx y.pa = some c →
      -- joins and leaves
      (y.op = .gjoin 0 notify → ∀ w, s1.vreadWord y.ctx (y.pa + 8) .core = .ok w →
        let g := (s.group k).getD { ctx := y.ctx }
        applyTask s y = (s1.setGroup k { g with mem := g.mem + 1, members := g.members ++ [me], notify := if notify ≠ 0 then notify else g.notify, notifyCtx := if notify ≠ 0 then y.ctx else g.notifyCtx }).vwriteTry
          y.ctx (y.pa + 8) (wput w 0 16 y.va) .core) ∧
      (y.op = .gjoin y.va notify → ∀ g, s.group k = some g →
        applyTask s y = if notify = 0 then s1 else s1.setGroup k { g with notify := notify, notifyCtx := y.ctx }) ∧
      (y.op = .gleave → ∀ g w, s.group k = some g → me ∈ g.members → 2 ≤ g.mem → g.arr = 0 → s1.vreadWord y.ctx (y.pa + 8) .core = .ok w →
        applyTask s y = (s1.setGroup k { g with mem := g.mem - 1, members := g.members.erase me }).vwriteTry y.ctx (y.pa + 8) (wput w 0 16 0) .core) ∧
      (y.op = .gwait → ∀ g, s.group k = some g → g.mem ≠ 0 → applyTask s y = s1.setGroup k { g with waiters := g.waiters ++ [mine] }) ∧
      (y.op = .gwait → ∀ g, s.group k = some g → g.mem = 0 → applyTask s y = answerGroup s1 y.ctx y.pa 4 g.abn stGood) ∧
      (y.op = .gwait → s.group k = none → applyTask s y = answerGroup s1 y.ctx y.pa 4 0 stGood)) ∧
    -- an arrival or a wait of a run that has been ended is dropped
    (s.coreRunning y.ctx y.pa = none → (∀ p ∈ s.savedAt, p.1 = y.ctx → p.2.1 ≠ y.pa) → y.op = .gbar ∨ y.op = .gwait → applyTask s y = s1) ∧
    -- arrivals
    ((s.coreRunning y.ctx y.pa).isSome = true ∨ (∃ p ∈ s.savedAt, p.1 = y.ctx ∧ p.2.1 = y.pa) → y.op = .gbar →
      (∀ g, s.group k = some g → me ∈ g.members → g.arr + 1 ≠ g.mem →
        applyTask s y = s1.setGroup k { g with arr := g.arr + 1, arrived := g.arrived ++ [mine] }) ∧
      (∀ g, s.group k = some g → me ∈ g.members → g.arr + 1 = g.mem →
        applyTask s y = (g.arrived ++ [mine]).foldl (fun u m => answerGroup u m.1 m.2.1 3 0 0) (s1.setGroup k { g with arr := 0, arrived := [] })) ∧
      (∀ g, s.group k = some g → me ∉ g.members → applyTask s y = answerGroup s1 y.ctx y.pa 3 1 stGood) ∧
      (s.group k = none → applyTask s y = answerGroup s1 y.ctx y.pa 3 1 stGood)) ∧
    -- leaves, normal and abnormal
    (∀ g bad, s.group k = some g → me ∈ g.members →
      let had := bad && g.arrived.any (fun m => m.1 == y.ctx && m.2.1 == y.pa)
      let g1 : Group := { g with mem := g.mem - 1, members := g.members.erase me, abn := if bad then g.abn + 1 else g.abn, arr := if had then g.arr - 1 else g.arr,
                                 arrived := if had then g.arrived.filter (fun m => !(m.1 == y.ctx && m.2.1 == y.pa)) else g.arrived }
      (g1.arr = 0 ∨ g1.arr ≠ g1.mem → g1.mem ≠ 0 → leaveGroup s y.ctx y.part y.va y.pa bad = s.setGroup k g1) ∧
      (g1.arr ≠ 0 → g1.arr = g1.mem → leaveGroup s y.ctx y.part y.va y.pa bad =
        g1.arrived.foldl (fun u m => answerGroup u m.1 m.2.1 3 0 0) (s.setGroup k { g1 with arr := 0, arrived := [] })) ∧
      (g1.mem = 0 → g1.arr = 0 →
        let t := (g1.waiters.foldl (fun u m => answerGroup u m.1 m.2.1 4 g1.abn 0) (s.setGroup k g1)).dropGroup k
        leaveGroup s y.ctx y.part y.va y.pa bad = if g1.notify = 0 then t else (decrementNode t g1.notifyCtx (s.groupHome y.part y.va) g1.notify 0 0).2)) ∧
    -- an answer, and the swap that a completed barrier makes
    (∀ c abn, s.coreRunning y.ctx y.pa = some c → (s.core c).frozen = none → (s.core c).slots.length = 8 →
      (∃ t, answerGroup s y.ctx y.pa 4 abn 0 = t ∧ t.mem = s.mem ∧ ((t.core c).slot 6).reply = some { id := 0, value := BitVec.ofNat 64 abn, status := 0 } ∧
        (t.core c).scratch = (s.core c).scratch ∧ (t.core c).steep = (s.core c).steep) ∧
      ((s.core c).scratch.wf = true → (s.core c).steep.wf = true →
        let base := wbits (mget 0 (s.core c).sys 0x30) 0 5 * 0x8000
        ∃ t, answerGroup s y.ctx y.pa 3 0 0 = t ∧ t.mem = s.mem ∧ ((t.core c).slot 6).reply = some { id := 0, value := 0, status := 0 } ∧
          (∀ a, a < 0x8000 → (t.core c).scratch.byte (base + a) = (s.core c).steep.byte a ∧ (t.core c).steep.byte a = (s.core c).scratch.byte (base + a)) ∧
          (∀ a, a < base ∨ base + 0x8000 ≤ a → (t.core c).scratch.byte a = (s.core c).scratch.byte a)))) ∧
  ∀ (s : State) (g : Guard) (a b d : SReg) (q : PReg) (r : Running), s.live g → s.me.running = some r → s.now.stalled = false → s.queued s.cur < 16 →
    (∀ y ∈ s.me.mark.gated, y.space = none) →
    let x := (s.me.rs a).toNat % 65536
    let sl := s.me.slot s.now.slot
    let w := s.weighs 4
    let quit := commitDisarm w s.cur
    let done := commitGated w s.cur s.now.seq
    let sent (i : Instr) (op : ReqOp) (va pa home grp : Nat) : Prop :=
      ∃ u, exec i s = .next u ∧ u.mem = s.mem ∧ u.me.s = s.me.s ∧ u.me.flights = s.me.flights ∧ u.me.running = some { r with group := grp } ∧
        u.me.mark.gated = [] ∧ u.me.mark.armed = (s.me.mark.armed && s.me.svc) ∧
        ∃ y ∈ u.fabric, s.nextReq ≤ y.id ∧ y.op = op ∧ y.va = va ∧ y.pa = pa ∧ y.home = home ∧ y.core = s.cur ∧ y.wantReply = false
    let heard (i : Instr) (ls : Reply → List Landing) : Prop :=
      ∀ y, sl.reply = some y → ∃ u, exec i s = .next u ∧ u.mem = s.mem ∧ u.me.s = s.me.s ∧
        u.me.flights = s.me.flights ++ (ls y).map (fun l => { slot := s.now.slot, due := s.now.clk + 1, seq := s.now.seq, what := l, adr := s.now.adr })
    let count (y : Reply) : Nat := if y.status = 0 then y.value.toNat else 0xFFFFFFFF
    (x ≠ 0 → sent (.gjoin g a b) (.gjoin r.group (s.me.rs b).toNat) x r.recA (s.groupHome r.part x) x) ∧
    (x = 0 → exec (.gjoin g a b) s = .next quit) ∧
    (x ≠ 0 → x = r.group → sent (.gleave g a) .gleave x r.recA (s.groupHome r.part x) 0) ∧
    (x = 0 ∨ x ≠ r.group → exec (.gleave g a) s = .next quit) ∧
    heard (.gbar g a q) (fun y => [.p q (decide (y.status ≠ 0 ∨ y.value ≠ 0))]) ∧
    heard (.gwait g d q a) (fun y => [.s d (BitVec.ofNat 64 (count y)), .p q (decide (count y ≠ 0))]) ∧
    (sl.reply = none → sl.waiting.isSome = true → exec (.gbar g a q) s = .next (s.waitsNow 4) ∧ exec (.gwait g d q a) s = .next (s.waitsNow 4)) ∧
    (sl.reply = none → sl.waiting = none → s.standing .gbar x = false →
      (x = 0 ∨ x ≠ r.group → exec (.gbar g a q) s = .next (quit.emit 1 (.p q true))) ∧
      (x ≠ 0 → x = r.group → done.settled s.cur .dev s.now.idx s.now.seq s.now.slot = true → done.me.downNote = false →
        exec (.gbar g a q) s = .next ((commitDisarm done s.cur).ask { groupRequest done .gbar x with wantReply := true } 0))) ∧
    (sl.reply = none → sl.waiting = none → s.standing .gwait x = false →
      (x = 0 → exec (.gwait g d q a) s = .next ((quit.emit 1 (.s d 0)).emit 1 (.p q false))) ∧
      (x ≠ 0 → x = r.group → exec (.gwait g d q a) s = .next ((quit.emit 1 (.s d 0xFFFFFFFF)).emit 1 (.p q true))) ∧
      (x ≠ 0 → x ≠ r.group → exec (.gwait g d q a) s = .next (quit.ask { groupRequest w .gwait x with wantReply := true } 0))) ∧
    (let y := (s.me.rs a).toNat
     sent (.tspawn g a) .spawn y r.node (s.cur / 8) r.group ∧ sent (.tdec g a) .tdec y r.node (s.nodeHome s.cur y) r.group ∧
       sent (.tarm g a b) (.tarm ((s.me.rs b).setWidth 32)) y r.node (s.nodeHome s.cur y) r.group)

/-- R320 to R323: one move of a bank unit whose guard holds: the source's value goes to the port, and the port's effect is on the run. A
false guard only moves on; a program that ends, an unread row and too many moves end the run with causes 3 and 5. A move is one turn of
the bank unit, and an FP32 NaN is read as it stands, by the model's choice (log entries 1 and 114). -/
def Obligations.BankUnitMoves : Prop :=
  ∀ (s : State) (src : MoveSrc) (g : BitVec 2) (r : MoveRun), s.run = some r →
    let u := s.unit
    let size := match src with | .imm _ => 2 | _ => 1
    let r1 : MoveRun := { r with pc := r.pc + size, moves := r.moves + 1 }
    let holds : Prop := match g.toNat with | 0 => True | 1 => r.g0 = true | 2 => r.g1 = true | _ => r.g0 = false
    let all : List Instr := [.moveNull src g, .moveRowk src g, .moveFmaA src g, .moveFmaT src g, .moveAcc src g, .moveOut src g, .moveLcSet src g,
      .moveLcT src g, .moveBr src g, .moveEnd src g, .moveAcc1 src g, .moveFmaT1 src g, .moveAddA src g, .moveAddT src g, .moveMulA src g,
      .moveMulT src g, .moveCmpA src g, .moveCmpT src g]
    (∀ i ∈ all, (2 ^ 24 ≤ r.moves → exec i s = .next (s.endRun r none 5)) ∧
      (r.moves < 2 ^ 24 → u.prog.length < r.pc + size → exec i s = .next (s.endRun r none 3)) ∧
      (r.moves < 2 ^ 24 → r.pc + size ≤ u.prog.length →
        (¬ holds → exec i s = .next (s.goOn r1)) ∧ (holds → src = .kel → r.row = none → exec i s = .next (s.endRun r none 3)))) ∧
    (r.moves < 2 ^ 24 → r.pc + size ≤ u.prog.length → holds → ∀ (v : W32) (r2 : MoveRun),
      (match src with
       | .zero => v = 0 ∧ r2 = r1
       | .kel => ∃ row, r.row = some row ∧ v = elementF32 u.kfmt row r.kel ∧ r2 = { r1 with kel := (r.kel + 1) % 128 }
       | .qel => v = elementF32 u.qfmt u.query r.qel ∧ r2 = { r1 with qel := (r.qel + 1) % 128 }
       | .acc => v = r.acc ∧ r2 = r1
       | .lc => v = r.lc ∧ r2 = r1
       | .acc1 => v = r.acc1 ∧ r2 = r1
       | .addR => v = r.addR ∧ r2 = r1
       | .mulR => v = r.mulR ∧ r2 = r1
       | .kidx => v = r.kidx ∧ r2 = r1
       | .oidx => v = BitVec.ofNat 32 r.oidx ∧ r2 = r1
       | .imm w => v = w.signExtend 32 ∧ r2 = r1) →
      let goes (i : Instr) (r' : MoveRun) : Prop := exec i s = .next (s.setUnit { u with runs := u.runs.drop 1 ++ [r'] })
      goes (.moveNull src g) r2 ∧ goes (.moveFmaA src g) { r2 with fmaA := v } ∧ goes (.moveAcc src g) { r2 with acc := v } ∧
      goes (.moveAcc1 src g) { r2 with acc1 := v } ∧ goes (.moveAddA src g) { r2 with addA := v } ∧ goes (.moveMulA src g) { r2 with mulA := v } ∧
      goes (.moveCmpA src g) { r2 with cmpA := v } ∧ goes (.moveLcSet src g) { r2 with lc := v } ∧
      goes (.moveLcT src g) { r2 with lc := r.lc - 1, g0 := decide (r.lc ≠ 1) } ∧
      goes (.moveFmaT src g) { r2 with acc := roundF32 (fmaNum false (f32 r.fmaA) (f32 v) (f32 r.acc)).1 } ∧
      goes (.moveFmaT1 src g) { r2 with acc1 := roundF32 (fmaNum false (f32 r.fmaA) (f32 v) (f32 r.acc1)).1 } ∧
      goes (.moveAddT src g) { r2 with addR := roundF32 (addNum false (f32 r.addA) (f32 v)).1 } ∧
      goes (.moveMulT src g) { r2 with mulR := roundF32 (mulNum (f32 r.mulA) (f32 v)).1 } ∧
      goes (.moveCmpT src g) { r2 with g0 := ltNum (f32 r.cmpA) (f32 v), g1 := eqNum (f32 r.cmpA) (f32 v) } ∧
      (r.oidx + 4 ≤ u.olen → goes (.moveOut src g) { r2 with out := r.out ++ (List.range 4).map (fun i => v.extractLsb' (8 * i) 8), oidx := r.oidx + 4, g1 := decide (r.oidx + 8 ≤ u.olen) }) ∧
      (u.olen < r.oidx + 4 → exec (.moveOut src g) s = .next (s.endRun r2 none 4)) ∧
      (v.toNat < u.prog.length → goes (.moveBr src g) { r2 with pc := v.toNat }) ∧
      (u.prog.length ≤ v.toNat → exec (.moveBr src g) s = .next (s.endRun r2 none 3)) ∧
      exec (.moveEnd src g) s = .next (s.endRun r2 (some (r.out ++ List.replicate (u.olen - r.out.length) 0)) 0) ∧
      (let k := r.kidx + 1
       let w := u.keys.getD r.copy (0, 0)
       let n := 16 * u.kfmt.width
       (w.2 < (k.toNat + 1) * n → exec (.moveRowk src g) s = .next (s.endRun r2 none 4)) ∧
       ((k.toNat + 1) * n ≤ w.2 → wbits (s.buctlReg s.ev.unit) 0 16 ≠ 0 → s.bankBusy s.ev.unit (bankAt (w.1 + k.toNat * n)) = false ∨ r.promoted = true →
         (s.physRead u.part (w.1 + k.toNat * n) n).2 = false →
         goes (.moveRowk src g) { r2 with kidx := k, row := some (s.physRead u.part (w.1 + k.toNat * n) n).1, kel := 0, waitSince := none, promoted := false })))

/-! Events of the cores (spec/02, spec/12, spec/13, spec/21). -/

/-- R16, R20, R25, R30, R33, R34: the stages of a core's cycle as events. A core that runs dispatches and issues; results that are due
land: CNT and ROOM rise by the elements of the landed results, and a table takes its new coefficients; the fortieth cycle of an
expansion reads the segment, and so does the end of a refill, which stands at its target. Events name one of 257 cores; an event of
another has no effect. R25, R56, R59, R339: a bundle that is legal when it is first dispatched joins the queues of the slots: it takes
the next index and place in issue order, and control goes to its next issue or falls through; an illegal one traps with code 1, RES 3
once the slots have caught up. At a safe point with a mark armed the gated stores are performed first. That the stages of a cycle are
also events of their own is the table's; their order within a turn, that an event of a missing unit has no effect, and the cycle in
which the bytes of a segment are read, are the model's (log entries 1, 84 and 92). -/
def Obligations.CoreStagesAndDispatch : Prop :=
  (∀ (s : State), let c := s.ev.unit
    let s0 : State := { s with cur := c, now := {} }
    let k := s.core c
    let runs : Prop := k.active = true ∧ (∀ r, k.running = some r → r.dbg = false) ∧ k.refill = 0
    -- the results of a kind that are due leave the flights; registers of other kinds keep their values
    let landed (t : State) (which : Landing → Bool) : Prop :=
      t.mem = s.mem ∧ (t.core c).s = k.s ∧ (t.core c).p = k.p ∧ (t.core c).v = k.v ∧ (t.core c).scratch = k.scratch ∧
        (t.core c).flights = k.flights.filter (fun f => !(which f.what && k.isDue f && !f.traps))
    (c ≤ 256 →
      (runs → exec .bundleDispatch s = .next (dispatchStage s0 c)) ∧ (¬ runs → exec .bundleDispatch s = .next s0) ∧
      (runs → exec .bundleIssue s = .next (issueStage s0 s0 c [0, 1, 2, 3, 4, 5, 6, 7])) ∧ (¬ runs → exec .bundleIssue s = .next s0) ∧
      (runs → exec .syncMet s = .next (issueStage s0 s0 c k.syncReady)) ∧ (¬ runs → exec .syncMet s = .next s0) ∧
      (s.ev.idx < 8 → runs → exec .cbFire s = .next (issueStage s0 s0 c [s.ev.idx])) ∧ (s.ev.idx < 8 → ¬ runs → exec .cbFire s = .next s0) ∧
      exec .resultLanding s = .next (landDue s0 c) ∧
      (∃ t, exec .cbCountRise s = .next t ∧ landed t (fun x => match x with | .cnt _ _ _ => true | .room _ _ _ => true | _ => false) ∧
        ∀ n, let b := k.cbReg n
          let rise (pick : Landing → Nat) : Nat := ((k.flights.filter (fun f => k.isDue f && !f.traps)).map (fun f => pick f.what)).sum
          if b.conf = true ∧ b.gen % 2 = 0 then
            (t.core c).cbReg n = { b with
              cnt := b.cnt + rise (fun x => match x with | .cnt m gen j => if m = n ∧ gen = b.gen then j else 0 | _ => 0)
              room := b.room + rise (fun x => match x with | .room m gen j => if m = n ∧ gen = b.gen then j else 0 | _ => 0) }
          else (t.core c).cbReg n = b) ∧
      (∃ t, exec .tableSwap s = .next t ∧ landed t (fun x => match x with | .table n _ => n == s.ev.idx | _ => false) ∧
        (∀ j, j ≠ s.ev.idx → (t.core c).table j = k.table j) ∧
        ∀ f w, k.flights.filter (fun f => (match f.what with | .table n _ => n == s.ev.idx | _ => false) && k.isDue f && !f.traps) = [f] →
          f.what = .table s.ev.idx w →
          (∀ i, mget 0 ((t.core c).table s.ev.idx).coeffs i = w.getD i 0) ∧
          { (t.core c).table s.ev.idx with coeffs := (k.table s.ev.idx).coeffs } = k.table s.ev.idx) ∧
      (k.expandLeft = 1 → ∀ o, k.other = some o → exec .segmentExpansionComplete s =
        let sg := s0.readSegment (s0.ctxAt c) o.head (s0.rootOf c) (some (bulkOf c))
        match s0.codePage (s0.ctxAt c) o.head (s0.rootOf c) with
        | some page => .next (s0.pullCode c page)
        | none => .next ((s0.setCore c { k with expandLeft := 0, other := some sg }).readingCode (s0.ctxAt c) (bulkOf c) sg (s0.rootOf c))) ∧
      (k.expandLeft ≠ 1 → exec .segmentExpansionComplete s = .next s0) ∧
      (∀ head target, k.refillTo = some (head, target) → k.refill = 0 → exec .segmentRefillComplete s =
        let sg := s0.readSegment (s0.ctxAt c) head (s0.rootOf c) (some (bulkOf c))
        match s0.codePage (s0.ctxAt c) head (s0.rootOf c) with
        | some page => .next (s0.pullCode c page)
        | none => .next ((s0.setCore c { k with seg := some sg, refillTo := none, pc := target }).readingCode (s0.ctxAt c) (bulkOf c) sg (s0.rootOf c))) ∧
      (k.refillTo = none ∨ k.refill ≠ 0 → exec .segmentRefillComplete s = .next s0)) ∧
    (256 < c → ∀ e ∈ [Instr.bundleDispatch, .bundleIssue, .syncMet, .resultLanding, .cbCountRise, .tableSwap, .segmentExpansionComplete, .segmentRefillComplete],
      exec e s = .next s) ∧
    (256 < c ∨ 8 ≤ s.ev.idx → exec .cbFire s = .next s)) ∧
  (∀ (s : State) (c : Nat) (sg : Seg), let k := s.core c
    k.drain = .none → k.brWait = none → k.refill = 0 → k.refillTo = none → k.nextIdx ≤ k.maxNext → k.nextIdx < k.minNext + 16 →
    stalledGroup s c = none → k.seg = some sg → k.mark.poisoned = [] → sg.bad = 0 → sg.holds k.pc = true → wbit (k.sysReg 9) 0 = false →
    let b := sg.bundleAt k.pc
    let re := [2, 3, 4, 5, 6].filterMap (fun i => (k.installed i).map (fun op => (i, op)))
    let last := decide (k.rptK = b.rpt)
    let fall := if b.segend then (if sg.next = 0 then 0 else sg.next + 16) else k.pc + 4 * b.len
    let safe := s.isSafe k.partOf k.pc b.safe && !k.svc
    let check := if k.rptK = 0 then checkBundle (isMgmt c) k.svc safe k.cbReg re sg k.pc b else .ok b.operations
    let commits : Prop := k.rptK = 0 ∧ safe = true ∧ k.mark.armed = true ∧ k.mark.commit < 8 * k.nextOrd
    (commits → dispatchStage s c = commitGated s c (8 * k.nextOrd)) ∧
    (¬ commits → ∀ syls, check = .ok syls →
      let t := dispatchStage s c
      ∃ q, (t.core c).issues = k.issues ++ [q] ∧ q.idx = k.nextIdx ∧ q.ord = k.nextOrd ∧ q.adr = k.pc ∧ q.fall = fall ∧ q.syls = syls ∧
        q.sync = b.sync ∧ q.last = last ∧ q.first = decide (k.rptK = 0) ∧ (t.core c).nextIdx = k.nextIdx + 1 ∧ (t.core c).nextOrd = k.nextOrd + 1 ∧
        (t.core c).pc = (if last then fall else k.pc) ∧ (t.core c).rptK = (if last then 0 else k.rptK + 1) ∧
        (t.core c).s = k.s ∧ (t.core c).slots = k.slots ∧ (t.core c).flights = k.flights ∧ t.mem = s.mem) ∧
    (¬ commits → ∀ ilb, check = .error ilb → k.caughtUp = true →
      dispatchStage s c = takeTrap { code := 1, cause := 0, res := 3, adr := k.pc, ilb := ilb } s) ∧
    (¬ commits → ∀ ilb, check = .error ilb → k.caughtUp = false → ((dispatchStage s c).core c).pc = k.pc ∧
      ((dispatchStage s c).core c).issues = k.issues ∧ (dispatchStage s c).mem = s.mem))

/-- R206, R210, R230: the end of a walk makes a pending handle valid or faulted; a reply meets the slot that waits for it. R104, R213,
R306, R341, R348, R353, R375, R379: registers of a core or context as other agents write them. A mailbox write sets IRQ.MBOX, a timer
that TIME has reached IRQ.TIMER, a report IRQ.FAULT of the management core. An invalidation faults the handles of its context in every
core of the partition, and ends once no access under the old translations is left. That an invalidation reaches all cores in one step,
when TIMER is set and that an FEL written with VALID 0 reads 0 are the model's readings, and that an event of a missing unit has no
effect is its choice (log entries 18, 19, 84 and 101). -/
def Obligations.RepliesAndRegisters : Prop :=
  (∀ (s : State),
    (let c := s.ev.unit
     let h := s.ev.idx
     let k := s.core c
     let hd : Handle := mget {} k.h h
     let s0 : State := { s with cur := c, now := {} }
     let x := s0.ctxAt c
     let va := hd.vbase.toNat
     let becomes (hd' : Handle) (t : State) : Prop :=
       exec .xlatComplete s = .next t ∧ mget {} (t.core c).h h = hd' ∧ (∀ j, j ≠ h → mget {} (t.core c).h j = (mget {} k.h j : Handle)) ∧
       (t.core c).s = k.s ∧ t.mem = s.mem
     c ≤ 256 → h < 15 →
      (hd.gen.toNat ≠ s.ev.aux ∨ hd.state ≠ 1 → exec .xlatComplete s = .next s0) ∧
      (hd.gen.toNat = s.ev.aux → hd.state = 1 → s.migrations = [] →
        (∀ cause, s0.walk x va (s0.rootOf c) = .error cause → ∃ t, becomes { hd with state := 3, cause := cause } t) ∧
        (∀ l, s0.walk x va (s0.rootOf c) = .ok l → l.cache ≠ 2 → ∃ t, becomes { hd with state := 2, pbase := l.frame + va % l.bytes, limit := l.bytes - va % l.bytes, leaf := BitVec.ofNat 48 l.hi, size := BitVec.ofNat 4 l.size, cause := 0 } t))) ∧
    (∀ c (r : Reply) i, s.replies.find? (fun y => y.2.1.id == s.ev.unit) = some (c, r, i) →
      let k := s.core c
      k.elems.any (fun e => e.id == s.ev.unit) = false → k.frozen = none → (k.slot i).waiting = some r.id → i < k.slots.length →
      ∃ t, exec .replyArrival s = .next t ∧ ((t.core c).slot i).reply = some r ∧ ((t.core c).slot i).waiting = some r.id ∧
        (∀ j, j ≠ i → (t.core c).slot j = k.slot j) ∧ (t.core c).s = k.s ∧ t.mem = s.mem ∧
        t.replies = s.replies.filter (fun y => y.2.1.id != s.ev.unit)) ∧
    (s.replies.find? (fun y => y.2.1.id == s.ev.unit) = none → exec .replyArrival s = .next s)) ∧
  (∀ (s : State), let c := s.ev.unit
    let k := s.core c
    let s0 : State := { s with cur := c, now := {} }
    let v := s.ev.value
    let irq (bit : Nat) (t : State) (c : Nat) : Prop := (t.core c).sysReg 9 = (s.core c).sysReg 9 ||| BitVec.ofNat 64 (2 ^ bit)
    let same (t : State) : Prop := t.mem = s.mem ∧ (t.core c).s = k.s ∧ (t.core c).flights = k.flights ∧ (t.core c).pc = k.pc
    (c ≤ 256 →
      (∃ t, exec .felWrite s = .next t ∧ same t ∧ (t.core c).sysReg 0 = if wbit v 63 = true then v &&& sysMask 0 else 0) ∧
      (∃ t, exec .mb7Write s = .next t ∧ same t ∧ (t.core c).sysReg 0x27 = v ∧
        t.msixWait = s.msixWait ++ (if 2 ≤ v.toNat % 64 ∧ k.running.isSome = true then
          [{ core := c, part := k.partOf, vec := v.toNat % 64, seq := 8 * k.nextOrd, slot := 8 }] else [])) ∧
      (∀ i, s.ev.idx = i → i < 8 → ∃ t, exec .mailboxWrite s = .next t ∧ same t ∧ (t.core c).sysReg (0x20 + i) = v ∧ irq 1 t c) ∧
      (k.sysReg 0xA ≠ 0 → (k.sysReg 0xA).toNat ≤ s.time → ∃ t, exec .timerMatch s = .next t ∧ same t ∧ irq 2 t c) ∧
      (k.sysReg 0xA = 0 ∨ s.time < (k.sysReg 0xA).toNat → exec .timerMatch s = .next s0) ∧
      (∀ r, k.running = some r → r.dbg = true → s.ev.flag = false → ∃ t, exec .debugFreezeResume s = .next t ∧ t.mem = s.mem ∧ (t.core c).s = k.s ∧
        (t.core c).running = some { r with dbg := false } ∧ (t.core c).refill = 40 ∧ (t.core c).pc = k.pc) ∧
      (∀ r, k.running = some r → r.dbg = true → s.ev.flag = true → (∀ j, j < 7 → k.nextIdx ≤ (k.slot j).next) →
        exec .debugFreezeResume s = .next (takeTrap { code := 3, cause := s.ev.idx, res := 0, slot := 7, adr := s.ev.aux, after := true }
          (({ s0 with pending := s.pending.filter (fun y => !(y.event == .debugFreezeResume && y.args.unit == c)) } : State).modCore c
            (fun k => { k with running := some { r with dbg := false } })))) ∧
      (∀ r, k.running = some r → r.dbg = false → exec .debugFreezeResume s = .next s0)) ∧
    (∃ t, exec .faultReport s = .next t ∧ t.mem = s.mem ∧ t.faultNotes = s.faultNotes ++ [s.ev.note] ∧ irq 4 t 256) ∧
    (c < 4096 →
      (s.lines = [] → (s.ctxd c 0x18).toNat < 2 ^ 16 → ∃ t, exec .waymaskWrite s = .next t ∧ t.mem = s.mem ∧ t.cores = s.cores ∧
        t.ctxd c 0x18 = if s.ev.flag then BitVec.ofNat 64 (v.toNat % 2 ^ 16) else s.ctxd c 0x18 &&& v) ∧
      (wbit (mget 0 s.invalidations c) 63 = true → exec .pginvWrite s = .next s) ∧
      (wbit (mget 0 s.invalidations c) 63 = false → ∃ t, exec .pginvWrite s = .next t ∧ t.mem = s.mem ∧ wbit (mget 0 t.invalidations c) 63 = true ∧
        (∀ d i, s.partHas (s.ctxPart c) (d / 8) = true → (s.core d).handleCtx = c → wbit v 62 = true → i < 15 →
          ((mget {} (s.core d).h i : Handle).state = 2 → (mget {} (t.core d).h i : Handle).state = 3 ∧ (mget {} (t.core d).h i : Handle).cause = 6)) ∧
        (∀ d, s.partHas (s.ctxPart c) (d / 8) = false → t.core d = s.core d) ∧ (∀ d, (s.core d).handleCtx ≠ c → (t.core d).h = (s.core d).h))) ∧
    (c < 4160 → wbit (mget 0 s.invalidations c) 63 = true → oldAccesses s (s.invPart c) s.ev.aux = false →
      ∃ t, exec .invalidationComplete s = .next t ∧ wbit (mget 0 t.invalidations c) 63 = false ∧ t.cores = s.cores ∧ t.mem = s.mem) ∧
    (c < 4160 → wbit (mget 0 s.invalidations c) 63 = true → oldAccesses s (s.invPart c) s.ev.aux = true →
      exec .invalidationComplete s = .next (s.pend .invalidationComplete { unit := c, aux := s.ev.aux })) ∧
    (s.bootOk = true → s.ev.reg.off % 8 = 0 → s.ev.reg.vf = none →
      (s.ev.reg.off < 0x200000 → exec .registerWrite s = .next (mgmtWrite s s.ev.reg.off v)) ∧
      (0x200000 ≤ s.ev.reg.off → s.ev.reg.off < 0x600000 → exec .registerWrite s = .next (hubWrite s (s.ev.reg.off - 0x200000) v)) ∧
      (0x600000 ≤ s.ev.reg.off → exec .registerWrite s = .next s)) ∧
    (s.bootOk = true → s.ev.reg.off % 8 = 0 → ∀ f, s.ev.reg.vf = some f →
      (f < 64 → s.ev.reg.off < 0x100000 → exec .registerWrite s = .next (writeVf s f s.ev.reg.off v)) ∧
      (64 ≤ f ∨ 0x100000 ≤ s.ev.reg.off → exec .registerWrite s = .next s)) ∧
    (s.bootOk = false ∨ s.ev.reg.off % 8 ≠ 0 → exec .registerWrite s = .next s))

/-- R155 to R159, R172, R214 to R216, R337: a tile fill ends with its record, or loses its bindings with a status; errors of the arrays.
The slot keeps its pin when the fill fails. An error in a tile slot turns a bit over and leaves its parity; the scrubber that reads the
slot frees it when it is neither bound nor pinned, and starts its refill otherwise. An uncorrectable error of memory poisons its
granule. Which status a refused home gives and how prefetches wait are the model's readings, and that an event of a missing unit has no
effect is its choice (log entries 53, 54 and 84). -/
def Obligations.StorageEvents : Prop :=
  ∀ (s : State), let c := s.ev.unit
    let gl := s.ev.idx
    let k := s.core c
    let t0 := k.tile gl
    let s0 : State := { s with cur := c, now := {} }
    (c ≤ 256 → gl < 64 → (∀ y ∈ k.mark.gated, y.space = none) →
      (t0.filling = false ∨ t0.running = false ∨ t0.order ≠ s.ev.aux ∨ t0.source ≠ none → exec .tileFillComplete s = .next s0) ∧
      (t0.filling = true → t0.running = true → t0.order = s.ev.aux → t0.source = none → t0.due ≤ k.cycle →
        let rec_ := readRecord s0 c t0.part t0.hi t0.tag
        let bad := rec_.2.1
        ∃ t, exec .tileFillComplete s = .next t ∧ t.mem = rec_.2.2.mem ∧ (t.core c).s = k.s ∧
          (bad = false → recordBad rec_.1 = false → (t.core c).tile gl = { t0 with v := true, filling := false, running := false, source := none, merges := [], seq := none, data := mergeBytes rec_.1 t0.merges, par := recordPar (mergeBytes rec_.1 t0.merges) } ∧ (t.core c).tb = k.tb) ∧
          (bad = true ∨ recordBad rec_.1 = true → (t.core c).tile gl = { tag := t0.tag, part := t0.part, pin := t0.pin } ∧
            ∀ j, (k.bind j).names = true → (k.bind j).slot = gl → ((t.core c).bind j).status = (if bad = true then 5 else 6))) ∧
      (t0.filling = true → t0.running = true → t0.source.isSome = true → t0.due ≤ k.cycle →
        ∃ t, exec .replicaCopyComplete s = .next t ∧ t.mem = s.mem ∧ (t.core c).tile gl = { t0 with v := true, filling := false, running := false, source := none, merges := [], seq := none, data := mergeBytes t0.data t0.merges, par := mergedPar t0.data t0.merges t0.par })) ∧
    (c ≤ 256 → k.prefetches = [] → exec .prefetchFillStart s = .next s0) ∧
    (c ≤ 256 → ∀ pa part hi born g, k.prefetches = [(pa, part, hi, born)] → k.fillsRunning < 8 → k.fillsWaiting = [] → k.matching pa part = [] → k.victim [] = some g → k.candidate [] g = true →
      ∃ t, exec .prefetchFillStart s = .next t ∧ t.mem = s.mem ∧ (t.core c).prefetches = [] ∧ ((t.core c).tile g).filling = true ∧ ((t.core c).tile g).tag = pa) ∧
    (∀ d g b, s.ev.place = .tile d g b → d < 256 → ((s.core d).tile g).v = true →
      let x := (s.core d).tile g
      (∃ t, exec .uncorrectableError s = .next t ∧ (t.core d).tile g = { x with data := x.data.set b (x.data.getD b 0 ^^^ 1) } ∧
        (∀ j, j ≠ g → (t.core d).tile j = (s.core d).tile j) ∧ t.mem = s.mem) ∧
      (x.sound = true → exec .scrub s = .next s) ∧
      (x.sound = false → ∃ t, exec .scrub s = .next t ∧ t.mem = s.mem ∧ (t.core d).tb = (s.core d).tb ∧
        ((s.core d).bound g = false → x.pin = false → (t.core d).tile g = {} ∧ ∀ j, j ≠ g → (t.core d).tile j = (s.core d).tile j) ∧
        ((s.core d).bound g = true ∨ x.pin = true → ((t.core d).tile g).v = false ∧ ((t.core d).tile g).filling = true ∧
          ((t.core d).tile g).tag = x.tag ∧ ((t.core d).tile g).pin = x.pin))) ∧
    (∀ b a, s.ev.place = .line b a → b < 32 → (s.line (a / 256)).dirty = false → exec .uncorrectableError s = .next s) ∧
    (∀ pa, s.ev.place = .memory pa → regionOf pa = .hbm ∨ regionOf pa = .granary →
      ∃ t, exec .uncorrectableError s = .next t ∧ t.mem = s.mem ∧ shas t.poison (pa / 64) = true ∧ t.cores = s.cores) ∧
    (placeUnit s.ev.place = none → (∀ d g b, s.ev.place ≠ .tile d g b) → s.ev.flag = false → exec .scrub s = .next s) ∧
    (∀ pa, s.ev.place = .memory pa → regionOf pa = .hbm ∨ regionOf pa = .granary → s.ev.flag = true →
      ∃ t, exec .scrub s = .next t ∧ t.mem = s.mem ∧ t.poison = s.poison ∧ t.cores = s.cores) ∧
    (∀ n, placeUnit s.ev.place = some n → exec .uncorrectableError s = .next s ∧ exec .scrub s = .next s)

/-! Events of the schedulers, queues, nodes, replays and migrations (spec/16, spec/21). -/

/-- R254 to R256, R265, R266, R272, R275, R337, R341: the scheduler of a bulkhead. A request sets IRQ.PRE of a running core; an idle
core takes the record that is to run next and starts it: STATUS 3, s62 the save area, RESUME after a refill; a kill ends the
continuation; a record that has waited 100 microseconds goes up a level. A time slice ends once the cores are idle and nothing of theirs
is on its way: the next partition finds their registers and arrays clear. The number 8 in the report is the model's (log entry 83). That
a request to an idle core has no effect, what a pick-up clears and how a slice switches are the model's readings (log entries 36, 67 and
79). -/
def Obligations.SchedulerEvents : Prop :=
  ∀ (s : State), let c := s.ev.unit
    let k := s.core c
    let s0 : State := { s with cur := c, now := {} }
    (c ≤ 256 →
      (k.running.isSome = true → c ≠ 256 → ∃ t, exec .preemptionRequest s = .next t ∧ t.mem = s.mem ∧ (t.core c).s = k.s ∧
        (t.core c).sysReg 9 = k.sysReg 9 ||| 1 ∧ (t.core c).preAge = if wbit (k.sysReg 9) 0 then k.preAge else s.time + 1) ∧
      (k.running = none ∨ c = 256 → exec .preemptionRequest s = .next s0) ∧
      (∀ adr, k.drain = .preempt adr → drained s0 c = true → exec .preemption s = .next (preemptCore s0 c adr)) ∧
      (∀ adr, k.drain = .preempt adr → drained s0 c = false → exec .preemption s = .next s0) ∧
      (k.drain = .none → exec .preemption s = .next s0) ∧
      (overdue s0 c = true → ∃ t, exec .preemptionOverdue s = .next t ∧ (t.core c).preAge = 0 ∧ t.mem = s.mem ∧
        { event := .faultReport, args := { note := { reason := 8, source := c, ctx := k.ctxOf, info := 0 } } } ∈ t.pending) ∧
      (overdue s0 c = false → exec .preemptionOverdue s = .next s0) ∧
      (s0.takes c = false → exec .continuationPickup s = .next s0) ∧
      (∀ e, s0.takes c = true → chooseReady (s0.eligible (c / 8)) c = some e →
        let s1 := s0.setReady (c / 8) ((s.readyOf (c / 8)).erase e)
        exec .continuationPickup s = .next (pickUp s1 c e) ∧
        ∀ bs, (s1.reading e.ctx e.recA 64 .core (c / 8)).vread e.ctx e.recA 64 .core none (some (c / 8)) = .ok bs → recStatus (wordAt bs 0) = 0 → wbits (wordAt bs 1) 32 30 = 0 → e.node = 0 →
          let t := (pickUp s1 c e).core c
          t.active = true ∧ (∃ r, t.running = some r ∧ r.recA = e.recA ∧ r.ctx = e.ctx ∧ r.part = e.part ∧ r.group = wbits (wordAt bs 1) 0 16 ∧
            r.frame = (wordAt bs 2).toNat) ∧ t.rs 62 = wordAt bs 2 ∧ t.pc = wbits (wordAt bs 0) 0 48 ∧ t.refill = 40 ∧ t.flights = [] ∧ t.issues = [] ∧
          t.sysReg 0 = 0 ∧ t.sysReg 1 = 0 ∧ t.mark.armed = false ∧ t.frozen = none) ∧
      (k.running.isSome = true → exec .continuationKill s = .next (endContinuation s0 c)) ∧ (k.running = none → exec .continuationKill s = .next s0)) ∧
    (c < 32 →
      let q := s.readyOf c
      let aged (e : Ready) : Bool := decide (e.level < 7 ∧ e.entered + 100000 ≤ s.time)
      (q.any aged = true → ∃ t, exec .readyAgeing s = .next t ∧ t.mem = s.mem ∧ t.cores = s.cores ∧
        t.readyOf c = q.filter (fun e => !aged e) ++ (q.filter aged).map (fun e => { e with level := e.level + 1, entered := s.time })) ∧
      (q.any aged = false → exec .readyAgeing s = .next s) ∧
      (s.ev.idx < 32 →
        (∀ old, s.sliceOf c = some old → old = s.ev.idx → exec .timeSliceSwitch s = .next s) ∧
        (∀ old, s.sliceOf c = some old → old ≠ s.ev.idx → idleMask s c = 0xFF → (∀ d, d / 8 = c → s.outstanding d = false ∧ (s.core d).elems = []) →
          ∃ t, exec .timeSliceSwitch s = .next t ∧ (t.bulk c).slice = s.ev.idx + 1 ∧ t.mem = s.mem ∧
            (∀ d, d / 8 = c → s.bulks.all (fun b => b.2.images.all (fun y => y.1 != s.ev.idx)) = true → (t.core d).scratch = [] ∧ (t.core d).at_ = [] ∧ (t.core d).s = [] ∧ (t.core d).v = [])) ∧
        (∀ old, s.sliceOf c = some old → old ≠ s.ev.idx → idleMask s c ≠ 0xFF ∨ (∃ d, d / 8 = c ∧ (s.outstanding d = true ∨ (s.core d).elems ≠ [])) →
          ∃ t, exec .timeSliceSwitch s = .next t ∧ { event := .timeSliceSwitch, args := { unit := c, idx := s.ev.idx } } ∈ t.pending ∧
            (∀ d, d / 8 = c → (s.core d).running.isSome = true → wbit ((t.core d).sysReg 9) 0 = true))))

/-- R259, R261 to R264: launch queues, nodes and replays. An overrun stops a queue; otherwise its next entry is taken. A decrement
writes COUNT - 1, or UNDER at 0; arming writes COUNT and clears ERR and UNDER. A launched task waits in the ready queue and counts in
its replay; a launched command takes the next number of its engine context. A replay waits while RUN is 1; then it sets RUN, latches the
published copy of its parameters, arms its arm table and launches its roots; at its end GEN rises, RUN clears and the copy is used once
less. That CI advances whatever the entry holds, and the layout of a command's payload, are the model's (log entries 15 and 73). R345,
R346: a migration stops the context's queues and pre-empts its continuations; once nothing of it runs and no command is left its
destination starts with nothing mapped, with the state that other cores held for the context; a page that is pulled is mapped, its CMP
cleared where an agent without the codec asks for it (one from another module waits for its bytes), and the push of the rest ends the
migration. One that leaves the module unbinds the context's queues here. What a migration moves in one step is the model's reading (log
entry 68), and which bulkhead takes a record that a decrement launches its choice (log entry 123). -/
def Obligations.QueuesNodesAndMigration : Prop :=
  (∀ (s : State), let n := s.ev.unit
    (let q := s.queue n
     let b := s.bulk q.bulk
     n < 65536 →
      (q.bound = false ∨ q.stopped = true ∨ q.moving = true ∨ q.pi = BitVec.ofNat 32 q.ci ∨ b.sched = false ∨ b.state ≠ 0 → exec .launchQueueTake s = .next s) ∧
      (q.bound = true → q.stopped = false → q.moving = false → b.sched = true → b.state = 0 → 2 ^ q.n < (q.pi - BitVec.ofNat 32 q.ci).toNat →
        ∃ t, exec .launchQueueTake s = .next t ∧ t.queue n = { q with stopped := true } ∧ t.mem = s.mem ∧ t.ready = s.ready) ∧
      (q.bound = true → q.stopped = false → q.moving = false → b.sched = true → b.state = 0 → q.pi ≠ BitVec.ofNat 32 q.ci → (q.pi - BitVec.ofNat 32 q.ci).toNat ≤ 2 ^ q.n →
        ∃ t, exec .launchQueueTake s = .next t ∧ t.queue n = { q with ci := (q.ci + 1) % 2 ^ 32 })) ∧
    (n < 4096 →
      let node := s.ev.idx
      let low32 (w : Word) : Nat := w.toNat % 2 ^ 32
      (node % 16 ≠ 0 → exec .nodeDecrement s = .next s ∧ exec .nodeArm s = .next s) ∧
      (∀ w r, node % 16 = 0 → s.vreadWord n node .core = .ok w → s.translate n node .core true = .ok r →
        (2 ≤ low32 w → exec .nodeDecrement s = .next (s.vwriteTry n node (w - 1) .core)) ∧
        (low32 w = 0 → exec .nodeDecrement s = .next (s.vwriteTry n node (w ||| (1#64 <<< 62)) .core)) ∧
        (low32 w = 1 → exec .nodeDecrement s = .next
          (launchNode (s.vwriteTry n node (w - 1) .core) n (s.homeOfNode n node) node (s.replayOf n 0)
            (match s.replayOf n 0 with | some i => (match s.replays[i]? with | some y => y.base | none => BitVec.ofNat 64 s.ev.aux) | none => BitVec.ofNat 64 s.ev.aux)).2) ∧
        exec .nodeArm s = .next (s.vwriteTry n node ((w &&& 0x3FFFFFFF00000000#64) ||| (s.ev.value &&& 0xFFFFFFFF#64)) .core))) ∧
    -- what a launch does
    (∀ (x b node : Nat) (rep : Option Nat) (param w0 w1 : Word), s.vreadWord x node .core = .ok w0 → s.vreadWord x (node + 8) .core = .ok w1 →
      wbits w0 40 22 = 0 → wbits w1 60 4 = 0 →
      let a := wbits w1 0 57
      let joins (t : State) : State := match rep with
        | some i => { t with replays := t.replays.modify i (fun y => { y with nodes := y.nodes ++ [node] }) }
        | none => t
      (wbits w1 57 3 = 0 → a % 64 = 0 → s.waits x a = false →
        let s1 := s.reading x a 64 .core b
        ∀ bs r, s1.vread x a 64 .core none (some b) = .ok bs → s1.translate x a .core true = .ok r → s1.waits x a = false → recMalformed s1 (s.ctxPart x) (wordAt bs 0) (wordAt bs 1) = false →
          recStatus (wordAt bs 0) = 1 ∨ recStatus (wordAt bs 0) = 2 →
          let to_ := if recAff (wordAt bs 0) then recCore (wordAt bs 1) / 8 else b
          launchNode s x b node rep param = (0, joins (s1.setReady to_ (s1.readyOf to_ ++
            [{ recA := a, ctx := x, part := s.ctxPart x, level := recPrio (wordAt bs 0),
               aff := if recAff (wordAt bs 0) then some (recCore (wordAt bs 1)) else none, entered := s1.time, node := node, param := param }])))) ∧
      (wbits w1 57 3 = 1 → ∀ bs, s.vread x a 64 .copy none (some b) = .ok bs →
        let s1 := s.reading x a 64 .copy b
        let tl := s1.ctxd x 0x40
        (wbit tl 63 = true → wbits (wordAt bs 0) 11 52 = 0 → wbits (wordAt bs 3) 32 32 = 0 → (∀ y ∈ bs.drop 32, y = 0) → wbits (wordAt bs 0) 0 8 = 1 →
          let e := engKey (wbits tl 20 4) (s1.physBulk (s1.ctxPart x) (wbits tl 24 5)) (wbits tl 12 8) (wbits tl 0 6)
          let q := s1.eng e
          ∃ c, ((launchNode s x b node rep param).2.eng e).queue = q.queue ++ [c] ∧ c.opc = 1 ∧ c.a = wordAt bs 1 ∧ c.b = wordAt bs 2 ∧ c.node = node ∧ c.ctx = x ∧
            c.num = (match q.queue.getLast? with | some l => l.num | none => q.count.toNat) + 1) ∧
        (wbit tl 63 = false → launchNode s x b node rep param = (0, nodeError s1 x node)))) ∧
    (∀ r, s.replays[n]? = some r →
      (r.started = true ∨ r.ended = true → exec .graphReplayStart s = .next s) ∧
      (r.started = false → r.ended = false → ∀ h, let s1 := s.reading r.ctx r.header 64 .core r.bulk
        s1.vread r.ctx r.header 64 .core none (some r.bulk) = .ok h →
        (wbit (wordAt h 5) 0 = true → exec .graphReplayStart s = .next (s1.pend .graphReplayStart { unit := n })) ∧
        (wbit (wordAt h 5) 0 = false → r.nodes = [] →
          let s2 := s1.vwriteTry r.ctx (r.header + 40) (wordAt h 5 ||| 1#64) .core
          let desc := (wordAt h 3).toNat
          ∀ (copy : Nat) (base : Word) (s3 : State),
            (desc = 0 ∧ copy = 2 ∧ base = 0 ∧ s3 = s2) ∨
            (let d1 := s2.reading r.ctx desc 8 .core r.bulk
             let d2 := d1.reading r.ctx (desc + 8 + 8 * copy) 8 .core r.bulk
             ∃ w use, desc ≠ 0 ∧ d1.vreadWord r.ctx desc .core (some r.bulk) = .ok w ∧ copy = wbits w 0 1 ∧
              d2.vreadWord r.ctx (desc + 8 + 8 * copy) .core (some r.bulk) = .ok base ∧ d2.vreadWord r.ctx (desc + 24) .core = .ok use ∧
              s3 = d2.vwriteTry r.ctx (desc + 24) (if copy = 0 then wput use 0 32 (wbits use 0 32 + 1) else wput use 32 32 (wbits use 32 32 + 1)) .core) →
            let s4 : State := { s3 with replays := s3.replays.modify n (fun y => { y with started := true, base := base, copy := copy, desc := desc }) }
            let arms := wbits (wordAt h 1) 0 57
            let roots := wbits (wordAt h 2) 0 57
            (wbits (wordAt h 0) 0 64 = 0 → exec .graphReplayStart s = .next (s4.pendOnce .graphReplayComplete { unit := n })) ∧
            -- one node armed and one root launched; longer tables go on in the same way
            (wbits (wordAt h 0) 0 32 = 1 → wbits (wordAt h 0) 32 32 = 1 → ∀ (a m w l : Word) (tr : Nat × Leaf),
              let node := wbits a 0 57
              let s5 := s4.reading r.ctx arms 16 .core r.bulk
              s5.vreadWord r.ctx arms .core (some r.bulk) = .ok a → s5.vreadWord r.ctx (arms + 8) .core (some r.bulk) = .ok m → node % 16 = 0 → s5.vreadWord r.ctx node .core = .ok w →
              s5.translate r.ctx node .core true = .ok tr →
              let s6 := (s5.vwriteTry r.ctx node ((w &&& 0x3FFFFFFF00000000#64) ||| (m &&& 0xFFFFFFFF#64)) .core).reading r.ctx roots 8 .core r.bulk
              s6.vreadWord r.ctx roots .core (some r.bulk) = .ok l →
              let s7 := (launchNode s6 r.ctx r.bulk (wbits l 0 57) (some n) base).2
              (∀ y, s7.replays[n]? = some y → y.nodes ≠ [] → exec .graphReplayStart s = .next s7) ∧
              (∀ y, s7.replays[n]? = some y → y.nodes = [] → exec .graphReplayStart s = .next (s7.pendOnce .graphReplayComplete { unit := n }))))) ∧
      (r.started = true → r.ended = false → r.nodes = [] → ∀ h use, let s0 := s.reading r.ctx r.header 64 .core r.bulk
        s0.vread r.ctx r.header 64 .core none (some r.bulk) = .ok h → r.copy < 2 →
        let s1 : State := { s0 with replays := s0.replays.modify n (fun y => { y with ended := true }) }
        s1.vreadWord r.ctx (r.desc + 24) .core = .ok use →
        exec .graphReplayComplete s = .next (((s1.vwriteTry r.ctx (r.desc + 24) (wput use (32 * r.copy) 32 (wbits use (32 * r.copy) 32 - 1)) .core).vwriteTry
          r.ctx (r.header + 32) (wordAt h 4 + 1) .core).vwriteTry r.ctx (r.header + 40) (wordAt h 5 &&& ~~~1#64) .core)) ∧
      (r.started = true → r.ended = false → r.nodes = [] → ∀ h, let s0 := s.reading r.ctx r.header 64 .core r.bulk
        s0.vread r.ctx r.header 64 .core none (some r.bulk) = .ok h → r.copy = 2 →
        ∃ t, exec .graphReplayComplete s = .next t ∧ (∃ y, t.replays[n]? = some y ∧ y.ended = true) ∧ t.cores = s0.cores ∧
          t = (({ s0 with replays := t.replays } : State).vwriteTry r.ctx (r.header + 32) (wordAt h 4 + 1) .core).vwriteTry r.ctx (r.header + 40) (wordAt h 5 &&& ~~~1#64) .core) ∧
      (r.started = false ∨ r.ended = true ∨ r.nodes ≠ [] → exec .graphReplayComplete s = .next s))) ∧
  (∀ (s : State), let x := s.ev.unit
    let dest := s.ev.idx
    x < 4096 →
    (dest < 32 → s.ev.flag2 = true → ∃ t, exec .migration s = .next t ∧ t.mem = s.mem ∧ t.cores = s.cores ∧
      ({ ctx := x, dest := dest, pulled := [], outside := true } : Migration) ∈ t.migrations) ∧
    (dest < 32 → s.ev.flag = false → s.ev.flag2 = false → s.partHas (s.ctxPart x) dest = false → exec .migration s = .next s) ∧
    (dest < 32 → s.ev.flag = false → s.ev.flag2 = false → (∀ b ∈ dest :: (s.sourcesOf x).map (s.movesTo x dest), s.partHas (s.ctxPart x) b = true) → s.cores.any (fun e => (e.2.running.map (·.ctx)) == some x) = false → s.engines = [] → s.ready = [] →
      (∀ c ∈ imageCores s x, (s.core (coreFor (s.movesTo x dest) c)).running = none) →
      ∃ t, exec .migration s = .next t ∧ t.mem = s.mem ∧ ({ ctx := x, dest := dest, pulled := [] } : Migration) ∈ t.migrations ∧
        { event := .migrationBackgroundPush, args := { unit := x } } ∈ t.pending ∧
        (∀ c, let d := coreFor (s.movesTo x dest) c
          imageCores s x = [c] → c ≠ d → s.imageOf (s.ctxPart x) c = none → s.imageOf (s.ctxPart x) d = none → s.arrivals = [] →
          (t.core d).scratch = (s.core c).scratch ∧ (t.core d).at_ = (s.core c).at_ ∧
          (t.core c).scratch = [] ∧ (t.core c).at_ = [] ∧ (t.core c).tables = (s.core c).tables) ∧
        ∀ q, (s.queue q).bound = true → (s.queue q).ctx = x → (t.queue q).bulk = dest ∧ (t.queue q).moving = false ∧ (t.queue q).stopped = (s.queue q).stopped) ∧
    (dest < 32 → s.ev.flag = true → s.ev.flag2 = false → s.cores.any (fun e => (e.2.running.map (·.ctx)) == some x) = false → s.engines = [] →
      ∃ t, exec .migration s = .next t ∧ t.mem = s.mem ∧ (∀ q, (s.queue q).bound = true → (s.queue q).ctx = x → (t.queue q).bound = false) ∧
        ∀ b, ∀ e ∈ t.readyOf b, e.ctx ≠ x) ∧
    (dest < 32 → s.ev.flag2 = false → s.ev.flag = true ∨ (∀ b ∈ dest :: (s.sourcesOf x).map (s.movesTo x dest), s.partHas (s.ctxPart x) b = true) → s.cores.any (fun e => (e.2.running.map (·.ctx)) == some x) = true →
      ∃ t, exec .migration s = .next t ∧ { event := .migration, args := { unit := x, idx := dest, flag := s.ev.flag } } ∈ t.pending ∧ t.mem = s.mem ∧
        ∀ q, (s.queue q).bound = true → (s.queue q).ctx = x → (t.queue q).moving = true) ∧
    (s.migrations.any (fun m => m.ctx == x && m.outside) = true → s.ev.data = [] → exec .migrationPagePull s = .next s) ∧
    (∀ l, s.walk x (s.ev.idx * 4096) = .ok l → s.ev.data = [] → s.migrations.any (fun m => m.ctx == x && m.outside) = false →
      ∃ t, exec .migrationPagePull s = .next t ∧ (s.ev.flag = false ∨ bits l.hi 34 1 = 0 → t.mem = s.mem) ∧
      (∀ e, s.ev.flag = true → bits l.hi 34 1 = 1 → s.entryFrom (s.ctxPart x) (s.ev.idx * 4096) 5 (rootTable (s.ctxd x 8)) = some e →
        t.mem = (s.physWrite (s.ctxPart x) (e + 8) (natToBytes 8 (l.hi - 2 ^ 34))).mem) ∧
      t.migrations = s.migrations.map (fun m => if m.ctx = x then { m with pulled := (alignDown (s.ev.idx * 4096) l.bytes, l.bytes) :: m.pulled } else m)) ∧
    (∀ e, s.walk x (s.ev.idx * 4096) = .error e → exec .migrationPagePull s = .next s) ∧
    (∃ t, exec .migrationBackgroundPush s = .next t ∧ t.mem = s.mem ∧ t.cores = s.cores ∧ t.migrations = s.migrations.filter (fun m => m.ctx != x)))

/-! Events of engines, bank units and the fabric (spec/17, spec/18, spec/20). -/

/-- R276, R280 to R288, R292, R201, R317, R318, R324, R327: engines and bank units. A command waits for the accesses before it; a copy
starts once its ranges fit, and each of its transfers writes the bytes of its source, up to the next 256-byte boundary, at the
destination of its row: as they stand for cpy, by strides for cpy2, by a table entry for gath, scat and kvw. A collective command adds
its share; when every member has, each destination receives the concatenation by rank (cgath) or the element-wise reduction in rank
order (cred). The head of a context that has its outcome retires: COUNT takes its number, and the first error is recorded. A bank unit
takes a record that is good; a row request that has waited AGE microseconds is promoted, and PROMO rises; a result is written in words
of 8 bytes. That commands of a context start independently and when a bank is busy and that a result is written in pieces are the
model's readings (log entries 55, 59 and 63). -/
def Obligations.EngineEvents : Prop :=
  ∀ (s : State), let e := s.ev.unit
    let num := s.ev.idx
    (s.command e num = none → exec .engineCommandStart s = .next s) ∧
    (∀ c, s.command e num = some c →
      (c.done.isSome = true → exec .engineCommandStart s = .next s) ∧
      (c.done = none → c.started = false → commandReleased s c = false →
        exec .engineCommandStart s = .next (s.pend .engineCommandStart { unit := e, idx := num })) ∧
      (c.done = none → c.started = false → commandReleased s c = true → c.opc = 0x62 → c.a = 0 ∨ s.canPay e c 1 = true →
        ∃ t, exec .engineCommandStart s = .next t ∧ t.mem = s.mem ∧ t.eng e = { s.eng e with queue := (s.eng e).queue.map (fun (d : Command) => if d.num = num then { c with done := some c.err, paying := false } else d) } ∧
          { event := .commandRetire, args := { unit := e } } ∈ t.pending) ∧
      (c.done = none → c.started = false → commandReleased s c = true → c.opc = 0x62 → c.a ≠ 0 → s.canPay e c 1 = false →
        exec .engineCommandStart s = .next (s.payLater e c 1 1)) ∧
      -- the start of a copy (R281 to R287)
      (c.done = none → c.started = false → commandReleased s c = true →
        let starts (t : State) (d : Command) : State := (t.setCommand e { d.sent with started := true }).pend .engineCommandStart { unit := e, idx := c.num }
        (c.opc = 1 → c.conv = none → operandFits c.a c.len = true → operandFits c.b c.len = true → exec .engineCommandStart s = .next (starts s c)) ∧
        (c.opc = 1 → c.conv = none → operandFits c.a c.len = false ∨ operandFits c.b c.len = false →
          exec .engineCommandStart s = .next (finishCommand s e c.sent 7)) ∧
        (c.opc = 3 → operandFits c.a (c.len * (64 * 2 ^ (c.k % 8))) = true → operandFits c.b (8 * c.len) = true → exec .engineCommandStart s = .next (starts s c)) ∧
        (c.opc = 4 → operandFits c.b (c.len * (64 * 2 ^ (c.k % 8))) = true → operandFits c.a (8 * c.len) = true → exec .engineCommandStart s = .next (starts s c)) ∧
        (c.opc = 2 ∨ c.opc = 5 → s.pullingRange c c.a 64 = none → s.canPay e c (if wbit c.a 63 then 0 else 1) = true → ∀ t,
          (∀ err, readRecordWords s e c c.a = (t, .error err) → exec .engineCommandStart s = .next (finishCommand t e c err)) ∧
          (∀ ws, readRecordWords s e c c.a = (t, .ok ws) → copyCheck { c with words := ws } = none →
            exec .engineCommandStart s = .next (starts t { c with words := ws }))) ∧
        (c.opc = 6 → (∀ a ∈ s.records e c, s.pullingRange c a 64 = none) → s.canPay e c ((s.records e c).map (fun a => if wbit a 63 then 0 else 1)).sum = true → ∀ t,
          (fromRestart s e c = (t, .ok none) → exec .engineCommandStart s = .next (finishCommand t e c 0)) ∧
          (∀ d, fromRestart s e c = (t, .ok (some d)) → copyCheck d.sent = none → exec .engineCommandStart s = .next (starts t d)))) ∧
      -- one transfer: the bytes of the source that its range holds go to the destination
      (c.done = none → c.started = true → 1 ≤ c.opc → c.opc ≤ 5 → c.conv = none → c.row < c.rows → ∀ (s0 : State) (d : Command) (p q : Bool × Nat),
        (c.begun = some c.row ∧ s0 = s ∧ d = c) ∨ (c.begun ≠ some c.row ∧ s.rowPage e c = none ∧
          ((c.entryAt c.row).isSome = true → s.canPay e c 1 = true) ∧ beginRow s e c = (s0, .ok d)) →
        operand (d.rowOps d.row).1 = some p → operand (d.rowOps d.row).2 = some q →
        let n := min (d.rowBytes - d.off) (256 - (p.2 + d.off) % 256)
        let cost := readBeats q.1 n + writeBeats p.1 n
        s0.pulling d q d.off = none → s0.pulling d p d.off = none → s0.canPay e d cost = true →
        ∀ u ps, d.buffer = [] → readRange (s0.pay e d cost (writeBeats q.1 n)) d.sent (engReader e) q d.off n = (u, ps) →
          (∀ y ∈ ps, y.status = 0) →
          let bytes := bytesOf ps
          let d2 : Command := if d.off + n < d.rowBytes then { d.sent with off := d.off + n } else { d.sent with row := d.row + 1, off := 0, buffer := [] }
          (p.1 = true → d.fills = false → u.imageOf d.part d.core = none → (u.core d.core).scratch.wf = true → ∃ t, exec .engineCommandStart s = .next t ∧ t.mem = u.mem ∧
            (∀ i, i < bytes.length → (t.core d.core).scratch.byte (p.2 + d.off + i) = bytes.getD i 0) ∧
            (∀ a, a < p.2 + d.off ∨ p.2 + d.off + bytes.length ≤ a → (t.core d.core).scratch.byte a = (u.core d.core).scratch.byte a) ∧
            t.eng e = (u.setCommand e d2).eng e ∧ { event := .engineCommandStart, args := { unit := e, idx := d.num } } ∈ t.pending) ∧
          (p.1 = false → p.2 + d.off < 2 ^ 57 → u.Inv → ∀ pa l, u.translate d.ctx (p.2 + d.off) (engAgent e) true = .ok (pa, l) → regionOf pa = .hbm →
            regionOf (pa + bytes.length - 1) = .hbm → pa / 256 = (pa + bytes.length - 1) / 256 → u.sluice (u.leafHome d.part l.hi pa).1 d.part pa 1 = stGood →
            ∃ t, exec .engineCommandStart s = .next t ∧ t.cores = u.cores ∧
              (∀ i, i < bytes.length → t.mem.byte (pa + i) = bytes.getD i 0) ∧ (∀ a, a < pa ∨ pa + bytes.length ≤ a → t.mem.byte a = u.mem.byte a) ∧
              t.eng e = (u.setCommand e d2).eng e ∧ { event := .engineCommandStart, args := { unit := e, idx := d.num } } ∈ t.pending)) ∧
      (c.done = none → c.started = true → 1 ≤ c.opc → c.opc ≤ 5 → c.conv = none → c.rows ≤ c.row → exec .engineCommandStart s = .next (finishCommand s e c c.err)) ∧
      (∀ sf df rnd, c.done = none → c.started = true → 1 ≤ c.opc → c.opc ≤ 5 → c.conv = some (sf, df, rnd) → exec .engineCommandStart s = .next (convertStep s e c sf df rnd)) ∧
      -- the share of a collective command
      (c.done = none → c.started = false → commandReleased s c = true → c.opc = 0x40 ∨ c.opc = 0x41 → c.words ≠ [] →
        let h := c.word 0
        let key := c.word 4
        let len := wbits (c.word 3) 0 32
        ∀ op u ps, operand (c.word 1) = some op → s.pullingRange c (c.word 1) len = none →
          s.canPay e c (readBeats (wbit (c.word 1) 63) len) = true →
          readRange (s.pay e c (readBeats op.1 len) (writeBeats op.1 len)) c (.coll, engBulk e) op 0 len = (u, ps) → (∀ y ∈ ps, y.status = 0) →
          u.bulkUp (u.physBulk c.part (wbits h 0 16 % max 1 (u.partCount c.part))) = true → u.contribs.filter (fun x => x.same c.part (wbits h 0 16) key) = [] →
          ∃ t, exec .engineCommandStart s = .next t ∧ t.mem = u.mem ∧ t.contribs = u.contribs ++ [
              { part := c.part, group := wbits h 0 16, key := key, eng := e, num := c.num, opc := c.opc, head := h, len := len, dst := c.word 2, core := c.core, ctx := c.ctx, data := ps }] ∧
            (wbits h 32 16 = 1 → { event := .collectiveResult, args := { unit := c.part, idx := wbits h 0 16, value := key } } ∈ t.pending))) ∧
    -- what a range reads, and the rows of the commands (R283 to R286)
    (∀ (c : Command) (w : Reader) (o off n : Nat), let k := s.localCore c.part c.core
      (k.scratch.wf = true → k.scratchPoisoned (off + o) n = false → (readRange s c w (true, off) o n).1 = s ∧ bytesOf (readRange s c w (true, off) o n).2 = k.scratch.read (off + o) n ∧
        ∀ y ∈ (readRange s c w (true, off) o n).2, y.status = 0) ∧
      (off + o < 2 ^ 57 → 0 < n → n ≤ 64 - (off + o) % 64 → ∀ pa l, s.translate c.ctx (off + o) w.1 false = .ok (pa, l) → regionOf pa = .hbm →
        s.helperAt w.2 (pa / 256) = none → s.sluice (s.leafHome c.part l.hi pa).1 c.part pa 0 = stGood → (s.physRead c.part pa n).2 = false →
        (readRange s c w (false, off) o n).2 = [{ off := o, status := 0, bytes := s.mem.read pa n }] ∧ (readRange s c w (false, off) o n).1.mem = s.mem)) ∧
    (∀ (c : Command) (r : Nat), let v (i : Nat) : Word := BitVec.ofNat 64 i
      (c.opc = 1 → c.rowOps r = (c.a, c.b) ∧ c.rowBytes = c.len ∧ c.rows = if c.len = 0 then 0 else 1) ∧
      (c.opc = 2 → let n1 := wbits (c.word 2) 32 16
        c.rowOps r = (c.word 0 + v (r / n1) * c.word 6 + v (r % n1) * c.word 4, c.word 1 + v (r / n1) * c.word 5 + v (r % n1) * c.word 3) ∧
        c.rowBytes = wbits (c.word 2) 0 32 ∧ c.rows = n1 * wbits (c.word 2) 48 16) ∧
      (c.opc = 3 → c.rowOps r = (c.a + v (r * (64 * 2 ^ (c.k % 8))), c.entry) ∧ c.entryAt r = some (c.b + v (8 * r)) ∧ c.rows = c.len) ∧
      (c.opc = 4 → c.rowOps r = (c.entry, c.b + v (r * (64 * 2 ^ (c.k % 8)))) ∧ c.entryAt r = some (c.a + v (8 * r)) ∧ c.rows = c.len) ∧
      (c.opc = 5 → c.word 4 = 0 → let t := wbits (c.word 2) 0 32 + r
        let tsz := wbits (c.word 3) 32 16
        let tpb := wbits (c.word 3) 0 16
        c.rowOps r = (c.word 1 + v (r * tsz), c.entry + v ((t % tpb) * tsz)) ∧ c.entryAt r = some (c.word 0 + v (8 * (t / tpb))) ∧ c.rowBytes = tsz ∧ c.rows = c.tokens)) ∧
    (∀ (c : Command) (a : Word) (off : Nat), c.begun.map c.token ≠ some (c.token c.row) → c.entryAt c.row = some a → operand a = some (true, off) →
      let k := s.localCore c.part c.core
      k.scratch.wf = true → k.scratchPoisoned off 8 = false → (rowEntry s e c).2 = .ok (bytesToWord (k.scratch.read off 8))) ∧
    (∀ (c : Command) (p q : Bool × Nat), c.entryAt c.row = none → operand (c.rowOps c.row).1 = some p → operand (c.rowOps c.row).2 = some q →
      operandFits (c.rowOps c.row).1 c.rowBytes = true → operandFits (c.rowOps c.row).2 c.rowBytes = true → c.opc = 1 ∨ c.opc = 2 →
      p.1 ≠ q.1 ∨ p.2 = q.2 ∨ overlaps p.2 c.rowBytes q.2 c.rowBytes = false → beginRow s e c = (s, .ok { c.sent with entry := 0, buffer := [], begun := some c.row })) ∧
    (let q := s.eng e
     (q.queue = [] → exec .commandRetire s = .next s) ∧
     (∀ c rest err, q.queue = c :: rest → c.done = some err → err ≠ 0 ∨ c.restart = none → s.unacked e c.num = false → ∃ t, exec .commandRetire s = .next t ∧
       (t.eng e).count = BitVec.ofNat 64 c.num ∧ (c.opc ≠ 0x62 ∨ c.a = 0 → c.node = 0 → t.mem = s.mem ∧
         t.eng e = { q with queue := rest, count := BitVec.ofNat 64 c.num, errn := if err ≠ 0 ∧ q.errn = 0 then c.num else q.errn, errc := if err ≠ 0 ∧ q.errn = 0 then err else q.errc })) ∧
     (∀ c rest, q.queue = c :: rest → c.done = none → exec .commandRetire s = .next s) ∧
     (∀ c rest err, q.queue = c :: rest → c.done = some err → err ≠ 0 ∨ c.restart = none → s.unacked e c.num = true → exec .commandRetire s = .next s) ∧
     -- a cpyr without error first clears VALID in its record (R287)
     (∀ c rest off, q.queue = c :: rest → c.done = some 0 → (c.restart.bind operand) = some (true, off) → off + 64 ≤ 0x100000 → s.imageOf c.part c.core = none →
       (s.core c.core).scratch.wf = true → c.opc < 256 → c.k < 8 → c.fills = false → ∃ t, exec .commandRetire s = .next t ∧ t.mem = s.mem ∧
         (t.eng e).queue.head? = some { c with restart := none } ∧ { event := .commandRetire, args := { unit := e } } ∈ t.pending ∧
         bytesToWord ((t.core c.core).scratch.read off 8) = BitVec.ofNat 64 (c.opc + c.k * 2 ^ 8))) ∧
    (e < 256 →
      let part := (s.sliceOf (e / 8)).getD 0
      let k := s.localCore part e
      let base := wbits (k.sysReg 0x30) 0 5 * 0x8000
      (s.bulkUp (e / 8) = false ∨ wbit (k.sysReg 0x30) 8 = false ∨ num < base ∨ base + 0x8000 < num + s.ev.data.length → exec .remoteWindowWrite s = .next s) ∧
      (s.bulkUp (e / 8) = true → s.imageOf part e = none → wbit (k.sysReg 0x30) 8 = true → base ≤ num → num + s.ev.data.length ≤ base + 0x8000 → s.ev.flag2 = false →
        exec .remoteWindowWrite s = .next (s.setCore e ((s.core e).steepWrite (num - base) s.ev.data s.ev.flag [])))) ∧
    (e < 32 → let cs := s.contribs.filter (fun c => c.same e num s.ev.value)
      (cs = [] → exec .collectiveResult s = .next s) ∧
      (∀ c0, cs.head? = some c0 → cs.length ≠ wbits c0.head 32 16 ∨ (∃ y ∈ cs, y.num = 0) → exec .collectiveResult s = .next s) ∧
      -- a group of one member; the others of a larger group receive the same bytes in turn
      (∀ c m o, cs = [c] → wbits c.head 32 16 = 1 → wbits c.head 16 16 = 0 → c.num ≠ 0 → c.opc = 0x41 →
        s.command c.eng c.num = some m → m.done = none → operand c.dst = some (true, o) → o % 256 = 0 → s.imageOf m.part m.core = none → (s.core m.core).scratch.wf = true →
        (∀ y ∈ c.data, y.status = 0) → (bytesOf c.data).length = 256 → wbit c.dst 63 = true → ∃ t, exec .collectiveResult s = .next t ∧ t.mem = s.mem ∧
          (∀ i, i < 256 → (t.core m.core).scratch.byte (o + i) = (bytesOf c.data).getD i 0) ∧
          (∀ a, a < o ∨ o + 256 ≤ a → (t.core m.core).scratch.byte a = (s.core m.core).scratch.byte a) ∧
          t.contribs = s.contribs.filter (fun y => !y.same e num s.ev.value) ∧ { event := .commandRetire, args := { unit := c.eng } } ∈ t.pending) ∧
      -- the bytes of a result
      (∀ c d h len, wbits c.head 16 16 = 0 → wbits d.head 16 16 = 1 → wbits h 32 16 = 2 →
        (collData [d, c] 0x41 len h).1 = bytesOf c.data ++ bytesOf d.data ∧
        (len = 4 → wbits h 48 4 = 0 ∨ wbits h 48 4 = 8 → (collData [d, c] 0x40 len h).1 =
          natToBytes 4 (reduceElem (if wbits h 48 4 = 8 then .i32 else .f32) (wbits h 52 4) (wbits h 56 3) [bytesToNat (bytesOf c.data) % 2 ^ 32, bytesToNat (bytesOf d.data) % 2 ^ 32]))) ∧
      (∀ (x y rnd : Nat), reduceElem .f32 0 0 [x, y] = (roundNum .f32 .rne 0 (addF32 (decodeNum .f32 x) (decodeNum .f32 y)).1).1 ∧
        reduceElem .i32 0 rnd [x, y] = (BitVec.ofInt 32 (max (-2147483648) (min 2147483647 (sxNat 32 x + sxNat 32 y)))).toNat ∧
        reduceElem .i32 1 rnd [x, y] = (BitVec.ofInt 32 (max (-2147483648) (min 2147483647 (max (sxNat 32 x) (sxNat 32 y))))).toNat)) ∧
    (e < 256 →
      ((s.bank e).busy = true ∨ nextContext s e = none → exec .bankUnitAccept s = .next s) ∧
      (∀ x c, (s.bank e).busy = false → nextContext s e = some (x, c) →
        let s1 := s.setBank e { s.bank e with turn := x % 4 }
        let cost := s.acceptBeats c
        (wbits c.a 57 7 ≠ 0 ∨ c.a.toNat % 64 ≠ 0 → exec .bankUnitAccept s = .next (endBank s1 e x c.num 7)) ∧
        (wbits c.a 57 7 = 0 → c.a.toNat % 64 = 0 → s.pullingRange c c.a 64 = none → s.canPay x c cost = false →
          exec .bankUnitAccept s = .next ((s.payPart x c cost cost).pend .bankUnitAccept { unit := e })) ∧
        (s.canPay x c cost = true → wbits c.a 57 7 = 0 → c.a.toNat % 64 = 0 → s.pullingRange c c.a 64 = none → ∀ pa l bs,
          s1.translate c.ctx c.a.toNat .bank false = .ok (pa, l) → s1.vread c.ctx c.a.toNat 64 .bank none (some (e / 8)) = .ok bs → bankPage s c (wordAt bs) = none →
          let home := (s1.leafHome c.part l.hi pa).1
          (∀ err stat, checkBankRecord s1 e c.ctx c.part (c.k == 1) (wordAt bs) = .error (err, stat) →
            exec .bankUnitAccept s = .next (refuseBank (refusedReads s1 x (e / 8) c cost err (wordAt bs)) e x c pa home l.hi err stat)) ∧
          (∀ u, checkBankRecord s1 e c.ctx c.part (c.k == 1) (wordAt bs) = .ok u →
            u.busy = true ∧ u.olen = wbits (wordAt bs 7) 0 13 ∧ u.prog.length = wbits (wordAt bs 1) 0 10 ∧ 1 ≤ u.prog.length ∧ u.prog.length ≤ 512 ∧
            u.runs.length = (if c.k = 1 then 2 else 1) ∧ u.dup = (c.k == 1) ∧
            let hiOf (va : Word) : Nat := match s1.walk c.ctx (wbits va 0 57) with | .ok y => y.hi | .error _ => 0
            let up := homesUp s1 c.part (hiOf (wordAt bs 6)) u.out u.olen &&
              (u.keys.zip [wordAt bs 2, wordAt bs 3, wordAt bs 4]).all (fun y => homesUp s1 c.part (hiOf y.2) y.1.1 y.1.2)
            (up = false → exec .bankUnitAccept s = .next (refuseBank s1 e x c pa home l.hi 5 0x85)) ∧
            (up = true → ∃ t, exec .bankUnitAccept s = .next t ∧ t.mem = s.mem ∧ t.cores = s.cores ∧
              t.bank e = { u with eng := x, num := c.num, recPa := pa, recHome := home, recHi := l.hi, turn := x % 4, born := s.nextReq })))) ∧
      ((s.bank e).busy = false ∨ (s.bank e).runs ≠ [] → exec .bankUnitResult s = .next s) ∧
      ((s.bank e).busy = true → (s.bank e).runs = [] → wantsThird (s.bank e) = true → exec .bankUnitResult s = .next (s.setBank e { s.bank e with runs := [{ copy := 2 }] })) ∧
      ((s.bank e).busy = true → (s.bank e).runs = [] → wantsThird (s.bank e) = false → ∀ bs, decideBank (s.bank e) = .ok bs →
        let u := s.bank e
        let a := u.out + u.wrote
        let n := min (bs.length - u.wrote) (8 - a % 8)
        -- the output goes piece by piece, each once its bank is idle
        (u.wrote < bs.length → s.bankBusy e (bankAt a) = true → exec .bankUnitResult s = .next (s.pend .bankUnitResult { unit := e })) ∧
        (u.wrote < bs.length → s.bankBusy e (bankAt a) = false → ∃ t, exec .bankUnitResult s = .next t ∧
          t.mem = (s.physWrite u.part a ((bs.drop u.wrote).take n)).mem ∧ t.bank e = { u with wrote := u.wrote + n } ∧
          { event := .bankUnitResult, args := { unit := e } } ∈ t.pending ∧ t.cores = s.cores ∧
          (∀ g, u.out ≤ 64 * g → 64 * g + 64 ≤ a + n → a - a % 64 ≤ 64 * g → shas t.poison g = false)) ∧
        (bs.length ≤ u.wrote → s.affords u.ctx (e / 8) 2 = true → ∀ err t, writeStat s (e / 8) u.ctx u.part u.recPa u.recHome u.recHi 0 = (err, t) →
          exec .bankUnitResult s = .next (endBank t e u.eng u.num err))) ∧
      (let u := s.bank e
       let due (r : MoveRun) : Bool := !r.promoted && (match r.waitSince with | some t => decide (t + wbits (s.buctlReg e) 0 16 * 1000 ≤ s.time) | none => false)
       ∃ t, exec .bankRequestPromotion s = .next t ∧ t.mem = s.mem ∧ t.cores = s.cores ∧
        ((∀ r ∈ u.runs, due r = false) → t = s) ∧
        ((∃ r ∈ u.runs, due r = true) → t.bank e = { u with runs := u.runs.map (fun r => if due r then { r with promoted := true } else r) } ∧
          wbits (t.buctlReg e) 0 16 = wbits (s.buctlReg e) 0 16 ∧
          wbits (t.buctlReg e) 16 32 = (wbits (s.buctlReg e) 16 32 + (u.runs.filter due).length) % 2 ^ 32)))

/-- R220, R224, R247, R296, R300 to R303, R307, R39: requests on their way and at their homes. A request is applied in one step with its
reply; a load's reply carries the bytes of memory, a store writes them, an atomic does both. One that waits at its home for an earlier
one of its core has been admitted. A request is held 8 fabric cycles at a switch (R300) and 8 flit times at a Scair port (R383), which
are 4 and 21 of TIME in the model (log entry 110); the way of a combined reply takes 3 cycles or more (R301). The number 9 of a failed
link's report is the model's (log entry 83). That a request is admitted and applied in one step, what a failed link completes and the
effect of a sag are the model's (log entries 66, 75, 76 and 108). -/
def Obligations.FabricEvents : Prop :=
  ∀ (s : State), let id := s.ev.unit
    (s.findReq id = none → exec .homeApply s = .next s ∧ exec .sailWheelApply s = .next s ∧ exec .combineHoldExpiry s = .next s ∧
      exec .combinedReplySplit s = .next s ∧ exec .rateLimitedSend s = .next s) ∧
    (∀ r, s.findReq id = some r →
      (r.limited = true ∨ r.held.isSome = true ∨ r.answered.isSome = true → exec .homeApply s = .next s) ∧
      (r.limited = false → r.held = none → r.answered = none →
        let again : State := ({ s with fabric := s.fabric.map (fun q : Req => if q.id == id then { q with admitted := true } else q) } : State).pend .homeApply { unit := id }
        (r.op.isTask = false → s.peerStopped r.pa = false ∨ r.parked = true → s.turnOf r = true → r.stamp = 0 → exec .homeApply s = .next (applyRequest s r)) ∧
        (r.op.isTask = false → (s.peerStopped r.pa = true ∧ r.parked = false) ∨ s.turnOf r = false → s.reach r = stGood → exec .homeApply s = .next again) ∧
        (r.op.isTask = false → (s.peerStopped r.pa = true ∧ r.parked = false) ∨ s.turnOf r = false → s.reach r ≠ stGood →
          exec .homeApply s = .next (s.pend .homeApply { unit := id })) ∧
        (r.op.isTask = true → taskReleased s r = false → exec .homeApply s = .next (s.pend .homeApply { unit := id })) ∧
        (r.op.isTask = true → taskReleased s r = true → s.groupTurn r = false → exec .homeApply s = .next again) ∧
        (r.op.isTask = true → taskReleased s r = true → s.groupTurn r = true → s.bulkUp r.home = false → exec .homeApply s = .next (failRequest s r stDown)) ∧
        (r.op.isTask = true → taskReleased s r = true → s.groupTurn r = true → s.bulkUp r.home = true → s.partHas r.part r.home = true →
          exec .homeApply s = .next (applyTask s r))) ∧
      (r.stamp ≠ 0 → r.limited = false → r.stamp - 1 + 512 ≤ s.time → s.turnOf r = true → s.fabric.any (fun q => q.stamp != 0 && q.stamp < r.stamp) = false →
        exec .sailWheelApply s = .next (applyRequest s r)) ∧
      (r.stamp ≠ 0 → r.limited = false → s.time < r.stamp - 1 + 512 → r.own = true ∨ s.reach r ≠ stDown → exec .sailWheelApply s = .next (s.pend .sailWheelApply { unit := id })) ∧
      (let hold := match r.route.head? with | some (32, _, _) => 21 | _ => 4
       ∀ at_, r.held = some at_ → s.time < at_ + hold → exec .combineHoldExpiry s = .next (s.pend .combineHoldExpiry { unit := id })) ∧
      (let hold := match r.route.head? with | some (32, _, _) => 21 | _ => 4
       ∀ at_, r.held = some at_ → at_ + hold ≤ s.time → ∃ t, exec .combineHoldExpiry s = .next t ∧ t.mem = s.mem ∧ t.cores = s.cores ∧
        -- the request stands at its home, or is held at the next switch
        let r1 := { r with held := none, passed := r.passed + 1 }
        (r1.route = [] → { event := .homeApply, args := { unit := id } } ∈ t.pending ∧ r1 ∈ t.fabric) ∧
        (∀ st, r1.route.head? = some st → s.waitEntries (stageKey st) < 64 → { r1 with held := some s.time } ∈ t.fabric)) ∧
      (∀ old st, r.answered = some (old, st) → r.sent + 3 ≤ s.time → exec .combinedReplySplit s = .next (splitReply (s.dropReq id) r old st)) ∧
      (∀ y, r.answered = some y → s.time < r.sent + 3 → exec .combinedReplySplit s = .next (s.pend .combinedReplySplit { unit := id })) ∧
      (r.limited = false → exec .rateLimitedSend s = .next s) ∧
      (r.limited = true → s.rate r.ctx (r.core / 8) = 0 → s.fabric.head? = some r → ∃ t, exec .rateLimitedSend s = .next t ∧ t.mem = s.mem ∧ t.cores = s.cores ∧
        (∀ y ∈ t.fabric, y.id = id → y.limited = false))) ∧
    -- what a home does (R220)
    (∀ r, s.Inv → s.reach r = stGood → r.own = false → r.members = [] → r.pa / 256 = (r.pa + r.size - 1) / 256 → regionOf r.pa = .hbm → regionOf (r.pa + r.size - 1) = .hbm →
      (s.physRead r.part r.pa r.size).2 = false →
      let bytes := s.mem.read r.pa r.size
      (r.op = .read → r.mask = [] → let t := applyRequest s r
        t.mem = s.mem ∧ t.cores = s.cores ∧ ∃ y : Reply, (r.core, y, r.slot) ∈ t.replies ∧ y.id = r.id ∧ y.value = bytesToWord (bytes.take 8) ∧
          y.status = stGood ∧ y.data = bytes) ∧
      (r.op = .store → r.mask = [] → r.data.length = r.size → let t := applyRequest s r
        (∀ a, r.pa ≤ a → a < r.pa + r.size → t.mem.byte a = r.data.getD (a - r.pa) 0) ∧ (∀ a, a < r.pa ∨ r.pa + r.size ≤ a → t.mem.byte a = s.mem.byte a) ∧
        t.cores = s.cores) ∧
      (∀ o, r.op = .amo o → r.size = 4 ∨ r.size = 8 → r.data.length = r.size → let t := applyRequest s r
        let new := natToBytes r.size (amoNew o (8 * r.size) (bytesToNat bytes) (bytesToNat r.data))
        (∀ a, r.pa ≤ a → a < r.pa + r.size → t.mem.byte a = new.getD (a - r.pa) 0) ∧ (∀ a, a < r.pa ∨ r.pa + r.size ≤ a → t.mem.byte a = s.mem.byte a) ∧
        t.cores = s.cores ∧ ∃ y : Reply, (r.core, y, r.slot) ∈ t.replies ∧ y.id = r.id ∧ y.value = BitVec.ofNat 64 (bytesToNat bytes) ∧ y.status = stGood)) ∧
    (∃ t, exec .hotLineWithdraw s = .next t ∧ t.mem = s.mem ∧ t.cores = s.cores ∧ (∀ h ∈ t.redirects, h.2.1 ≠ id) ∧ (t.line id).replicas = []) ∧
    (id < 33 → s.findReq s.ev.idx = none ∨ s.findReq s.ev.aux = none → exec .switchCombine s = .next s) ∧
    (id < 33 → ∀ a b sw p p', s.findReq s.ev.idx = some a → s.findReq s.ev.aux = some b → meeting a b = some (sw, p, p') → agree a b = true → sw = id → p ≤ p' →
      s.turnOf a = true → s.turnOf b = true → (∀ st, a.route.head? = some st → s.waitEntries (stageKey st) < 64) → ∃ t, exec .switchCombine s = .next t ∧ t.mem = s.mem ∧ t.cores = s.cores ∧ t.fabric.length < s.fabric.length ∧
        ∃ y ∈ t.fabric, y.id = a.id ∧ ∀ o, a.op = .amo o → y.data = natToBytes a.size (amoNew o (8 * a.size) (bytesToNat a.data) (bytesToNat b.data))) ∧
    (id < 32 → s.ev.idx < 16 → ∃ t, exec .fabricLinkFailure s = .next t ∧ t.mem = s.mem ∧
      { event := .faultReport, args := { note := { reason := 9, source := id, ctx := 0, info := s.ev.idx } } } ∈ t.pending ∧
      -- a read whose way lies over the link is answered with "bulkhead down"
      (∀ r, s.fabric = [r] → r.op = .read → r.own = false → r.limited = false → r.answered = none → r.parked = false → r.wantReply = true → r.members = [] → s.engines = [] →
        r.route.any (fun y => y.1 == id && y.2.2 == s.ev.idx) = true → t.fabric = [] ∧ ∃ y ∈ t.replies, y.1 = r.core ∧ y.2.1.id = r.id ∧ y.2.1.status = stDown)) ∧
    (id < 32 → ∃ t, exec .supplySag s = .next t ∧ t.bulk id = { s.bulk id with sag := true } ∧ t.cores = s.cores ∧ t.mem = s.mem ∧ (∀ b, b ≠ id → t.bulk b = s.bulk b))

/-! Events of the bulkheads, the hub and the links (spec/22, spec/23). -/

/-- R355 to R360: the sequencer of a bulkhead. Each write is taken in its own state and changes the fields it names; a write refused by
the table sets SEQERR and changes nothing else; a step that has met its condition moves the state on. On a module without a booted image
nothing of this happens (R384). R355, R357, R358, R360: closing a sluice takes the lines homed in the bulkhead and completes what it has
admitted; a restore puts the saved queues back, or nothing where none is valid; wake-ups, restarts of halted cores and power limits.
That a closed sluice completes every request that is on its way to the bulkhead is the model's reading (log entry 76). The zero of the
registers after RAIL_UP and BH_RESET is the model's choice (log entry 3). -/
def Obligations.SequencerAndBulkhead : Prop :=
  (∀ (s : State), let b := s.ev.unit
    let x := s.bulk b
    let others (t : State) : Prop := t.mem = s.mem ∧ ∀ d, d ≠ b → t.bulk d = s.bulk d
    -- a write that the table refuses
    let no : State := s.setBulk b { x with seqerr := true }
    (s.bootOk = false → ∀ i ∈ [Instr.bhSchedStop, .bhPreempt, .bhQuiesceAbandon, .quiesceComplete, .sluiceClose, .sluiceCloseComplete, .retentionSave,
      .retentionSaveComplete, .clockGate, .clockStopped, .railOff, .railDown, .railOn, .railUp, .clockUngate, .pllLock, .bhWipe, .wipeComplete, .retentionRestore,
      .retentionRestoreComplete, .sluiceOpen, .sluiceOpenComplete, .bhSchedResume, .bhWakeWrite, .bhReset, .coreRestart, .pwrlimWrite], exec i s = .next s) ∧
    (b < 32 → s.bootOk = true →
    (x.state = 0 → ∃ t, exec .bhSchedStop s = .next t ∧ t.bulk b = { x with sched := false, state := 1 } ∧ others t) ∧
    (x.state ≠ 0 → exec .bhSchedStop s = .next no) ∧
    (x.state = 1 → ∃ t, exec .bhPreempt s = .next t ∧ t.bulk b = { x with pre := true } ∧ others t) ∧ (x.state ≠ 1 → exec .bhPreempt s = .next no) ∧
    ((x.state = 1 ∨ x.state = 2) → ∃ t, exec .bhQuiesceAbandon s = .next t ∧ t.bulk b = { x with sched := true, pre := false, state := 0 } ∧ others t) ∧
    (¬ (x.state = 1 ∨ x.state = 2) → exec .bhQuiesceAbandon s = .next no) ∧
    (x.state = 4 → ∃ t, exec .clockGate s = .next t ∧ t.bulk b = { x with gate := true } ∧ others t) ∧ (x.state ≠ 4 → exec .clockGate s = .next no) ∧
    (x.state = 7 → ∃ t, exec .clockUngate s = .next t ∧ t.bulk b = { x with gate := false } ∧ others t) ∧
    (x.state ≠ 7 → exec .clockUngate s = .next no) ∧
    (x.state = 5 → ∃ t, exec .railOff s = .next t ∧ t.bulk b = { x with off := true } ∧ others t) ∧ (x.state ≠ 5 → exec .railOff s = .next no) ∧
    (x.state = 6 → ∃ t, exec .railOn s = .next t ∧ t.bulk b = { x with off := false } ∧ others t) ∧ (x.state ≠ 6 → exec .railOn s = .next no) ∧
    (x.state = 8 → ∃ t, exec .bhWipe s = .next t ∧ t.bulk b = { x with go := true, done := false } ∧ others t) ∧
    (x.state ≠ 8 → exec .bhWipe s = .next no) ∧
    (x.state = 10 → ∃ t, exec .sluiceOpen s = .next t ∧ t.bulk b = { x with close := false } ∧ others t) ∧
    (x.state ≠ 10 → exec .sluiceOpen s = .next no) ∧
    (x.state = 11 → ∃ t, exec .bhSchedResume s = .next t ∧ t.bulk b = { x with sched := true, pre := false, state := 0 } ∧ others t) ∧
    (x.state ≠ 11 → exec .bhSchedResume s = .next no) ∧
    (x.state = 3 → ∃ t, exec .retentionSave s = .next t ∧ t.bulk b = { x with save := true, busy := true, retained := retainedOf s b } ∧ others t) ∧
    (x.state ≠ 3 → exec .retentionSave s = .next no) ∧
    (x.pre = true → x.state = 1 → idleMask s b = 0xFF → enginesEmpty s b = true → exec .quiesceComplete s = .next (s.setBulk b { x with state := 2 })) ∧
    (x.pre = false ∨ x.state ≠ 1 → exec .quiesceComplete s = .next s) ∧
    (x.close = true → x.state = 2 → inflight s b = 0 → exec .sluiceCloseComplete s = .next (s.setBulk b { x with closed := true, state := 3 })) ∧
    (x.close = false ∨ x.state ≠ 2 → exec .sluiceCloseComplete s = .next s) ∧
    (x.busy = true → x.state = 3 → exec .retentionSaveComplete s = .next (s.setBulk b { x with busy := false, valid := true, save := false, state := 4 })) ∧
    (x.busy = false ∨ x.state ≠ 3 → exec .retentionSaveComplete s = .next s) ∧
    (x.gate = true → x.state = 4 → exec .clockStopped s = .next (s.setBulk b { x with lock := false, state := 5 })) ∧
    (x.gate = false ∨ x.state ≠ 4 → exec .clockStopped s = .next s) ∧
    (x.gate = false → x.state = 7 → exec .pllLock s = .next (s.setBulk b { x with lock := true, state := 8 })) ∧
    (x.gate = true ∨ x.state ≠ 7 → exec .pllLock s = .next s) ∧
    (x.busy = true → x.state = 9 → exec .retentionRestoreComplete s = .next (s.setBulk b { x with busy := false, restore := false, state := 10 })) ∧
    (x.busy = false ∨ x.state ≠ 9 → exec .retentionRestoreComplete s = .next s) ∧
    (x.close = false → x.state = 10 → exec .sluiceOpenComplete s = .next (s.setBulk b { x with closed := false, state := 11 })) ∧
    (x.close = true ∨ x.state ≠ 10 → exec .sluiceOpenComplete s = .next s) ∧
    (x.pre = true → x.state = 1 → idleMask s b ≠ 0xFF ∨ enginesEmpty s b = false → exec .quiesceComplete s = .next (s.pendOnce .quiesceComplete { unit := b })) ∧
    (x.close = true → x.state = 2 → inflight s b ≠ 0 → exec .sluiceCloseComplete s = .next (s.pendOnce .sluiceCloseComplete { unit := b })) ∧
    (x.off = true → x.state = 5 → ∃ t, exec .railDown s = .next t ∧ t.bulk b = { x with pg := false, state := 6 } ∧ t.cores = s.cores ∧ others t) ∧
    (x.off = false → x.state = 6 → ∃ t, exec .railUp s = .next t ∧ t.bulk b = { x with pg := true, state := 7 } ∧ others t ∧
      (∀ c, c / 8 = b → ∀ r, (t.core c).rs r = 0) ∧ (∀ c, c / 8 ≠ b → t.core c = s.core c)) ∧
    (x.go = true → x.state = 8 → ∃ t, exec .wipeComplete s = .next t ∧ t.bulk b = { x with go := false, done := true, state := 9 } ∧ others t ∧
      (∀ c, c / 8 = b → (t.core c).scratch = [] ∧ (t.core c).steep = [] ∧ (t.core c).at_ = [] ∧ (t.core c).tiles = [] ∧ (t.core c).tables = [] ∧
        (t.core c).tb = [] ∧ (t.core c).halted = false ∧ ∀ n, ((t.core c).cbReg n).conf = false) ∧
      (∀ c, c / 8 ≠ b → t.core c = s.core c)) ∧
    (x.off = false ∨ x.state ≠ 5 → exec .railDown s = .next s) ∧ (x.off = true ∨ x.state ≠ 6 → exec .railUp s = .next s) ∧
    (x.go = false ∨ x.state ≠ 8 → exec .wipeComplete s = .next s))) ∧
  (∀ (s : State), let b := s.ev.unit
    let x := s.bulk b
    let v := s.ev.value
    let no : State := s.setBulk b { x with seqerr := true }
    s.bootOk = true →
    (b < 32 →
      (x.state = 2 → s.groups = [] → s.contribs = [] → s.engines = [] → ∃ t, exec .sluiceClose s = .next t ∧ (t.bulk b).close = true ∧ (t.bulk b).state = 2 ∧ t.mem = s.mem ∧
        (∀ y ∈ t.lines, y.2.home / 8 ≠ b) ∧ (∀ r ∈ t.fabric, r.home = b → r.toHub = false → r.answered.isSome = true)) ∧
      (x.state ≠ 2 → exec .sluiceClose s = .next no) ∧
      (x.state = 9 → x.valid = true → ∃ t, exec .retentionRestore s = .next t ∧ t.mem = s.mem ∧ (t.bulk b).valid = false ∧ (t.bulk b).busy = true ∧
        (t.bulk b).restore = true ∧ (t.bulk b).state = 9 ∧ t.readyOf b = x.retained.ready ∧
        ∀ c, c / 8 = b → (t.core c).sysReg 0x12 = mget 0x1800 x.retained.pwrlim c) ∧
      (x.state = 9 → x.valid = false → ∃ t, exec .retentionRestore s = .next t ∧ t.mem = s.mem ∧ t.readyOf b = [] ∧
        ∀ c, c / 8 = b → (t.core c).sysReg 0x12 = 0x1800) ∧
      (x.state ≠ 9 → exec .retentionRestore s = .next no) ∧
      (∃ t, exec .bhWakeWrite s = .next t ∧ t.bulk b = { x with req := wbit v 0 } ∧ t.mem = s.mem ∧
        (t.core 256).sysReg 9 = (s.core 256).sysReg 9 ||| 8) ∧
      (5 ≤ x.state → x.state ≤ 7 → exec .bhReset s = .next (s.setHub 0x1000 (s.hubReg 0x1000 ||| 2))) ∧
      (x.state < 5 ∨ 7 < x.state → s.groups = [] → ∃ t, exec .bhReset s = .next t ∧ (t.bulk b).state = 9 ∧ (t.bulk b).sched = false ∧ (t.bulk b).close = true ∧
        (t.bulk b).closed = true ∧ t.readyOf b = [] ∧ (∀ c, c / 8 = b → (t.core c).running = none ∧ (t.core c).scratch = [] ∧ ∀ r, (t.core c).rs r = 0))) ∧
    (b < 256 →
      ((s.bulk (b / 8)).state = 0 → (s.core b).halted = true → exec .coreRestart s = .next (s.setCore b { s.core b with halted := false })) ∧
      ((s.bulk (b / 8)).state ≠ 0 ∨ (s.core b).halted = false → exec .coreRestart s = .next s) ∧
      (5 ≤ (s.bulk (b / 8)).state → (s.bulk (b / 8)).state ≤ 7 → exec .pwrlimWrite s = .next s) ∧
      ((s.bulk (b / 8)).state < 5 ∨ 7 < (s.bulk (b / 8)).state → ∃ t, exec .pwrlimWrite s = .next t ∧ t.mem = s.mem ∧
        (t.core b).sysReg 0x12 = v &&& 0xFFFF ∧ (∀ n, n ≠ 0x12 → (t.core b).sysReg n = (s.core b).sysReg n))))

/-- R364 to R374, R384 to R386: the hub. A legal write to PTAB is taken while its bulkheads are down or reset, any other sets bit 0 of
HUBSTAT; a context with work keeps V; a destroyed key takes the next epoch; a life-cycle request is pended or refused; a module reset
keeps memory and the epochs and resets the rest, and leaves every bulkhead in reset unless the boot ROM accepts the image; a commit
copies the lifetime counters. Without a booted image the hub takes no write. What a module reset keeps is the model's reading (log entry
72). -/
def Obligations.HubEvents : Prop :=
  ∀ (s : State), let p := s.ev.unit
    let v := s.ev.value
    (s.bootOk = false → exec .ptabWrite s = .next s ∧ exec .gkeyDestroy s = .next s ∧ exec .contextDescriptorWrite s = .next s ∧ exec .lifecycleRequest s = .next s) ∧
    (p < 32 → s.bootOk = true →
      let new := v &&& 0x800000000000071F#64
      let bs := (ptabSet (s.ptab p) ++ ptabSet new).eraseDups
      let still := ∀ b ∈ bs, (s.bulk b).state = 6 ∨ (s.bulk b).state = 9
      (new = s.ptab p → ∃ t, exec .ptabWrite s = .next t ∧ t.hub = s.hub ∧ t.mem = s.mem ∧ t.bulks = s.bulks ∧
        mget [] t.measures p = Config.sha512 ((mget (List.replicate 64 0) s.measures p) ++ natToBytes 8 v.toNat)) ∧
      (new ≠ s.ptab p → ptabLegal s p new = false ∨ ¬ still → exec .ptabWrite s = .next (s.setHub 0x1000 (s.hubReg 0x1000 ||| 1))) ∧
      (new ≠ s.ptab p → ptabLegal s p new = true → still → ∃ t, exec .ptabWrite s = .next t ∧ t.ptab p = new ∧ t.mem = s.mem ∧
        (∀ q, q < 32 → q ≠ p → t.ptab q = s.ptab q) ∧ ∀ b ∈ bs, (t.bulk b).valid = false) ∧
      (∃ t, exec .gkeyDestroy s = .next t ∧ t.keyEpoch p = (s.keyEpoch p + 1) % 256 ∧ t.mem = s.mem ∧ t.cores = s.cores ∧
        (∀ q, q < 32 → q ≠ p → t.keyEpoch q = s.keyEpoch q))) ∧
    (p < 4096 → s.ev.idx = 0 → s.bootOk = true →
      let new := v &&& 0x800000000000011F#64
      (wbit new 63 = false → s.ctxValid p = true → contextBusy s p = true → ∃ t, exec .contextDescriptorWrite s = .next t ∧
        t.ctxValid p = true ∧ wbit (t.hubReg 0x1000) 0 = true ∧ t.cores = s.cores ∧ t.mem = s.mem) ∧
      (wbit new 63 = true ∨ s.ctxValid p = false ∨ contextBusy s p = false → exec .contextDescriptorWrite s = .next (s.setCtxd p 0 new))) ∧
    (p < 4096 → s.ev.idx = 8 → s.bootOk = true → exec .contextDescriptorWrite s = .next (s.setCtxd p 8 (v &&& 0x000FFFFFFFFFE000#64))) ∧
    (let target := wbits (s.hubReg 0x1010) 0 3
     let pend := wbit (s.hubReg 0x1008) 7
     s.bootOk = true → ∃ t, exec .lifecycleRequest s = .next t ∧ t.mem = s.mem ∧ t.cores = s.cores ∧ t.lcState = s.lcState ∧
      (pend = false → lifecycleStep s.lcState target = some false → wbit (t.hubReg 0x1008) 7 = true ∧ wbits (t.hubReg 0x1008) 3 3 = target) ∧
      (pend = true ∨ lifecycleStep s.lcState target = none → wbit (t.hubReg 0x1008) 6 = true ∧ wbit (t.hubReg 0x1008) 7 = pend)) ∧
    (∃ t, exec .moduleReset s = .next t ∧ exec .pfFlr s = .next t ∧ t.cores = [] ∧ t.engines = [] ∧ t.ready = [] ∧ t.time = 0 ∧ t.counters = s.counters ∧
      (t.bootOk = true ↔ t.lcState ≠ 4 ∧ bootAccepts t.image = true) ∧ (t.bootOk = true → t.bulks = []) ∧
      (t.bootOk = false → ∀ b, b < 32 → (t.bulk b).state = 9 ∧ (t.bulk b).sched = false ∧ (t.bulk b).closed = true) ∧
      (wbit (s.hubReg 0x1008) 7 = false → t.mem = s.mem ∧ t.poison = s.poison ∧ t.epochs = s.epochs ∧ t.lcState = s.lcState ∧
        ∀ q, q < 32 → t.hubReg (0x40000 + 8 * q) = s.hubReg (0x40000 + 8 * q)) ∧
      (wbit (s.hubReg 0x1008) 7 = true → t.lcState = wbits (s.hubReg 0x1008) 3 3 ∧ ∀ a, regionOf a = .hbm → t.mem.byte a = 0)) ∧
    exec .lifetimeCounterCommit s = .next { s with committed := s.counters } ∧ exec .orderlyPowerDown s = .next { s with committed := s.counters }

/-- R369, R376 to R378, R380, R385: virtual functions. One that is not bound does nothing. WAKE asks for the bulkheads of its mask, HINV
invalidates in its partition, a function reset clears VF_ERR and stops its queues, two consents that match open a window, and an
attestation request writes its report to host memory. Config.ownsPages and the signature are free values of the model (log entry 6). -/
def Obligations.VirtualFunctions : Prop :=
  ∀ (s : State), let f := s.ev.unit
    let x := s.vf f
    let v := s.ev.value
    (s.bootOk = false → exec .vfWake s = .next s ∧ exec .vfHinv s = .next s ∧ exec .vfFlr s = .next s ∧ exec .consentSubmit s = .next s ∧
      exec .attestationRequest s = .next s ∧ exec .atsInvalidation s = .next s) ∧
    (f < 64 → s.bootOk = true →
    (x.bound = false → exec .vfWake s = .next s ∧ exec .vfHinv s = .next s ∧ exec .vfFlr s = .next s ∧ exec .consentSubmit s = .next s ∧
      exec .attestationRequest s = .next s) ∧
    (x.bound = true →
      exec .vfHinv s = .next (invalidateFrom s (4096 + f) x.part v) ∧
      (∃ t, exec .vfWake s = .next t ∧ t.mem = s.mem ∧ ∀ i, i < s.partCount x.part → wbit v i = true → (t.bulk (s.partFirst x.part + i)).req = true) ∧
      (∃ t, exec .vfFlr s = .next t ∧ (t.vf f).err = 0 ∧ ∀ q, (s.queue q).bound = true → (s.queue q).part = x.part → (t.queue q).stopped = true) ∧
      (x.other = x.part → exec .consentSubmit s = .next (s.setVf f { x with status := 3, slot := 0 })) ∧
      (x.other ≠ x.part → x.perm ≠ 0 → s.vfs = [(f, x)] → exec .consentSubmit s = .next (s.setVf f { x with status := 1, slot := 0 })) ∧
      (∀ g y w, s.vfs = [(f, x), (g, y)] ∨ s.vfs = [(g, y), (f, x)] → g ≠ f → x.other ≠ x.part → x.perm ≠ 0 → y.bound = true → y.status = 1 → y.owner = x.owner →
        y.borrower = x.borrower → y.pages = x.pages → y.borrows ≠ x.borrows → y.perm = x.perm → freeWindow s x.owner = some w →
        ∃ t, exec .consentSubmit s = .next t ∧
          if Config.ownsPages x.owner x.pages.1 x.pages.2 s.free = true then
            (t.vf f).status = 2 ∧ (t.vf g).status = 2 ∧ (t.vf f).slot = w ∧ (t.vf g).slot = w ∧ ∀ b ∈ ptabSet (s.ptab x.owner), b < 32 → wbit (t.slwin b w).1 63 = true
          else (t.vf f).status = 3 ∧ (t.vf g).status = 3 ∧ t.hub = s.hub) ∧
      (s.lcState = 0 → exec .attestationRequest s = .next s) ∧
      (s.lcState ≠ 0 →
        let body := reportBody s x.part x.nonce
        exec .attestationRequest s = .next (match s.hostAddr x.part x.reportTo.toNat with
          | some a => { s with mem := s.mem.write a (body ++ (Config.sign (Config.sha512 body) ++ List.replicate 64 0).take 64) }
          | none => s))) ∧
    -- a side that gives no permission closes the window
    (x.bound = true → x.other ≠ x.part → x.perm = 0 → s.vfs = [(f, x)] → ∃ t, exec .consentSubmit s = .next t ∧ t.mem = s.mem ∧
      -- at once, or when every request that the window has admitted is done
      (let admitted (r : Req) : Prop := r.part = x.borrower ∧ s.partHas x.owner r.home = true ∧ r.toHub = false ∧ r.op.isTask = false ∧
         x.pages.1 ≤ r.pa / 4096 ∧ r.pa / 4096 ≤ x.pages.2 ∧ (r.admitted = true ∨ r.parked = true)
       ((∀ r ∈ s.fabric, ¬ admitted r) → (t.vf f).status = 0) ∧
       ((∃ r ∈ s.fabric, admitted r) → t.vf f = x ∧ { event := .consentSubmit, args := { unit := f } } ∈ t.pending)) ∧
      ∀ b w, b < 32 → w < 16 → s.partHas x.owner b = true → wbits (s.slwin b w).1 58 5 = x.borrower → wbits (s.slwin b w).1 12 40 = x.pages.1 →
        wbits (s.slwin b w).2 12 40 = x.pages.2 → wbit (t.slwin b w).1 63 = false) ∧
    (s.fabric.any (fun r => r.part == x.part && regionOf r.pa == .host && r.answered.isNone) = false → exec .atsInvalidation s = .next (s.setVf f { x with gen := x.gen + 1 })) ∧
    (s.fabric.any (fun r => r.part == x.part && regionOf r.pa == .host && r.answered.isNone) = true → exec .atsInvalidation s = .next (s.pend .atsInvalidation s.ev)))

/-- R381 to R383: the Scair ports. XOFF and XON stop and start a lane, a heartbeat goes out after 1 microsecond without a flit, a port
that has heard nothing for 100 microseconds is down and reported, and the requests over it complete; a bad flit asks for a replay, which
puts the flits on the link again; a request enters the receive buffer in the order of its lane, and one outside the window table is
answered with poison. The numbers of the flit types other than the control flits', the size of the receive buffer, the CRC and the
number 10 of the report are the model's (log entries 83 and 110). The order of flits in the replay buffer is the model's (log entry 69).
-/
def Obligations.ScairPorts : Prop :=
  ∀ (s : State), let p := s.ev.unit
    let q := s.port p
    let kept (t : State) : Prop := t.mem = s.mem ∧ t.cores = s.cores ∧ ∀ d, d ≠ p → t.port d = s.port d
    let flit (q : Port) (vl kind dst part adr : Nat) : Flit :=
      let g : Flit := { vl := vl, kind := kind, seq := mget 0 q.sendSeq vl, src := Config.moduleNumber.toNat, dst := dst, part := part, adr := adr,
                        payload := List.replicate 232 0 }
      { g with crc := Config.crc64 g.body }
    let sent (q : Port) (t : Port) (f : Flit) : Prop := t.replay.getLast? = some f ∧ t.wire.getLast? = some f ∧ mget 0 t.sendSeq f.vl = (mget 0 q.sendSeq f.vl + 1) % 2 ^ 24
    (p < 16 →
      (s.ev.flag = false → q.up = true → q.lastSend + 1000 ≤ s.time → q.xoff.contains 3 = false → ∃ t, exec .scairHeartbeat s = .next t ∧ kept t ∧
        (t.port p).lastSend = s.time ∧ sent q (t.port p) (flit q 3 1 0 0 0)) ∧
      (s.ev.flag = false → q.up = false ∨ s.time < q.lastSend + 1000 → exec .scairHeartbeat s = .next s) ∧
      (s.ev.flag = true → exec .scairHeartbeat s = .next (s.setPort p { q with lastRecv := s.time })) ∧
      (q.up = true → q.lastRecv + 100000 ≤ s.time → ∃ t, exec .scairLinkDown s = .next t ∧ t.mem = s.mem ∧ t.port p = { q with up := false } ∧
        { event := .faultReport, args := { note := { reason := 10, source := p, ctx := 0, info := 0 } } } ∈ t.pending ∧
        ∀ r ∈ t.fabric, s.overPort p r = false) ∧
      (q.up = false ∨ s.time < q.lastRecv + 100000 → exec .scairLinkDown s = .next s) ∧
      (s.ev.idx < 4 →
        (∃ t, exec .scairXoff s = .next t ∧ kept t ∧ (t.port p).xoff.contains s.ev.idx = true ∧ (t.port p).lastRecv = s.time ∧ (t.port p).up = q.up) ∧
        (∃ t, exec .scairXon s = .next t ∧ kept t ∧ (t.port p).xoff.contains s.ev.idx = false ∧ (t.port p).lastRecv = s.time ∧ (t.port p).up = q.up) ∧
        -- the flits that waited for the lane go out before any later one
        (∃ t, exec .scairXon s = .next t ∧ (∀ f ∈ (t.port p).stopped, f.vl ≠ s.ev.idx) ∧ (∀ f, q.stopped = [f] → f.vl = s.ev.idx → (t.port p).wire.getLast? = some f)) ∧
        (let again := (q.replay.filter (fun f => f.vl == s.ev.idx)).dropWhile (fun f => f.seq != s.ev.aux)
         (again = [] → exec .scairReplayRequest s = .next (s.setPort p { q with lastRecv := s.time })) ∧
         (again ≠ [] → q.wire.length + again.length ≤ 512 →
           exec .scairReplayRequest s = .next (s.setPort p { q with wire := q.wire ++ again, lastSend := s.time, lastRecv := s.time }))) ∧
        (q.xoff.contains 3 = false → ∃ t, exec .scairFlitCrcFailure s = .next t ∧ kept t ∧
          mget 0 (t.port p).recvSeq s.ev.idx = s.ev.aux ∧ sent q (t.port p) (flit q 3 4 0 0 (s.ev.idx * 2 ^ 24 + s.ev.aux % 2 ^ 24)))) ∧
      (4 ≤ s.ev.idx → exec .scairXoff s = .next s ∧ exec .scairXon s = .next s ∧ exec .scairReplayRequest s = .next s ∧ exec .scairFlitCrcFailure s = .next s)) ∧
    -- a request that arrives at a port
    (let r := s.ev.peer
     let q := s.port r.port
     r.port < 16 → s.ev.flag = false →
      -- a read is one flit, whatever its size
      let flits (y : PeerReq) : Nat := if y.write = true ∨ y.atomic.isSome = true then max 1 ((y.data.length + 231) / 232) else 1
      let n := flits r
      let held := (q.recv.map flits).sum + n
      (r.seq ≠ mget 0 q.recvSeq 0 → exec .peerRequest s = .next (s.setPort r.port { q with lastRecv := s.time })) ∧
      (r.seq = mget 0 q.recvSeq 0 → ∃ t, exec .peerRequest s = .next t ∧ t.mem = s.mem ∧ t.cores = s.cores ∧ (t.port r.port).recv = q.recv ++ [r] ∧
        mget 0 (t.port r.port).recvSeq 0 = (r.seq + n) % 2 ^ 24 ∧ { event := .peerRequest, args := { peer := r, flag := true } } ∈ t.pending ∧
        (held < Config.receiveFlits ∨ q.full = true → (t.port r.port).wire = q.wire) ∧
        (Config.receiveFlits ≤ held → q.full = false → q.xoff.contains 3 = false → (t.port r.port).full = true ∧ sent q (t.port r.port) (flit q 3 2 r.srcModule 0 0)))) ∧
    -- the oldest request in the receive buffer is served
    (let q := s.port s.ev.peer.port
     s.ev.peer.port < 16 → s.ev.flag = true →
      (q.recv = [] → exec .peerRequest s = .next s) ∧
      (∀ r rest, q.recv = r :: rest → q.full = false → r.port = s.ev.peer.port →
        let s1 := s.setPort s.ev.peer.port { q with recv := rest }
        let w := (s.peers.take 64).find? (fun w => w.src == r.srcModule && w.part == r.part && w.base ≤ r.addr && r.addr + r.data.length ≤ w.base + w.len)
        (w = none → q.xoff.contains 1 = false → ∃ t, exec .peerRequest s = .next t ∧ t.mem = s.mem ∧ t.cores = s.cores ∧
          sent q (t.port r.port) (flit q 1 stPoison r.srcModule 0 r.addr)) ∧
        (∀ y, w = some y → exec .peerRequest s = .next (servePeer s1 r y) ∧
          -- an access that its window, its translation and its sluices admit
          (∀ l, s1.walk y.lctx (y.vbase + (r.addr - y.base)) = .ok l → r.atomic = none → r.write = true → r.poison = false → permRefusal .peer true false false l.hi = none →
            let pa := l.pa (y.vbase + (r.addr - y.base))
            regionOf pa = .hbm → regionOf (pa + r.data.length - 1) = .hbm → pa / 256 = (pa + r.data.length - 1) / 256 → s.Inv → 0 < r.data.length →
            s1.sluice (s1.leafHome y.lpart l.hi pa).1 y.lpart pa 1 = stGood →
            let t := servePeer s1 r y
            (∀ i, i < r.data.length → t.mem.byte (pa + i) = r.data.getD i 0) ∧ (∀ a, a < pa ∨ pa + r.data.length ≤ a → t.mem.byte a = s.mem.byte a)))))

/-! The machine as a whole. -/

/-- R38, R161, R306, R308, R353, R355: what reset leaves, where the rules give the value: PWRLIM 0x1800, WAYMASK 0xFFFF, the token
bucket's limits, TIME 0, SPDMAX 50,000 and HOTCFG; no continuation and no loop; no tile slot and no binding; RL 128; every bulkhead in
STATE 0 with its scheduler, lock and power on. -/
def Obligations.ResetState : Prop :=
  ∀ (c : Nat), let s := State.reset
    let k := s.core c
    k.sysReg 0x12 = 0x1800 ∧ k.sysReg 0x33 = 0xFFFF ∧ k.sysReg 0x34 = 0x10000000000 ∧ readSys s c 0x10 = 0 ∧ readSys s c 0x14 = 50000 ∧
    readSys s c 0x36 = 0x2004 ∧ k.running = none ∧ (∀ l, (k.loop l).active = false) ∧ (∀ g, k.tile g = {}) ∧ (∀ t, k.bind t = {}) ∧
    (∀ n, (k.cbReg n).conf = false) ∧ (∀ i, (k.slot i).op = none) ∧ k.mx.rl = 128 ∧ k.rp 0 = true ∧ k.rs 0 = 0 ∧ k.svc = false ∧ k.mark.armed = false ∧
    (∀ b, (s.bulk b).state = 0 ∧ (s.bulk b).sched = true ∧ (s.bulk b).pre = false ∧ (s.bulk b).lock = true ∧ (s.bulk b).pg = true) ∧
    (∀ p, s.partValid p = false) ∧ s.time = 0

/-- The invariant holds at reset: memory is in its canonical form. That unwritten memory reads 0 is the model's choice (log entry 4). -/
def Obligations.InvariantAtReset : Prop :=
  State.reset.Inv

/-- Every step keeps the invariant: memory stays in its canonical form, rising addresses and no entry equal to what an unlisted address
reads as, whatever instruction, event or turn the step takes. That unwritten memory reads 0 is the model's choice (log entry 4). -/
def Obligations.StepKeepsInvariant : Prop :=
  ∀ (s t : State), s.Inv → step s = .next t → t.Inv

/-- R24, R43: an operation whose guard is false, and that does not wait for the reply to a request (R230), changes nothing, nor do NOP
and IDLE; every operation of a slot answers a next state. A result leaves every register, every flag and all of memory as they were
until it lands. -/
def Obligations.GuardsAndResults : Prop :=
  (∀ (i : Instr) (sp : Space) (r : Raw) (s : State), encode i = .syllable sp r →
    (∃ t, exec i s = .next t) ∧ (i ≠ .nop → i ≠ .idle → s.me.guardHolds r.g = false → s.asked = false → exec i s = .next s)) ∧
  (∀ s : State, exec .nop s = .next s ∧ exec .idle s = .next s) ∧
  (∀ (s : State) (w : Nat) (rs : List (Nat × Landing)), let t := s.yields w rs
    t.mem = s.mem ∧ t.now = { s.now with weight := w } ∧ t.pending = s.pending ∧ t.fabric = s.fabric ∧ (∀ c, c ≠ s.cur → t.core c = s.core c) ∧
    t.me = { s.me with flights := s.me.flights ++ rs.map (fun r => { slot := s.now.slot, due := s.now.clk + r.1, seq := s.now.seq, what := r.2, adr := s.now.adr }) })

/-- No meaning stops: every instruction, move and event, with every operand in every state, answers a next state, and so does every
step. What its effect is on operands that its rules name is what the other statements say; where it is a trap, a wait or nothing, that
is the state answered. That an event which names a unit that the module does not have changes nothing is the model's choice (log entry
84). -/
def Obligations.EveryFormAnswers : Prop :=
  (∀ (i : Instr) (s : State), ∃ t, exec i s = .next t) ∧ (∀ s : State, ∃ t, step s = .next t)

/-- R16: a result lands in the cycle in which its slot's clock has reached issue plus latency, and not before: the register takes the
value, every register that no due result names keeps its own, and the bytes of a due store reach the scratchpad while no mark holds it.
-/
def Obligations.ResultsLandWhenDue : Prop :=
  ∀ (s : State) (c : Nat), let k := s.core c
    let due (f : Flight) : Prop := f.due ≤ (k.slot f.slot).clk
    let j := (landDue s c).core c
    (∀ f ∈ k.flights, f.poison = false ∧ ((∃ r v, f.what = .s r v) ∨ (∃ r v, f.what = .p r v) ∨ (∃ r v, f.what = .v r v) ∨ (∃ o d, f.what = .store o d))) →
      k.mark.armed = false →
      (∀ f ∈ k.flights, ∀ r v, f.what = .s r v → due f → r ≠ 0 → (∀ g ∈ k.flights, ∀ w, g.what = .s r w → due g → w = v) → j.rs r = v) ∧
      (∀ f ∈ k.flights, ∀ r v, f.what = .p r v → due f → r ≠ 0 → (∀ g ∈ k.flights, ∀ w, g.what = .p r w → due g → w = v) → j.rp r = v) ∧
      (∀ f ∈ k.flights, ∀ r v, f.what = .v r v → due f → (∀ g ∈ k.flights, ∀ w, g.what = .v r w → due g → w = v) → j.rv r = v) ∧
      (∀ r, (∀ f ∈ k.flights, ∀ w, f.what = .s r w → ¬ due f) → j.rs r = k.rs r) ∧
      (∀ r, (∀ f ∈ k.flights, ∀ w, f.what = .p r w → ¬ due f) → j.rp r = k.rp r) ∧
      (∀ r, (∀ f ∈ k.flights, ∀ w, f.what = .v r w → ¬ due f) → j.rv r = k.rv r) ∧
      j.rs 0 = 0 ∧ j.rp 0 = true ∧ (landDue s c).mem = s.mem ∧
      ((∀ f ∈ k.flights, ∀ o d, f.what = .store o d → ¬ due f) → j.scratch = k.scratch) ∧
      (k.scratch.wf = true → ∀ f ∈ k.flights, ∀ o d, f.what = .store o d → due f → (∀ g ∈ k.flights, ∀ o' d', g.what = .store o' d' → due g → g = f) →
        (∀ i, i < d.length → j.scratch.byte (o + i) = d.getD i 0) ∧ (∀ a, a < o ∨ o + d.length ≤ a → j.scratch.byte a = k.scratch.byte a)) ∧
      (∀ f, f ∈ j.flights ↔ f ∈ k.flights ∧ ¬ due f)

/-- R16, R193: the bytes of a store reach the scratchpad at their offset and no others; with a mark armed before it the store is held in
the gated store buffer instead (R339). What the other results do when they land: a system register takes the written value field by
field, its fields RO keep theirs and a 1 clears a field W1C (R6, R72, R351, with R104, R194, R213, R273, R306, R341, R353, R379); CNT
and ROOM rise (R30); a buffer, a table and a table's range take their new contents (R29, R123, R124); a handle becomes pending, valid,
faulted or invalid (R210, R212); a posted store and one that passes the gated ones leave for their homes (R187, R220); a register of the
management core's spaces is read or written (R354, R363). By the model's readings and choices an FEL written with VALID 0 reads 0 (log
entry 101), one written with VALID 1 keeps its place (104), PGINV faults the handles of every core of the partition in this step (18),
with its range as written (118), a TCMP at or below TIME brings TIMER_MATCH (19), a write of LDRAIN clears REM (20), VBASE is cut to 57
bits (21) and a pending handle's other fields read 0 (117). -/
def Obligations.StoresLand : Prop :=
  (∀ (s : State) (c : Nat) (f : Flight), f.kind = 0 → (s.core c).mark.armed = false → let k := s.core c
    let s0 := s.setCore c k
    let t := landOne s c f
    let j := t.core c
    let low (m : Word) (n : Nat) (v : Word) : Word := (k.sysReg n &&& ~~~m) ||| (v &&& m)
    -- system registers
    (∀ n v, f.what = .sys n v →
      let only : Prop := t.mem = s.mem ∧ j.s = k.s ∧ j.scratch = k.scratch ∧ (∀ m, m ≠ n → j.sysReg m = k.sysReg m) ∧ (∀ d, d ≠ c → t.core d = s.core d)
      (∀ e ∈ [(1, 0xFFFFFFFFFFFFFFFF#64), (2, 0x0000F0FFFFFFFFFF#64), (3, 0x4000000000000000#64), (4, 0x0000FFFFFFFFFFFF#64), (7, 0xFFFFFFFFFFFFFFFF#64),
        (0x13, 0xFFFFFFFFFFFFFFFF#64), (0x30, 0x11F#64)], n = e.1 → only ∧ j.sysReg n = low e.2 n v) ∧
      (n = 5 → only ∧ j.sysReg 5 = k.sysReg 5) ∧
      (0x18 ≤ n → n ≤ 0x1F → only ∧ j.sysReg n = low 0xFFFFFFFF#64 n v) ∧ (0x20 ≤ n → n ≤ 0x26 → only ∧ j.sysReg n = v) ∧
      (n ∈ [0x10, 0x11, 0x12, 0x14, 0x31, 0x34, 0x35, 0x36] ∨ (0x40 ≤ n ∧ n ≤ 0x5F) → only ∧ j.sysReg n = k.sysReg n) ∧
      (n = 0 → only ∧ j.sysReg 0 = (if wbit v 63 = true then v &&& 0xFE00FFFFFFFFFFFF#64 else 0) ∧ j.felSeq = f.seq) ∧
      (n = 6 → only ∧ j.sysReg 6 = v &&& 0x0000FFFFFFFFFFF0#64 ∧ (k.running.isSome = true → c ≠ 256 → t.ctxd k.ctxOf 0x10 = v &&& 0x0000FFFFFFFFFFF0#64)) ∧
      (n = 8 → only ∧ j.sysReg 8 = v &&& 0xFFF0000000000000#64) ∧ (n = 9 → only ∧ j.sysReg 9 = k.sysReg 9 &&& ~~~(v &&& 0x1E#64)) ∧
      (n = 0xA → only ∧ j.sysReg 0xA = v ∧ (v ≠ 0 → v.toNat ≤ s.time → { event := .timerMatch, args := { unit := c } } ∈ t.pending)) ∧
      (n = 0x27 → only ∧ j.sysReg 0x27 = v ∧ t.msixWait = s.msixWait ++ (if 2 ≤ wbits v 0 6 ∧ k.running.isSome = true then
        [{ core := c, part := k.partOf, vec := wbits v 0 6, seq := f.seq, slot := f.slot }] else [])) ∧
      (n = 0x32 → k.ctxOf < 4096 → (wbit (mget 0 s.invalidations k.ctxOf) 63 = true → t = s0) ∧
        (wbit (mget 0 s.invalidations k.ctxOf) 63 = false → t.mem = s.mem ∧ wbit (mget 0 t.invalidations k.ctxOf) 63 = true ∧
          (∀ d i, s.partHas k.partOf (d / 8) = true → (s.core d).handleCtx = k.ctxOf → i < 15 →
            let h : Handle := mget {} (s.core d).h i
            let h' : Handle := mget {} (t.core d).h i
            h.state = 2 → wbit v 62 = true ∨ overlaps h.pageBase (pageBytes h.size.toNat) (wbits v 0 45 * 4096) (pageBytes (wbits v 56 4)) = true →
              h'.state = 3 ∧ h'.cause = 6 ∧ h'.gen = h.gen + 1))) ∧
      (n = 0x33 → j.sysReg 0x33 = BitVec.ofNat 64 (Nat.land (wbits (k.sysReg 0x33) 0 16) (wbits v 0 16)) ∧ t.ctxd k.ctxOf 0x18 = j.sysReg 0x33 ∧ t.mem = s.mem) ∧
      (0x60 ≤ n → n ≤ 0x7F → only ∧ wbits (j.sysReg n) 4 2 = wbits v 4 2 ∧ wbits (j.sysReg n) 0 4 = (if 9 < wbits v 0 4 then wbits (k.sysReg n) 0 4 else wbits v 0 4))) ∧
    -- buffers
    (∀ b gen n, f.what = .cnt b gen n → let y := k.cbReg b
      t.mem = s.mem ∧ j.cbReg b = if y.conf = true ∧ y.gen = gen ∧ gen % 2 = 0 then { y with cnt := y.cnt + n } else y) ∧
    (∀ b gen n, f.what = .room b gen n → let y := k.cbReg b
      t.mem = s.mem ∧ j.cbReg b = if y.conf = true ∧ y.gen = gen ∧ gen % 2 = 0 then { y with room := y.room + n } else y) ∧
    (∀ b d, f.what = .cbcfg b d → (∀ g ∈ k.unlanded, ∀ e, g.what ≠ .cbcfg b e) →
      j.cbReg b = { d with gen := (k.cbReg b).gen / 2 * 2 + 2 } ∧ t.mem = s.mem ∧ j.s = k.s ∧ ∀ n, n ≠ b → j.cbReg n = k.cbReg n) ∧
    (∀ o d, f.what = .bytes o d → k.scratch.wf = true → t.mem = s.mem ∧ (∀ i, i < d.length → j.scratch.byte (o + i) = d.getD i 0) ∧
      ∀ a, a < o ∨ o + d.length ≤ a → j.scratch.byte a = k.scratch.byte a) ∧
    -- tables
    (∀ n ws, f.what = .table n ws → (∀ i, i < ws.length → mget 0 (j.table n).coeffs i = ws.getD i 0) ∧ (j.table n).lo = (k.table n).lo ∧ (j.table n).q = (k.table n).q ∧
      (∀ m, m ≠ n → j.table m = k.table m) ∧ t.mem = s.mem) ∧
    (∀ n lo q lm um x, f.what = .tcfg n lo q lm um x → j.table n = { k.table n with lo := lo, q := q, lmode := lm, umode := um, k := x } ∧
      (∀ m, m ≠ n → j.table m = k.table m) ∧ t.mem = s.mem) ∧
    (∀ n a rest got, f.what = .tread n (a :: rest) got → j.scratch = k.scratch ∧ t.mem = s.mem ∧ ∃ g, j.flights = k.flights ++ [g] ∧
      g.what = (if rest = [] then .table n (got ++ wordsOf (k.gatedView.scratchRead a 256)) else .tread n rest (got ++ wordsOf (k.gatedView.scratchRead a 256)))) ∧
    -- handles
    (∀ h va kind, f.what = .xlat h va kind → let y : Handle := mget {} k.h h
      mget {} j.h h = ({ state := 1, vbase := BitVec.ofNat 57 va, ronly := kind, gen := y.gen + 1 } : Handle) ∧ t.mem = s.mem ∧
      j.flights = k.flights ++ [{ f with due := k.slotCycle + 31, what := .handle h (y.gen + 1).toNat }]) ∧
    (∀ h, f.what = .hinv h → let y : Handle := mget {} k.h h
      mget {} j.h h = { y with state := 0, gen := y.gen + 1 } ∧ t.mem = s.mem) ∧
    (∀ h, f.what = .handle h (mget {} k.h h : Handle).gen.toNat → let y : Handle := mget {} k.h h
      let x := s.ctxAt c
      let va := y.vbase.toNat
      let cached := k.xcache.any (fun (z, b, n) => z == x && decide (b ≤ va) && decide (va < b + n))
      (y.state ≠ 1 → t = s0) ∧ (y.state = 1 → cached = false → t = s0.pendOnce .xlatComplete { unit := c, idx := h, aux := y.gen.toNat }) ∧
      (y.state = 1 → cached = true → s.unpulled x va (s.rootOf c) = false →
        (∀ e, s.walk x va (s.rootOf c) = .error e → mget {} j.h h = { y with state := 3, cause := e }) ∧
        (∀ l, s.walk x va (s.rootOf c) = .ok l → l.cache ≠ 2 → mget {} j.h h =
          { y with state := 2, pbase := l.pa va, limit := l.bytes - va % l.bytes, leaf := BitVec.ofNat 48 l.hi, size := BitVec.ofNat 4 l.size, cause := 0 } ∧ t.mem = s.mem))) ∧
    -- stores that leave for their homes
    (∀ r, f.what = .post r → t = (s0.send r).2 ∧ t.mem = s.mem ∧ ∃ y ∈ t.fabric, y.id = s.nextReq ∧ y.op = r.op ∧ y.pa = r.pa ∧ y.data = r.data ∧ y.mask = r.mask) ∧
    (∀ r, f.what = .through r → t.mem = s.mem ∧ j.mark.gated.length = k.mark.gated.length ∧ ∃ y ∈ t.fabric, y.id = s.nextReq ∧ y.op = r.op ∧ y.pa = r.pa ∧ y.data = r.data) ∧
    -- the management core's spaces
    (∀ off v, f.what = .mgmt true off v → t = hubWrite s0 off v) ∧ (∀ off v, f.what = .mgmt false off v → t = mgmtWrite s0 off v) ∧
    (∀ off r, k.mark.gated = [] → r ≠ 0 → (f.what = .mgmtLoad true off r → j.rs r = hubRead s0 off ∧ t.mem = s.mem) ∧
      (f.what = .mgmtLoad false off r → j.rs r = mgmtRead s0 off ∧ t.mem = s.mem))) ∧
  ∀ (s : State) (c off seq : Nat) (bs : List Byte), let k := s.core c
    let t := performStore s c seq { off := some off, data := bs, req := none }
    t.mem = s.mem ∧ (t.core c).s = k.s ∧
    (k.mark.armed = false → k.scratch.wf = true →
      (∀ a, off ≤ a → a < off + bs.length → (t.core c).scratch.byte a = bs.getD (a - off) 0) ∧
      (∀ a, a < off ∨ off + bs.length ≤ a → (t.core c).scratch.byte a = k.scratch.byte a) ∧ (t.core c).scratch.wf = true) ∧
    (k.mark.armed = true → k.svc = false → k.mark.seq ≤ seq → k.mark.commit ≤ seq → k.mark.gated.length < 64 →
      (t.core c).scratch = k.scratch ∧ (t.core c).mark.gated = k.mark.gated ++ [{ off := some off, data := bs, req := none }])

/-- R202, R217: memory as the homes write it. A write is read back, every byte outside it reads as before, and a written granule is no
longer poisoned. That unwritten memory reads 0 is the model's choice (log entry 4). -/
def Obligations.MemoryReadAfterWrite : Prop :=
  ∀ (s : State) (part pa : Nat) (bs : List Byte), s.Inv →
    let t := s.physWrite part pa bs
    t.Inv ∧ t.mem.read pa bs.length = bs ∧ (∀ a, a < pa ∨ pa + bs.length ≤ a → t.mem.byte a = s.mem.byte a) ∧
    (∀ a n, t.mem.read a n = (List.range n).map (fun i => t.mem.byte (a + i))) ∧
    (∀ g, pa ≤ 64 * g → 64 * g + 64 ≤ pa + bs.length → shas t.poison g = false) ∧
    (∀ g, 64 * g < pa ∨ pa + bs.length < 64 * g + 64 → shas t.poison g = shas s.poison g)

/-- A step runs the decoded instruction. A pending event that is chosen is executed with its operands; a core's turn is a cycle of the
core, and a bank unit's turn runs the move that its program's words decode to; the syllables that a legal bundle's dispatch queues are
what the decoder reads from its words; a slot's issue runs exec of its operation at the state with that issue's slot, bundle and clock
in now, and advances the slot. The turns, the pending events and the free choice between them are the model's (log entry 1). -/
def Obligations.StepRunsDecodedInstruction : Prop :=
  (∀ (s : State) (p : Pending), s.pending[s.chosen]? = some p →
    step s = exec p.event { s with free := s.free + 1, choice := s.choice + 1, pending := s.pending.eraseIdx s.chosen, ev := p.args, now := {} }) ∧
  (∀ (s : State) (c : Nat) (rest : List Agent), s.pending = [] → s.agenda = .core c :: rest →
    step s = .next (coreCycle { s with free := s.free + 1, agenda := rest } c)) ∧
  (∀ (s : State) (ch : Nat) (rest : List Agent) (r : MoveRun) (w : BitVec 16) (op : Instr), s.pending = [] → s.agenda = .bank ch :: rest →
    (s.bank ch).runs.head? = some r → (s.bank ch).prog[r.pc]? = some w →
    decodeMove w.toNat ((s.bank ch).prog.getD (r.pc + 1) 0).toNat = some op →
    step s = exec op { s with free := s.free + 1, agenda := rest, ev := { unit := ch }, now := {} }) ∧
  (∀ mgmt svc safe cb re sg adr (b : Bundle) syls, checkBundle mgmt svc safe cb re sg adr b = .ok syls →
    ∀ slot w ext i, (slot, w, ext) ∈ b.syls → decodeSyllable slot w ext = .ok i → (slot, i) ∈ syls) ∧
  (∀ (i : Instr) (s : State), encode i ≠ .none → issueOp i s = exec i s) ∧
  (∀ (s : State) (start : Core) (n : Nat) (q : Issue) (op : Instr) (install : Bool), let k := s.me
    let sl := k.slot n
    k.issueAt n = some q → start.heldBack n q = false → q.operation n sl = some (op, install) → encode op ≠ .none →
    let sl1 := sl.after k n op install
    let s1 : State := ({ s with now := { slot := n, adr := q.adr, fall := q.fall, idx := q.idx, seq := q.ord * 8 + n, install := install, last := q.last, safe := q.safe, skip := k.skipSlots.contains n, clk := sl.clk, a0 := sl1.a0, k := sl1.k } } : State).setMe
      { k.setSlot n sl1 with skipSlots := k.skipSlots.filter (· != n) }
    sl1.clk = sl.clk + 1 ∧ sl1.next = sl.next + 1 ∧
    ∀ t, exec op s1 = .next t → t.now.stalled = false → t.now.raised.isSome = false →
      issueSlot s start n = t.modCore s.cur (fun y => y.modSlot n (fun z => if z.next == sl1.next then { z with waiting := none, reply := none } else z)))

/-- R44, R72, R75: words written out from the encodings of the spec decode to their instructions. -/
def Obligations.DecodeWords : Prop :=
  decodeSyllable 0 0x420113B1 0 = .ok (.cmplt 0 1 0 4 (.imm (-5))) ∧
  decodeSyllable 0 0x43832401 0x3E8 = .ok (.cmple 0 3 0 9 (.ext 1000)) ∧
  decodeSyllable 1 0x50042900 0 = .ok (.pand 0 4 1 2 false true) ∧
  decodeSyllable 0 0x6300A30E 0 = .ok (.bext 0 5 6 7) ∧
  decodeSyllable 7 0x011FFFF4 0 = .ok (.b 3 (-12)) ∧
  decodeSyllable 1 0x78000010 0 = .error 2

/-- R40 to R55, R320 to R322: decode and encode agree. The words of every well-formed instruction decode, in each of its slots, to the
instruction with every operand; a move's words decode to the move. -/
def Obligations.EncodeDecodeRoundTrip : Prop :=
  ∀ (i : Instr), WellFormed i = true →
    match encode i with
    | .syllable sp r => r.word < 2 ^ 32 ∧ r.ext < 2 ^ 32 ∧ ∀ slot, slot < 8 → Space.ofSlot slot = sp →
        (slot = 1 → ∀ g s n, i ≠ .sysr g s n ∧ i ≠ .sysw g s n ∧ i ≠ .sysx g s n) → decodeSyllable slot r.word r.ext = .ok i
    | .move w next => w < 2 ^ 16 ∧ decodeMove w (match next with | some v => v.toNat | none => 0) = some i
    | .none => True
end

