-- ==== Sys2Proof/Laws/Encoding.lean ====
section
/-! SUPPORT. The fields of the operand bits that each format packs (spec/03 R44), as the decoder reads them back, and the
acceptance of a well-formed instruction. -/

set_option Elab.async false

namespace Sys2Proof.Laws
open Sys2Proof

theorem lowestCause_none (bits : List (Bool × Nat)) : lowestCause bits = none ↔ ∀ p ∈ bits, p.1 = false := by
  induction bits with
  | nil => simp [lowestCause]
  | cons p rest ih =>
    obtain ⟨c, n⟩ := p
    cases c <;> simp only [lowestCause]
    · simp [ih]
    · cases h : lowestCause rest <;> simp

/-- A decoder arm whose bit conditions are all false gives a well-formed instruction back. -/
theorem accept_ok {bits : List (Bool × Nat)} {i i' : Instr} (hw : WellFormed i = true) (hi : i' = i)
    (hb : ∀ p ∈ bits, p.1 = false) : accept bits i' = .ok i := by
  subst hi
  have hl : lowestCause (limitsOf i') = none := by simpa [WellFormed] using hw
  have : lowestCause (bits ++ limitsOf i') = none := by
    rw [lowestCause_none] at *
    intro p hp
    rcases List.mem_append.mp hp with h | h
    · exact hb p h
    · exact hl p h
  simp [accept, this]

/-- A limit of a well-formed instruction does not hold. -/
theorem wf_limit {i : Instr} (hw : WellFormed i = true) (p : Bool × Nat) (hp : p ∈ limitsOf i) : p.1 = false := by
  have hl : lowestCause (limitsOf i) = none := by simpa [WellFormed] using hw
  exact (lowestCause_none _).mp hl p hp

/-! Every reader of operand bits, by the number it reads. -/

theorem raw_f (r : Raw) (n lo : Nat) : r.f n lo = BitVec.ofNat n (r.n n lo) := by
  apply BitVec.eq_of_toNat_eq; simp [Raw.f, Raw.n]
theorem raw_nz (r : Raw) (n lo : Nat) : r.nz n lo = (r.n n lo != 0) := rfl
theorem raw_b (r : Raw) (lo : Nat) : r.b lo = (r.n 1 lo == 1) := by simp [Raw.b, Raw.n]
theorem raw_e (r : Raw) (n lo : Nat) : r.e n lo = BitVec.ofNat n (r.extN n lo) := by
  apply BitVec.eq_of_toNat_eq; simp [Raw.e, Raw.extN]
@[simp] theorem syllable_x (op : Nat) (g : BitVec 4) (n : Nat) (e : Option W32) : (syllable op g n e).x = e.isSome := rfl
@[simp] theorem syllable_g (op : Nat) (g : BitVec 4) (n : Nat) (e : Option W32) : (syllable op g n e).g = g := rfl
@[simp] theorem syllable_ops (op : Nat) (g : BitVec 4) (n : Nat) (e : Option W32) : (syllable op g n e).ops = n := rfl
theorem syllable_ext_lt (op : Nat) (g : BitVec 4) (n : Nat) (e : Option W32) : (syllable op g n e).ext < 4294967296 := by
  cases e with
  | none => exact Nat.zero_lt_succ _
  | some w => exact w.isLt
theorem syllable_ext_zero (op : Nat) (g : BitVec 4) (n : Nat) (e : Option W32) (h : (syllable op g n e).x = false) : (syllable op g n e).ext = 0 := by
  cases e with
  | none => rfl
  | some w => simp at h
@[simp] theorem extN_32 (op : Nat) (g : BitVec 4) (n : Nat) (w : W32) : Raw.extN (syllable op g n (some w)) 32 0 = w.toNat := by
  have := w.isLt; simp only [Raw.extN, syllable]; omega
theorem extOpt_eq (op : Nat) (g : BitVec 4) (n : Nat) (e : Option W32) : Raw.extOpt (syllable op g n e) = e := by
  cases e <;> simp [Raw.extOpt, raw_e]

/-! The codes of the small types. -/

@[simp] theorem fmt_code_lt (f : Fmt) : f.code < 16 := by cases f <;> decide
@[simp] theorem fmt_code_le (f : Fmt) : f.code ≤ 9 := by cases f <;> decide
@[simp] theorem fmt_code_gt (f : Fmt) : (9 < f.code) = False := by cases f <;> simp [Fmt.code]
@[simp] theorem fmt_ofCode (f : Fmt) : Fmt.ofCode f.code = f := by cases f <;> rfl
@[simp] theorem rnd_code_lt (f : Rnd) : f.code < 8 := by cases f <;> decide
@[simp] theorem rnd_code_gt (f : Rnd) : (4 < f.code) = False := by cases f <;> simp [Rnd.code]
@[simp] theorem rnd_ofCode (f : Rnd) : Rnd.ofCode f.code = f := by cases f <;> rfl
@[simp] theorem scope_code_lt (w : Scope) : w.code < 4 := by cases w <;> decide
@[simp] theorem scope_ofCode (w : Scope) : Scope.ofCode w.code = w := by cases w <;> rfl
@[simp] theorem tail_code_lt (m : TailMode) : m.code < 4 := by cases m <;> decide
@[simp] theorem tail_ofCode (m : TailMode) : TailMode.ofCode m.code = m := by cases m <;> rfl
@[simp] theorem rowStep_code_lt (m : RowStep) : m.code < 4 := by cases m <;> decide
@[simp] theorem rowStep_code_ne (m : RowStep) : (m.code = 3) = False := by cases m <;> simp [RowStep.code]
@[simp] theorem rowStep_ofCode (m : RowStep) : RowStep.ofCode m.code = m := by cases m <;> rfl
@[simp] theorem tlSel_code_lt (m : TlSel) : m.code < 8 := by cases m <;> decide
@[simp] theorem tlSel_ofCode (m : TlSel) : TlSel.ofCode m.code = m := by cases m <;> rfl
@[simp] theorem step_code_lt (t : Step) : t.code < 8 := by cases t <;> simp [Step.code]

/-! The extension word of a VR syllable (R47). -/

theorem vext_toNat (e : VExt) : e.word.toNat = e.rnd.code * 536870912 + e.c.toNat * 16777216 + e.sf.code * 1048576 + e.imm.toNat := by
  have := fmt_code_lt e.sf; have := rnd_code_lt e.rnd; have := e.c.isLt; have := e.imm.isLt
  simp only [VExt.word, BitVec.toNat_ofNat]; omega
@[simp] theorem vext_sf (op : Nat) (g : BitVec 4) (ops : Nat) (e : VExt) : Raw.extN (syllable op g ops (some e.word)) 4 20 = e.sf.code := by
  have := fmt_code_lt e.sf; have := rnd_code_lt e.rnd; have := e.c.isLt; have := e.imm.isLt
  simp only [Raw.extN, syllable, vext_toNat]; omega
@[simp] theorem vext_rnd (op : Nat) (g : BitVec 4) (ops : Nat) (e : VExt) : Raw.extN (syllable op g ops (some e.word)) 3 29 = e.rnd.code := by
  have := fmt_code_lt e.sf; have := rnd_code_lt e.rnd; have := e.c.isLt; have := e.imm.isLt
  simp only [Raw.extN, syllable, vext_toNat]; omega
@[simp] theorem vext_c (op : Nat) (g : BitVec 4) (ops : Nat) (e : VExt) : Raw.extN (syllable op g ops (some e.word)) 5 24 = e.c.toNat := by
  have := fmt_code_lt e.sf; have := rnd_code_lt e.rnd; have := e.c.isLt; have := e.imm.isLt
  simp only [Raw.extN, syllable, vext_toNat]; omega
@[simp] theorem vext_imm (op : Nat) (g : BitVec 4) (ops : Nat) (e : VExt) : Raw.extN (syllable op g ops (some e.word)) 20 0 = e.imm.toNat := by
  have := fmt_code_lt e.sf; have := rnd_code_lt e.rnd; have := e.c.isLt; have := e.imm.isLt
  simp only [Raw.extN, syllable, vext_toNat]; omega

theorem vext_eq (op : Nat) (g : BitVec 4) (n : Nat) (x : Option VExt) : Raw.vext (syllable op g n (VExt.wordOpt x)) = x := by
  cases x <;> simp [Raw.vext, VExt.wordOpt, raw_e]
theorem vext_condF (op : Nat) (g : BitVec 4) (n : Nat) (x : Option VExt) :
    ((VExt.wordOpt x).isSome && decide (9 < (syllable op g n (VExt.wordOpt x)).extN 4 20)) = false := by
  cases x <;> simp [VExt.wordOpt]
theorem vext_condR (op : Nat) (g : BitVec 4) (n : Nat) (x : Option VExt) :
    ((VExt.wordOpt x).isSome && decide (4 < (syllable op g n (VExt.wordOpt x)).extN 3 29)) = false := by
  cases x <;> simp [VExt.wordOpt]
theorem vext_condS {x : Option VExt} (h : sfClear x = true) (op : Nat) (g : BitVec 4) (n : Nat) :
    ((VExt.wordOpt x).isSome && (syllable op g n (VExt.wordOpt x)).extN 4 20 != 0) = false := by
  cases x with
  | none => simp [VExt.wordOpt]
  | some e =>
    have he : e.sf = .f32 := by simpa [sfClear] using h
    simp [VExt.wordOpt, he, Fmt.code]
theorem vext_condZ {x : Option VExt} (h : rndOf x = .rne) (op : Nat) (g : BitVec 4) (n : Nat) :
    ((VExt.wordOpt x).isSome && (syllable op g n (VExt.wordOpt x)).extN 3 29 != 0) = false := by
  cases x with
  | none => simp [VExt.wordOpt]
  | some e =>
    have he : e.rnd = .rne := by simpa [rndOf] using h
    simp [VExt.wordOpt, he, Rnd.code]

/-! The operand bits of each format. -/

@[simp] theorem n_packSR_13_0 (op : Nat) (rg : BitVec 4) (rw : Option W32) (d a b k : Nat) (_ : d < 64) (_ : a < 64) (_ : b < 64) (_ : k < 2) :
    Raw.n (syllable op rg (packSR d a b k) rw) 13 0 = a * 128 + b * 2 + k := by
  simp only [Raw.n, syllable, packSR]; omega

@[simp] theorem n_packSR_7_0 (op : Nat) (rg : BitVec 4) (rw : Option W32) (d a b k : Nat) (_ : d < 64) (_ : a < 64) (_ : b < 64) (_ : k < 2) :
    Raw.n (syllable op rg (packSR d a b k) rw) 7 0 = b * 2 + k := by
  simp only [Raw.n, syllable, packSR]; omega

@[simp] theorem n_packSR_6_13 (op : Nat) (rg : BitVec 4) (rw : Option W32) (d a b k : Nat) (_ : d < 64) (_ : a < 64) (_ : b < 64) (_ : k < 2) :
    Raw.n (syllable op rg (packSR d a b k) rw) 6 13 = d := by
  simp only [Raw.n, syllable, packSR]; omega

@[simp] theorem n_packSR_6_7 (op : Nat) (rg : BitVec 4) (rw : Option W32) (d a b k : Nat) (_ : d < 64) (_ : a < 64) (_ : b < 64) (_ : k < 2) :
    Raw.n (syllable op rg (packSR d a b k) rw) 6 7 = a := by
  simp only [Raw.n, syllable, packSR]; omega

@[simp] theorem n_packSR_6_1 (op : Nat) (rg : BitVec 4) (rw : Option W32) (d a b k : Nat) (_ : d < 64) (_ : a < 64) (_ : b < 64) (_ : k < 2) :
    Raw.n (syllable op rg (packSR d a b k) rw) 6 1 = b := by
  simp only [Raw.n, syllable, packSR]; omega

@[simp] theorem n_packSR_1_0 (op : Nat) (rg : BitVec 4) (rw : Option W32) (d a b k : Nat) (_ : d < 64) (_ : a < 64) (_ : b < 64) (_ : k < 2) :
    Raw.n (syllable op rg (packSR d a b k) rw) 1 0 = k := by
  simp only [Raw.n, syllable, packSR]; omega

@[simp] theorem packSR_lt (d a b k : Nat) (_ : d < 64) (_ : a < 64) (_ : b < 64) (_ : k < 2) : packSR d a b k < 524288 := by
  simp only [packSR]; omega

@[simp] theorem n_packSI_13_0 (op : Nat) (rg : BitVec 4) (rw : Option W32) (d a i : Nat) (_ : d < 64) (_ : a < 64) (_ : i < 128) :
    Raw.n (syllable op rg (packSI d a i) rw) 13 0 = a * 128 + i := by
  simp only [Raw.n, syllable, packSI]; omega

@[simp] theorem n_packSI_7_0 (op : Nat) (rg : BitVec 4) (rw : Option W32) (d a i : Nat) (_ : d < 64) (_ : a < 64) (_ : i < 128) :
    Raw.n (syllable op rg (packSI d a i) rw) 7 0 = i := by
  simp only [Raw.n, syllable, packSI]; omega

@[simp] theorem n_packSI_6_13 (op : Nat) (rg : BitVec 4) (rw : Option W32) (d a i : Nat) (_ : d < 64) (_ : a < 64) (_ : i < 128) :
    Raw.n (syllable op rg (packSI d a i) rw) 6 13 = d := by
  simp only [Raw.n, syllable, packSI]; omega

@[simp] theorem n_packSI_6_7 (op : Nat) (rg : BitVec 4) (rw : Option W32) (d a i : Nat) (_ : d < 64) (_ : a < 64) (_ : i < 128) :
    Raw.n (syllable op rg (packSI d a i) rw) 6 7 = a := by
  simp only [Raw.n, syllable, packSI]; omega

@[simp] theorem n_packSI_6_1 (op : Nat) (rg : BitVec 4) (rw : Option W32) (d a i : Nat) (_ : d < 64) (_ : a < 64) (_ : i < 128) :
    Raw.n (syllable op rg (packSI d a i) rw) 6 1 = i / 2 := by
  simp only [Raw.n, syllable, packSI]; omega

@[simp] theorem n_packSI_5_2 (op : Nat) (rg : BitVec 4) (rw : Option W32) (d a i : Nat) (_ : d < 64) (_ : a < 64) (_ : i < 128) :
    Raw.n (syllable op rg (packSI d a i) rw) 5 2 = i / 4 := by
  simp only [Raw.n, syllable, packSI]; omega

@[simp] theorem n_packSI_4_13 (op : Nat) (rg : BitVec 4) (rw : Option W32) (d a i : Nat) (_ : d < 64) (_ : a < 64) (_ : i < 128) :
    Raw.n (syllable op rg (packSI d a i) rw) 4 13 = d % 16 := by
  simp only [Raw.n, syllable, packSI]; omega

@[simp] theorem n_packSI_4_7 (op : Nat) (rg : BitVec 4) (rw : Option W32) (d a i : Nat) (_ : d < 64) (_ : a < 64) (_ : i < 128) :
    Raw.n (syllable op rg (packSI d a i) rw) 4 7 = a % 16 := by
  simp only [Raw.n, syllable, packSI]; omega

@[simp] theorem n_packSI_2_17 (op : Nat) (rg : BitVec 4) (rw : Option W32) (d a i : Nat) (_ : d < 64) (_ : a < 64) (_ : i < 128) :
    Raw.n (syllable op rg (packSI d a i) rw) 2 17 = d / 16 := by
  simp only [Raw.n, syllable, packSI]; omega

@[simp] theorem n_packSI_2_11 (op : Nat) (rg : BitVec 4) (rw : Option W32) (d a i : Nat) (_ : d < 64) (_ : a < 64) (_ : i < 128) :
    Raw.n (syllable op rg (packSI d a i) rw) 2 11 = a / 16 := by
  simp only [Raw.n, syllable, packSI]; omega

@[simp] theorem n_packSI_2_0 (op : Nat) (rg : BitVec 4) (rw : Option W32) (d a i : Nat) (_ : d < 64) (_ : a < 64) (_ : i < 128) :
    Raw.n (syllable op rg (packSI d a i) rw) 2 0 = i % 4 := by
  simp only [Raw.n, syllable, packSI]; omega

@[simp] theorem n_packSI_1_0 (op : Nat) (rg : BitVec 4) (rw : Option W32) (d a i : Nat) (_ : d < 64) (_ : a < 64) (_ : i < 128) :
    Raw.n (syllable op rg (packSI d a i) rw) 1 0 = i % 2 := by
  simp only [Raw.n, syllable, packSI]; omega

@[simp] theorem packSI_lt (d a i : Nat) (_ : d < 64) (_ : a < 64) (_ : i < 128) : packSI d a i < 524288 := by
  simp only [packSI]; omega

@[simp] theorem n_packPC_6_10 (op : Nat) (rg : BitVec 4) (rw : Option W32) (q a b q2 k : Nat) (_ : q < 8) (_ : a < 64) (_ : b < 64) (_ : q2 < 8) (_ : k < 2) :
    Raw.n (syllable op rg (packPC q a b q2 k) rw) 6 10 = a := by
  simp only [Raw.n, syllable, packPC]; omega

@[simp] theorem n_packPC_6_4 (op : Nat) (rg : BitVec 4) (rw : Option W32) (q a b q2 k : Nat) (_ : q < 8) (_ : a < 64) (_ : b < 64) (_ : q2 < 8) (_ : k < 2) :
    Raw.n (syllable op rg (packPC q a b q2 k) rw) 6 4 = b := by
  simp only [Raw.n, syllable, packPC]; omega

@[simp] theorem n_packPC_3_16 (op : Nat) (rg : BitVec 4) (rw : Option W32) (q a b q2 k : Nat) (_ : q < 8) (_ : a < 64) (_ : b < 64) (_ : q2 < 8) (_ : k < 2) :
    Raw.n (syllable op rg (packPC q a b q2 k) rw) 3 16 = q := by
  simp only [Raw.n, syllable, packPC]; omega

@[simp] theorem n_packPC_3_1 (op : Nat) (rg : BitVec 4) (rw : Option W32) (q a b q2 k : Nat) (_ : q < 8) (_ : a < 64) (_ : b < 64) (_ : q2 < 8) (_ : k < 2) :
    Raw.n (syllable op rg (packPC q a b q2 k) rw) 3 1 = q2 := by
  simp only [Raw.n, syllable, packPC]; omega

@[simp] theorem n_packPC_1_0 (op : Nat) (rg : BitVec 4) (rw : Option W32) (q a b q2 k : Nat) (_ : q < 8) (_ : a < 64) (_ : b < 64) (_ : q2 < 8) (_ : k < 2) :
    Raw.n (syllable op rg (packPC q a b q2 k) rw) 1 0 = k := by
  simp only [Raw.n, syllable, packPC]; omega

@[simp] theorem packPC_lt (q a b q2 k : Nat) (_ : q < 8) (_ : a < 64) (_ : b < 64) (_ : q2 < 8) (_ : k < 2) : packPC q a b q2 k < 524288 := by
  simp only [packPC]; omega

@[simp] theorem n_packPL_9_0 (op : Nat) (rg : BitVec 4) (rw : Option W32) (q pa pb na nb : Nat) (_ : q < 8) (_ : pa < 8) (_ : pb < 8) (_ : na < 2) (_ : nb < 2) :
    Raw.n (syllable op rg (packPL q pa pb na nb) rw) 9 0 = nb * 256 := by
  simp only [Raw.n, syllable, packPL]; omega

@[simp] theorem n_packPL_8_0 (op : Nat) (rg : BitVec 4) (rw : Option W32) (q pa pb na nb : Nat) (_ : q < 8) (_ : pa < 8) (_ : pb < 8) (_ : na < 2) (_ : nb < 2) :
    Raw.n (syllable op rg (packPL q pa pb na nb) rw) 8 0 = 0 := by
  simp only [Raw.n, syllable, packPL]; omega

@[simp] theorem n_packPL_3_16 (op : Nat) (rg : BitVec 4) (rw : Option W32) (q pa pb na nb : Nat) (_ : q < 8) (_ : pa < 8) (_ : pb < 8) (_ : na < 2) (_ : nb < 2) :
    Raw.n (syllable op rg (packPL q pa pb na nb) rw) 3 16 = q := by
  simp only [Raw.n, syllable, packPL]; omega

@[simp] theorem n_packPL_3_13 (op : Nat) (rg : BitVec 4) (rw : Option W32) (q pa pb na nb : Nat) (_ : q < 8) (_ : pa < 8) (_ : pb < 8) (_ : na < 2) (_ : nb < 2) :
    Raw.n (syllable op rg (packPL q pa pb na nb) rw) 3 13 = pa := by
  simp only [Raw.n, syllable, packPL]; omega

@[simp] theorem n_packPL_3_10 (op : Nat) (rg : BitVec 4) (rw : Option W32) (q pa pb na nb : Nat) (_ : q < 8) (_ : pa < 8) (_ : pb < 8) (_ : na < 2) (_ : nb < 2) :
    Raw.n (syllable op rg (packPL q pa pb na nb) rw) 3 10 = pb := by
  simp only [Raw.n, syllable, packPL]; omega

@[simp] theorem n_packPL_1_9 (op : Nat) (rg : BitVec 4) (rw : Option W32) (q pa pb na nb : Nat) (_ : q < 8) (_ : pa < 8) (_ : pb < 8) (_ : na < 2) (_ : nb < 2) :
    Raw.n (syllable op rg (packPL q pa pb na nb) rw) 1 9 = na := by
  simp only [Raw.n, syllable, packPL]; omega

@[simp] theorem n_packPL_1_8 (op : Nat) (rg : BitVec 4) (rw : Option W32) (q pa pb na nb : Nat) (_ : q < 8) (_ : pa < 8) (_ : pb < 8) (_ : na < 2) (_ : nb < 2) :
    Raw.n (syllable op rg (packPL q pa pb na nb) rw) 1 8 = nb := by
  simp only [Raw.n, syllable, packPL]; omega

@[simp] theorem packPL_lt (q pa pb na nb : Nat) (_ : q < 8) (_ : pa < 8) (_ : pb < 8) (_ : na < 2) (_ : nb < 2) : packPL q pa pb na nb < 524288 := by
  simp only [packPL]; omega

@[simp] theorem n_packLP_11_0 (op : Nat) (rg : BitVec 4) (rw : Option W32) (l c e : Nat) (_ : l < 4) (_ : c < 64) (_ : e < 2048) :
    Raw.n (syllable op rg (packLP l c e) rw) 11 0 = e := by
  simp only [Raw.n, syllable, packLP]; omega

@[simp] theorem n_packLP_6_11 (op : Nat) (rg : BitVec 4) (rw : Option W32) (l c e : Nat) (_ : l < 4) (_ : c < 64) (_ : e < 2048) :
    Raw.n (syllable op rg (packLP l c e) rw) 6 11 = c := by
  simp only [Raw.n, syllable, packLP]; omega

@[simp] theorem n_packLP_2_17 (op : Nat) (rg : BitVec 4) (rw : Option W32) (l c e : Nat) (_ : l < 4) (_ : c < 64) (_ : e < 2048) :
    Raw.n (syllable op rg (packLP l c e) rw) 2 17 = l := by
  simp only [Raw.n, syllable, packLP]; omega

@[simp] theorem packLP_lt (l c e : Nat) (_ : l < 4) (_ : c < 64) (_ : e < 2048) : packLP l c e < 524288 := by
  simp only [packLP]; omega

@[simp] theorem n_packME_6_13 (op : Nat) (rg : BitVec 4) (rw : Option W32) (d h o t : Nat) (_ : d < 64) (_ : h < 16) (_ : o < 64) (_ : t < 8) :
    Raw.n (syllable op rg (packME d h o t) rw) 6 13 = d := by
  simp only [Raw.n, syllable, packME]; omega

@[simp] theorem n_packME_6_3 (op : Nat) (rg : BitVec 4) (rw : Option W32) (d h o t : Nat) (_ : d < 64) (_ : h < 16) (_ : o < 64) (_ : t < 8) :
    Raw.n (syllable op rg (packME d h o t) rw) 6 3 = o := by
  simp only [Raw.n, syllable, packME]; omega

@[simp] theorem n_packME_5_13 (op : Nat) (rg : BitVec 4) (rw : Option W32) (d h o t : Nat) (_ : d < 64) (_ : h < 16) (_ : o < 64) (_ : t < 8) :
    Raw.n (syllable op rg (packME d h o t) rw) 5 13 = d % 32 := by
  simp only [Raw.n, syllable, packME]; omega

@[simp] theorem n_packME_5_3 (op : Nat) (rg : BitVec 4) (rw : Option W32) (d h o t : Nat) (_ : d < 64) (_ : h < 16) (_ : o < 64) (_ : t < 8) :
    Raw.n (syllable op rg (packME d h o t) rw) 5 3 = o % 32 := by
  simp only [Raw.n, syllable, packME]; omega

@[simp] theorem n_packME_4_9 (op : Nat) (rg : BitVec 4) (rw : Option W32) (d h o t : Nat) (_ : d < 64) (_ : h < 16) (_ : o < 64) (_ : t < 8) :
    Raw.n (syllable op rg (packME d h o t) rw) 4 9 = h := by
  simp only [Raw.n, syllable, packME]; omega

@[simp] theorem n_packME_3_0 (op : Nat) (rg : BitVec 4) (rw : Option W32) (d h o t : Nat) (_ : d < 64) (_ : h < 16) (_ : o < 64) (_ : t < 8) :
    Raw.n (syllable op rg (packME d h o t) rw) 3 0 = t := by
  simp only [Raw.n, syllable, packME]; omega

@[simp] theorem n_packME_1_18 (op : Nat) (rg : BitVec 4) (rw : Option W32) (d h o t : Nat) (_ : d < 64) (_ : h < 16) (_ : o < 64) (_ : t < 8) :
    Raw.n (syllable op rg (packME d h o t) rw) 1 18 = d / 32 := by
  simp only [Raw.n, syllable, packME]; omega

@[simp] theorem n_packME_1_8 (op : Nat) (rg : BitVec 4) (rw : Option W32) (d h o t : Nat) (_ : d < 64) (_ : h < 16) (_ : o < 64) (_ : t < 8) :
    Raw.n (syllable op rg (packME d h o t) rw) 1 8 = o / 32 := by
  simp only [Raw.n, syllable, packME]; omega

@[simp] theorem packME_lt (d h o t : Nat) (_ : d < 64) (_ : h < 16) (_ : o < 64) (_ : t < 8) : packME d h o t < 524288 := by
  simp only [packME]; omega

@[simp] theorem n_packAT_16_3 (op : Nat) (rg : BitVec 4) (rw : Option W32) (d h o w q : Nat) (_ : d < 64) (_ : h < 16) (_ : o < 64) (_ : w < 4) (_ : q < 2) :
    Raw.n (syllable op rg (packAT d h o w q) rw) 16 3 = d * 1024 + h * 64 + o := by
  simp only [Raw.n, syllable, packAT]; omega

@[simp] theorem n_packAT_6_13 (op : Nat) (rg : BitVec 4) (rw : Option W32) (d h o w q : Nat) (_ : d < 64) (_ : h < 16) (_ : o < 64) (_ : w < 4) (_ : q < 2) :
    Raw.n (syllable op rg (packAT d h o w q) rw) 6 13 = d := by
  simp only [Raw.n, syllable, packAT]; omega

@[simp] theorem n_packAT_6_3 (op : Nat) (rg : BitVec 4) (rw : Option W32) (d h o w q : Nat) (_ : d < 64) (_ : h < 16) (_ : o < 64) (_ : w < 4) (_ : q < 2) :
    Raw.n (syllable op rg (packAT d h o w q) rw) 6 3 = o := by
  simp only [Raw.n, syllable, packAT]; omega

@[simp] theorem n_packAT_5_14 (op : Nat) (rg : BitVec 4) (rw : Option W32) (d h o w q : Nat) (_ : d < 64) (_ : h < 16) (_ : o < 64) (_ : w < 4) (_ : q < 2) :
    Raw.n (syllable op rg (packAT d h o w q) rw) 5 14 = d / 2 := by
  simp only [Raw.n, syllable, packAT]; omega

@[simp] theorem n_packAT_4_9 (op : Nat) (rg : BitVec 4) (rw : Option W32) (d h o w q : Nat) (_ : d < 64) (_ : h < 16) (_ : o < 64) (_ : w < 4) (_ : q < 2) :
    Raw.n (syllable op rg (packAT d h o w q) rw) 4 9 = h := by
  simp only [Raw.n, syllable, packAT]; omega

@[simp] theorem n_packAT_2_1 (op : Nat) (rg : BitVec 4) (rw : Option W32) (d h o w q : Nat) (_ : d < 64) (_ : h < 16) (_ : o < 64) (_ : w < 4) (_ : q < 2) :
    Raw.n (syllable op rg (packAT d h o w q) rw) 2 1 = w := by
  simp only [Raw.n, syllable, packAT]; omega

@[simp] theorem n_packAT_1_13 (op : Nat) (rg : BitVec 4) (rw : Option W32) (d h o w q : Nat) (_ : d < 64) (_ : h < 16) (_ : o < 64) (_ : w < 4) (_ : q < 2) :
    Raw.n (syllable op rg (packAT d h o w q) rw) 1 13 = d % 2 := by
  simp only [Raw.n, syllable, packAT]; omega

@[simp] theorem n_packAT_1_0 (op : Nat) (rg : BitVec 4) (rw : Option W32) (d h o w q : Nat) (_ : d < 64) (_ : h < 16) (_ : o < 64) (_ : w < 4) (_ : q < 2) :
    Raw.n (syllable op rg (packAT d h o w q) rw) 1 0 = q := by
  simp only [Raw.n, syllable, packAT]; omega

@[simp] theorem packAT_lt (d h o w q : Nat) (_ : d < 64) (_ : h < 16) (_ : o < 64) (_ : w < 4) (_ : q < 2) : packAT d h o w q < 524288 := by
  simp only [packAT]; omega

@[simp] theorem n_packVR_14_0 (op : Nat) (rg : BitVec 4) (rw : Option W32) (d a b f : Nat) (_ : d < 32) (_ : a < 32) (_ : b < 32) (_ : f < 16) :
    Raw.n (syllable op rg (packVR d a b f) rw) 14 0 = a * 512 + b * 16 + f := by
  simp only [Raw.n, syllable, packVR]; omega

@[simp] theorem n_packVR_9_0 (op : Nat) (rg : BitVec 4) (rw : Option W32) (d a b f : Nat) (_ : d < 32) (_ : a < 32) (_ : b < 32) (_ : f < 16) :
    Raw.n (syllable op rg (packVR d a b f) rw) 9 0 = b * 16 + f := by
  simp only [Raw.n, syllable, packVR]; omega

@[simp] theorem n_packVR_5_14 (op : Nat) (rg : BitVec 4) (rw : Option W32) (d a b f : Nat) (_ : d < 32) (_ : a < 32) (_ : b < 32) (_ : f < 16) :
    Raw.n (syllable op rg (packVR d a b f) rw) 5 14 = d := by
  simp only [Raw.n, syllable, packVR]; omega

@[simp] theorem n_packVR_5_9 (op : Nat) (rg : BitVec 4) (rw : Option W32) (d a b f : Nat) (_ : d < 32) (_ : a < 32) (_ : b < 32) (_ : f < 16) :
    Raw.n (syllable op rg (packVR d a b f) rw) 5 9 = a := by
  simp only [Raw.n, syllable, packVR]; omega

@[simp] theorem n_packVR_5_4 (op : Nat) (rg : BitVec 4) (rw : Option W32) (d a b f : Nat) (_ : d < 32) (_ : a < 32) (_ : b < 32) (_ : f < 16) :
    Raw.n (syllable op rg (packVR d a b f) rw) 5 4 = b := by
  simp only [Raw.n, syllable, packVR]; omega

@[simp] theorem n_packVR_4_0 (op : Nat) (rg : BitVec 4) (rw : Option W32) (d a b f : Nat) (_ : d < 32) (_ : a < 32) (_ : b < 32) (_ : f < 16) :
    Raw.n (syllable op rg (packVR d a b f) rw) 4 0 = f := by
  simp only [Raw.n, syllable, packVR]; omega

@[simp] theorem n_packVR_3_16 (op : Nat) (rg : BitVec 4) (rw : Option W32) (d a b f : Nat) (_ : d < 32) (_ : a < 32) (_ : b < 32) (_ : f < 16) :
    Raw.n (syllable op rg (packVR d a b f) rw) 3 16 = d / 4 := by
  simp only [Raw.n, syllable, packVR]; omega

@[simp] theorem n_packVR_2_14 (op : Nat) (rg : BitVec 4) (rw : Option W32) (d a b f : Nat) (_ : d < 32) (_ : a < 32) (_ : b < 32) (_ : f < 16) :
    Raw.n (syllable op rg (packVR d a b f) rw) 2 14 = d % 4 := by
  simp only [Raw.n, syllable, packVR]; omega

@[simp] theorem n_packVR_2_6 (op : Nat) (rg : BitVec 4) (rw : Option W32) (d a b f : Nat) (_ : d < 32) (_ : a < 32) (_ : b < 32) (_ : f < 16) :
    Raw.n (syllable op rg (packVR d a b f) rw) 2 6 = b / 4 % 4 := by
  simp only [Raw.n, syllable, packVR]; omega

@[simp] theorem n_packVR_2_4 (op : Nat) (rg : BitVec 4) (rw : Option W32) (d a b f : Nat) (_ : d < 32) (_ : a < 32) (_ : b < 32) (_ : f < 16) :
    Raw.n (syllable op rg (packVR d a b f) rw) 2 4 = b % 4 := by
  simp only [Raw.n, syllable, packVR]; omega

@[simp] theorem n_packVR_1_8 (op : Nat) (rg : BitVec 4) (rw : Option W32) (d a b f : Nat) (_ : d < 32) (_ : a < 32) (_ : b < 32) (_ : f < 16) :
    Raw.n (syllable op rg (packVR d a b f) rw) 1 8 = b / 16 := by
  simp only [Raw.n, syllable, packVR]; omega

@[simp] theorem packVR_lt (d a b f : Nat) (_ : d < 32) (_ : a < 32) (_ : b < 32) (_ : f < 16) : packVR d a b f < 524288 := by
  simp only [packVR]; omega

@[simp] theorem n_packMB_11_0 (op : Nat) (rg : BitVec 4) (rw : Option W32) (m s y : Nat) (_ : m < 256) (_ : s < 2) (_ : y < 4) :
    Raw.n (syllable op rg (packMB m s y) rw) 11 0 = s * 1024 + y * 256 := by
  simp only [Raw.n, syllable, packMB]; omega

@[simp] theorem n_packMB_10_0 (op : Nat) (rg : BitVec 4) (rw : Option W32) (m s y : Nat) (_ : m < 256) (_ : s < 2) (_ : y < 4) :
    Raw.n (syllable op rg (packMB m s y) rw) 10 0 = y * 256 := by
  simp only [Raw.n, syllable, packMB]; omega

@[simp] theorem n_packMB_8_11 (op : Nat) (rg : BitVec 4) (rw : Option W32) (m s y : Nat) (_ : m < 256) (_ : s < 2) (_ : y < 4) :
    Raw.n (syllable op rg (packMB m s y) rw) 8 11 = m := by
  simp only [Raw.n, syllable, packMB]; omega

@[simp] theorem n_packMB_8_0 (op : Nat) (rg : BitVec 4) (rw : Option W32) (m s y : Nat) (_ : m < 256) (_ : s < 2) (_ : y < 4) :
    Raw.n (syllable op rg (packMB m s y) rw) 8 0 = 0 := by
  simp only [Raw.n, syllable, packMB]; omega

@[simp] theorem n_packMB_7_12 (op : Nat) (rg : BitVec 4) (rw : Option W32) (m s y : Nat) (_ : m < 256) (_ : s < 2) (_ : y < 4) :
    Raw.n (syllable op rg (packMB m s y) rw) 7 12 = m / 2 := by
  simp only [Raw.n, syllable, packMB]; omega

@[simp] theorem n_packMB_6_11 (op : Nat) (rg : BitVec 4) (rw : Option W32) (m s y : Nat) (_ : m < 256) (_ : s < 2) (_ : y < 4) :
    Raw.n (syllable op rg (packMB m s y) rw) 6 11 = m % 64 := by
  simp only [Raw.n, syllable, packMB]; omega

@[simp] theorem n_packMB_2_17 (op : Nat) (rg : BitVec 4) (rw : Option W32) (m s y : Nat) (_ : m < 256) (_ : s < 2) (_ : y < 4) :
    Raw.n (syllable op rg (packMB m s y) rw) 2 17 = m / 64 := by
  simp only [Raw.n, syllable, packMB]; omega

@[simp] theorem n_packMB_2_8 (op : Nat) (rg : BitVec 4) (rw : Option W32) (m s y : Nat) (_ : m < 256) (_ : s < 2) (_ : y < 4) :
    Raw.n (syllable op rg (packMB m s y) rw) 2 8 = y := by
  simp only [Raw.n, syllable, packMB]; omega

@[simp] theorem n_packMB_1_11 (op : Nat) (rg : BitVec 4) (rw : Option W32) (m s y : Nat) (_ : m < 256) (_ : s < 2) (_ : y < 4) :
    Raw.n (syllable op rg (packMB m s y) rw) 1 11 = m % 2 := by
  simp only [Raw.n, syllable, packMB]; omega

@[simp] theorem n_packMB_1_10 (op : Nat) (rg : BitVec 4) (rw : Option W32) (m s y : Nat) (_ : m < 256) (_ : s < 2) (_ : y < 4) :
    Raw.n (syllable op rg (packMB m s y) rw) 1 10 = s := by
  simp only [Raw.n, syllable, packMB]; omega

@[simp] theorem packMB_lt (m s y : Nat) (_ : m < 256) (_ : s < 2) (_ : y < 4) : packMB m s y < 524288 := by
  simp only [packMB]; omega

@[simp] theorem n_packMC_6_4 (op : Nat) (rg : BitVec 4) (rw : Option W32) (scb af acc : Nat) (_ : scb < 32) (_ : af < 16) (_ : acc < 64) :
    Raw.n (syllable op rg (packMC scb af acc) rw) 6 4 = acc := by
  simp only [Raw.n, syllable, packMC]; omega

@[simp] theorem n_packMC_5_14 (op : Nat) (rg : BitVec 4) (rw : Option W32) (scb af acc : Nat) (_ : scb < 32) (_ : af < 16) (_ : acc < 64) :
    Raw.n (syllable op rg (packMC scb af acc) rw) 5 14 = scb := by
  simp only [Raw.n, syllable, packMC]; omega

@[simp] theorem n_packMC_4_10 (op : Nat) (rg : BitVec 4) (rw : Option W32) (scb af acc : Nat) (_ : scb < 32) (_ : af < 16) (_ : acc < 64) :
    Raw.n (syllable op rg (packMC scb af acc) rw) 4 10 = af := by
  simp only [Raw.n, syllable, packMC]; omega

@[simp] theorem n_packMC_4_0 (op : Nat) (rg : BitVec 4) (rw : Option W32) (scb af acc : Nat) (_ : scb < 32) (_ : af < 16) (_ : acc < 64) :
    Raw.n (syllable op rg (packMC scb af acc) rw) 4 0 = 0 := by
  simp only [Raw.n, syllable, packMC]; omega

@[simp] theorem packMC_lt (scb af acc : Nat) (_ : scb < 32) (_ : af < 16) (_ : acc < 64) : packMC scb af acc < 524288 := by
  simp only [packMC]; omega

@[simp] theorem n_packTB_15_0 (op : Nat) (rg : BitVec 4) (rw : Option W32) (t h o k : Nat) (_ : t < 16) (_ : h < 16) (_ : o < 64) (_ : k < 32) :
    Raw.n (syllable op rg (packTB t h o k) rw) 15 0 = h * 2048 + o * 32 + k := by
  simp only [Raw.n, syllable, packTB]; omega

@[simp] theorem n_packTB_10_5 (op : Nat) (rg : BitVec 4) (rw : Option W32) (t h o k : Nat) (_ : t < 16) (_ : h < 16) (_ : o < 64) (_ : k < 32) :
    Raw.n (syllable op rg (packTB t h o k) rw) 10 5 = h * 64 + o := by
  simp only [Raw.n, syllable, packTB]; omega

@[simp] theorem n_packTB_6_5 (op : Nat) (rg : BitVec 4) (rw : Option W32) (t h o k : Nat) (_ : t < 16) (_ : h < 16) (_ : o < 64) (_ : k < 32) :
    Raw.n (syllable op rg (packTB t h o k) rw) 6 5 = o := by
  simp only [Raw.n, syllable, packTB]; omega

@[simp] theorem n_packTB_5_0 (op : Nat) (rg : BitVec 4) (rw : Option W32) (t h o k : Nat) (_ : t < 16) (_ : h < 16) (_ : o < 64) (_ : k < 32) :
    Raw.n (syllable op rg (packTB t h o k) rw) 5 0 = k := by
  simp only [Raw.n, syllable, packTB]; omega

@[simp] theorem n_packTB_4_15 (op : Nat) (rg : BitVec 4) (rw : Option W32) (t h o k : Nat) (_ : t < 16) (_ : h < 16) (_ : o < 64) (_ : k < 32) :
    Raw.n (syllable op rg (packTB t h o k) rw) 4 15 = t := by
  simp only [Raw.n, syllable, packTB]; omega

@[simp] theorem n_packTB_4_11 (op : Nat) (rg : BitVec 4) (rw : Option W32) (t h o k : Nat) (_ : t < 16) (_ : h < 16) (_ : o < 64) (_ : k < 32) :
    Raw.n (syllable op rg (packTB t h o k) rw) 4 11 = h := by
  simp only [Raw.n, syllable, packTB]; omega

@[simp] theorem n_packTB_4_1 (op : Nat) (rg : BitVec 4) (rw : Option W32) (t h o k : Nat) (_ : t < 16) (_ : h < 16) (_ : o < 64) (_ : k < 32) :
    Raw.n (syllable op rg (packTB t h o k) rw) 4 1 = k / 2 := by
  simp only [Raw.n, syllable, packTB]; omega

@[simp] theorem n_packTB_1_0 (op : Nat) (rg : BitVec 4) (rw : Option W32) (t h o k : Nat) (_ : t < 16) (_ : h < 16) (_ : o < 64) (_ : k < 32) :
    Raw.n (syllable op rg (packTB t h o k) rw) 1 0 = k % 2 := by
  simp only [Raw.n, syllable, packTB]; omega

@[simp] theorem packTB_lt (t h o k : Nat) (_ : t < 16) (_ : h < 16) (_ : o < 64) (_ : k < 32) : packTB t h o k < 524288 := by
  simp only [packTB]; omega

@[simp] theorem n_packEN_9_0 (op : Nat) (rg : BitVec 4) (rw : Option W32) (t a b k : Nat) (_ : t < 16) (_ : a < 64) (_ : b < 64) (_ : k < 8) :
    Raw.n (syllable op rg (packEN t a b k) rw) 9 0 = b * 8 + k := by
  simp only [Raw.n, syllable, packEN]; omega

@[simp] theorem n_packEN_6_9 (op : Nat) (rg : BitVec 4) (rw : Option W32) (t a b k : Nat) (_ : t < 16) (_ : a < 64) (_ : b < 64) (_ : k < 8) :
    Raw.n (syllable op rg (packEN t a b k) rw) 6 9 = a := by
  simp only [Raw.n, syllable, packEN]; omega

@[simp] theorem n_packEN_6_3 (op : Nat) (rg : BitVec 4) (rw : Option W32) (t a b k : Nat) (_ : t < 16) (_ : a < 64) (_ : b < 64) (_ : k < 8) :
    Raw.n (syllable op rg (packEN t a b k) rw) 6 3 = b := by
  simp only [Raw.n, syllable, packEN]; omega

@[simp] theorem n_packEN_4_15 (op : Nat) (rg : BitVec 4) (rw : Option W32) (t a b k : Nat) (_ : t < 16) (_ : a < 64) (_ : b < 64) (_ : k < 8) :
    Raw.n (syllable op rg (packEN t a b k) rw) 4 15 = t := by
  simp only [Raw.n, syllable, packEN]; omega

@[simp] theorem n_packEN_3_0 (op : Nat) (rg : BitVec 4) (rw : Option W32) (t a b k : Nat) (_ : t < 16) (_ : a < 64) (_ : b < 64) (_ : k < 8) :
    Raw.n (syllable op rg (packEN t a b k) rw) 3 0 = k := by
  simp only [Raw.n, syllable, packEN]; omega

@[simp] theorem n_packEN_2_1 (op : Nat) (rg : BitVec 4) (rw : Option W32) (t a b k : Nat) (_ : t < 16) (_ : a < 64) (_ : b < 64) (_ : k < 8) :
    Raw.n (syllable op rg (packEN t a b k) rw) 2 1 = k / 2 := by
  simp only [Raw.n, syllable, packEN]; omega

@[simp] theorem n_packEN_1_0 (op : Nat) (rg : BitVec 4) (rw : Option W32) (t a b k : Nat) (_ : t < 16) (_ : a < 64) (_ : b < 64) (_ : k < 8) :
    Raw.n (syllable op rg (packEN t a b k) rw) 1 0 = k % 2 := by
  simp only [Raw.n, syllable, packEN]; omega

@[simp] theorem packEN_lt (t a b k : Nat) (_ : t < 16) (_ : a < 64) (_ : b < 64) (_ : k < 8) : packEN t a b k < 524288 := by
  simp only [packEN]; omega

@[simp] theorem n_packSY_13_0 (op : Nat) (rg : BitVec 4) (rw : Option W32) (s n : Nat) (_ : s < 64) (_ : n < 8192) :
    Raw.n (syllable op rg (packSY s n) rw) 13 0 = n := by
  simp only [Raw.n, syllable, packSY]; omega

@[simp] theorem n_packSY_6_13 (op : Nat) (rg : BitVec 4) (rw : Option W32) (s n : Nat) (_ : s < 64) (_ : n < 8192) :
    Raw.n (syllable op rg (packSY s n) rw) 6 13 = s := by
  simp only [Raw.n, syllable, packSY]; omega

@[simp] theorem packSY_lt (s n : Nat) (_ : s < 64) (_ : n < 8192) : packSY s n < 524288 := by
  simp only [packSY]; omega

/-! The operands that an extension word can carry (R47). -/

@[simp] theorem imm_field_lt (m : Imm) : m.field < 128 := by
  cases m with
  | short i => exact i.isLt
  | ext w => simp [Imm.field]
theorem imm_eq (op : Nat) (g : BitVec 4) (d a : Nat) (m : Imm) (_ : d < 64) (_ : a < 64) :
    Raw.imm (syllable op g (packSI d a m.field) m.word) = m := by
  cases m with
  | short i => simp (disch := omega) [Raw.imm, Imm.word, Imm.field, raw_f]
  | ext w => simp [Raw.imm, Imm.word, raw_e]
@[simp] theorem imm_cond (m : Imm) : (m.word.isSome && m.field != 0) = false := by cases m <;> simp [Imm.word, Imm.field]
@[simp] theorem cmp_field_lt (o : CmpOpnd) : o.field < 64 := by
  cases o with
  | reg b => exact b.isLt
  | imm i => exact i.isLt
  | ext w => simp [CmpOpnd.field]
@[simp] theorem cmp_kbit_lt (o : CmpOpnd) : o.kbit < 2 := by cases o <;> simp [CmpOpnd.kbit]
theorem cmp_eq (op : Nat) (g : BitVec 4) (q a q2 : Nat) (o : CmpOpnd) (_ : q < 8) (_ : a < 64) (_ : q2 < 8) :
    Raw.cmp (syllable op g (packPC q a o.field q2 o.kbit) o.word) = o := by
  cases o with
  | reg b => simp (disch := omega) [Raw.cmp, CmpOpnd.word, CmpOpnd.field, CmpOpnd.kbit, raw_f, raw_b]
  | imm i => simp (disch := omega) [Raw.cmp, CmpOpnd.word, CmpOpnd.field, CmpOpnd.kbit, raw_f, raw_b]
  | ext w => simp [Raw.cmp, CmpOpnd.word, raw_e]
@[simp] theorem cmp_condK (o : CmpOpnd) : (o.word.isSome && !(o.kbit == 1)) = false := by cases o <;> simp [CmpOpnd.word, CmpOpnd.kbit]
@[simp] theorem cmp_condF (o : CmpOpnd) : (o.word.isSome && o.field != 0) = false := by cases o <;> simp [CmpOpnd.word, CmpOpnd.field]
@[simp] theorem count_field_lt (n : Count) : n.field < 64 := by
  cases n with
  | short i => exact i.isLt
  | ext w => simp [Count.field]
theorem count_eq (op : Nat) (g : BitVec 4) (l e : Nat) (n : Count) (_ : l < 4) (_ : e < 2048) :
    Raw.count (syllable op g (packLP l n.field e) n.word) = n := by
  cases n with
  | short i => simp (disch := omega) [Raw.count, Count.word, Count.field, raw_f]
  | ext w => simp [Raw.count, Count.word, raw_e]
@[simp] theorem count_cond (n : Count) : (n.word.isSome && n.field != 0) = false := by cases n <;> simp [Count.word, Count.field]
theorem step_eq (op : Nat) (g : BitVec 4) (d h o : Nat) (t : Step) (_ : d < 64) (_ : h < 16) (_ : o < 64) :
    Raw.step (syllable op g (packME d h o t.code) t.word) = t := by
  cases t <;> simp (disch := omega) [Raw.step, Step.word, Step.code, raw_e]
@[simp] theorem step_cond4 (t : Step) : (t.word.isSome && t.code != 6) = false := by cases t <;> simp [Step.word, Step.code]
@[simp] theorem step_cond5 (t : Step) : (!t.word.isSome && t.code == 6) = false := by cases t <;> simp [Step.word, Step.code]
@[simp] theorem step_cond5' (t : Step) : (t.word.isNone && t.code == 6) = false := by cases t <;> simp [Step.word, Step.code]
@[simp] theorem step_cond6 (t : Step) : (t.code == 7) = false := by cases t <;> simp [Step.code]
theorem extOpt8_eq (op : Nat) (g : BitVec 4) (n : Nat) (x : Option (BitVec 8)) :
    Raw.extOpt8 (syllable op g n (x.map (fun c => BitVec.ofNat 32 c.toNat))) = x := by
  cases x with
  | none => rfl
  | some c =>
    have := c.isLt
    simp only [Raw.extOpt8, syllable, Option.map, Option.isSome, if_true, raw_e, Raw.extN, BitVec.toNat_ofNat, Option.some.injEq]
    apply BitVec.eq_of_toNat_eq; simp only [BitVec.toNat_ofNat]; omega
theorem extOpt8_cond (op : Nat) (g : BitVec 4) (n : Nat) (x : Option (BitVec 8)) :
    Raw.extN (syllable op g n (x.map (fun c => BitVec.ofNat 32 c.toNat))) 24 8 = 0 := by
  cases x with
  | none => simp [Raw.extN, syllable]
  | some c => have := c.isLt; simp only [Raw.extN, syllable, Option.map, BitVec.toNat_ofNat]; omega
/-- The fields of an extension word given as a number. -/
theorem extN_ofNat (op : Nat) (g : BitVec 4) (n v a b : Nat) :
    Raw.extN (syllable op g n (some (BitVec.ofNat 32 v))) a b = v % 4294967296 / 2 ^ b % 2 ^ a := by
  simp only [Raw.extN, syllable, BitVec.toNat_ofNat]
/-- The fields of operand bits given as one number. -/
theorem n_raw (op : Nat) (g : BitVec 4) (v a b : Nat) (e : Option W32) : Raw.n (syllable op g v e) a b = v / 2 ^ b % 2 ^ a := rfl
@[simp] theorem ofNat_mod2 (n : Nat) : BitVec.ofNat 2 (n % 4) = BitVec.ofNat 2 n := by
  apply BitVec.eq_of_toNat_eq; simp
@[simp] theorem ofNat_mod4 (n : Nat) : BitVec.ofNat 4 (n % 16) = BitVec.ofNat 4 n := by
  apply BitVec.eq_of_toNat_eq; simp
@[simp] theorem ofNat_mod5 (n : Nat) : BitVec.ofNat 5 (n % 32) = BitVec.ofNat 5 n := by
  apply BitVec.eq_of_toNat_eq; simp
@[simp] theorem ofNat_mod6 (n : Nat) : BitVec.ofNat 6 (n % 64) = BitVec.ofNat 6 n := by
  apply BitVec.eq_of_toNat_eq; simp
@[simp] theorem ofNat_mod7 (n : Nat) : BitVec.ofNat 7 (n % 128) = BitVec.ofNat 7 n := by
  apply BitVec.eq_of_toNat_eq; simp
@[simp] theorem ofNat_mod19 (n : Nat) : BitVec.ofNat 19 (n % 524288) = BitVec.ofNat 19 n := by
  apply BitVec.eq_of_toNat_eq; simp
@[simp] theorem ofNat_mod8 (n : Nat) : BitVec.ofNat 8 (n % 256) = BitVec.ofNat 8 n := by
  apply BitVec.eq_of_toNat_eq; simp
@[simp] theorem ofNat_mod16 (n : Nat) : BitVec.ofNat 16 (n % 65536) = BitVec.ofNat 16 n := by
  apply BitVec.eq_of_toNat_eq; simp
theorem bv_self {n : Nat} (x : BitVec n) : BitVec.ofNat n x.toNat = x := by simp
@[simp] theorem tail_mod (m : TailMode) : m.code % 4 = m.code := by cases m <;> rfl
@[simp] theorem bool_beq (k : Bool) : (k.toNat == 1) = k := by cases k <;> rfl
@[simp] theorem bool_mod_beq (k : Bool) : (k.toNat % 2 == 1) = k := by cases k <;> rfl
@[simp] theorem bool_lt (k : Bool) : k.toNat < 2 := by cases k <;> decide
theorem ofNat_eq {n : Nat} {x : BitVec n} {m : Nat} (h : m = x.toNat) : BitVec.ofNat n m = x := by subst h; simp

/-- A move word decodes to the destination's instruction, from any source and guard (spec/20 R320). -/
theorem moveSource_code (src : MoveSrc) :
    moveSource src.code (match (match src with | .imm v => some v | _ => none) with | some v => v | none => 0) = some src := by
  cases src <;> rfl
theorem src_code_lt (src : MoveSrc) : src.code < 64 := by cases src <;> simp [MoveSrc.code]
theorem move_ok (dst : Nat) (src : MoveSrc) (g : BitVec 2) (hd : dst < 64) :
    src.code * 1024 + dst * 16 + g.toNat * 4 < 65536 ∧
      decodeMove (src.code * 1024 + dst * 16 + g.toNat * 4)
        (match (match src with | .imm v => some v | _ => none) with | some v => BitVec.toNat v | none => 0) = moveTo dst src g := by
  have := src_code_lt src; have := g.isLt
  have h1 : (src.code * 1024 + dst * 16 + g.toNat * 4) % 4 = 0 := by omega
  have h2 : (src.code * 1024 + dst * 16 + g.toNat * 4) / 1024 % 64 = src.code := by omega
  have h3 : (src.code * 1024 + dst * 16 + g.toNat * 4) / 16 % 64 = dst := by omega
  have h4 : BitVec.ofNat 2 ((src.code * 1024 + dst * 16 + g.toNat * 4) / 4) = g := by
    apply BitVec.eq_of_toNat_eq; simp only [BitVec.toNat_ofNat]; omega
  refine ⟨by omega, ?_⟩
  simp only [decodeMove, h1, h2, h3, h4]
  have h5 := moveSource_code src
  cases src <;> simp_all

/-- The parts of a syllable have their sizes, and it decodes. -/
theorem syllable_ok {sp : Space} {op : Nat} {g : BitVec 4} {n : Nat} {e : Option W32} {i : Instr} (ho : op < 256)
    (hn : n < 524288) (hd : decodeRaw sp (syllable op g n e) = .ok i) :
    (syllable op g n e).opc < 256 ∧ (syllable op g n e).ops < 524288 ∧ (syllable op g n e).ext < 4294967296
      ∧ ((syllable op g n e).x = false → (syllable op g n e).ext = 0) ∧ decodeRaw sp (syllable op g n e) = .ok i :=
  ⟨ho, hn, syllable_ext_lt _ _ _ _, syllable_ext_zero _ _ _ _, hd⟩

end Sys2Proof.Laws
end

