-- ==== Sys2Proof/Laws/Exec.lean ====
section
/-! SUPPORT. The arm of each instruction. -/

set_option Elab.async false

namespace Sys2Proof.Laws
open Sys2Proof.Machine Sys2Proof

@[simp] theorem exec_nop (st : State) : exec (.nop) st = execNop st := rfl
@[simp] theorem exec_idle (st : State) : exec (.idle) st = execIdle st := rfl
@[simp] theorem exec_add (g : Guard) (d a b : SReg) (k : Bool) (st : State) : exec (.add g d a b k) st = execAdd g d a b k st := rfl
@[simp] theorem exec_sub (g : Guard) (d a b : SReg) (k : Bool) (st : State) : exec (.sub g d a b k) st = execSub g d a b k st := rfl
@[simp] theorem exec_mul (g : Guard) (d a b : SReg) (k : Bool) (st : State) : exec (.mul g d a b k) st = execMul g d a b k st := rfl
@[simp] theorem exec_mulhi (g : Guard) (d a b : SReg) (k : Bool) (st : State) : exec (.mulhi g d a b k) st = execMulhi g d a b k st := rfl
@[simp] theorem exec_mulhz (g : Guard) (d a b : SReg) (k : Bool) (st : State) : exec (.mulhz g d a b k) st = execMulhz g d a b k st := rfl
@[simp] theorem exec_div (g : Guard) (d a b : SReg) (k : Bool) (st : State) : exec (.div g d a b k) st = execDiv g d a b k st := rfl
@[simp] theorem exec_divz (g : Guard) (d a b : SReg) (k : Bool) (st : State) : exec (.divz g d a b k) st = execDivz g d a b k st := rfl
@[simp] theorem exec_rem (g : Guard) (d a b : SReg) (k : Bool) (st : State) : exec (.rem g d a b k) st = execRem g d a b k st := rfl
@[simp] theorem exec_remz (g : Guard) (d a b : SReg) (k : Bool) (st : State) : exec (.remz g d a b k) st = execRemz g d a b k st := rfl
@[simp] theorem exec_and (g : Guard) (d a b : SReg) (st : State) : exec (.and g d a b) st = execAnd g d a b st := rfl
@[simp] theorem exec_or (g : Guard) (d a b : SReg) (st : State) : exec (.or g d a b) st = execOr g d a b st := rfl
@[simp] theorem exec_xor (g : Guard) (d a b : SReg) (st : State) : exec (.xor g d a b) st = execXor g d a b st := rfl
@[simp] theorem exec_andn (g : Guard) (d a b : SReg) (st : State) : exec (.andn g d a b) st = execAndn g d a b st := rfl
@[simp] theorem exec_shl (g : Guard) (d a b : SReg) (k : Bool) (st : State) : exec (.shl g d a b k) st = execShl g d a b k st := rfl
@[simp] theorem exec_shr (g : Guard) (d a b : SReg) (k : Bool) (st : State) : exec (.shr g d a b k) st = execShr g d a b k st := rfl
@[simp] theorem exec_sra (g : Guard) (d a b : SReg) (k : Bool) (st : State) : exec (.sra g d a b k) st = execSra g d a b k st := rfl
@[simp] theorem exec_rol (g : Guard) (d a b : SReg) (k : Bool) (st : State) : exec (.rol g d a b k) st = execRol g d a b k st := rfl
@[simp] theorem exec_min (g : Guard) (d a b : SReg) (k : Bool) (st : State) : exec (.min g d a b k) st = execMin g d a b k st := rfl
@[simp] theorem exec_max (g : Guard) (d a b : SReg) (k : Bool) (st : State) : exec (.max g d a b k) st = execMax g d a b k st := rfl
@[simp] theorem exec_minz (g : Guard) (d a b : SReg) (k : Bool) (st : State) : exec (.minz g d a b k) st = execMinz g d a b k st := rfl
@[simp] theorem exec_maxz (g : Guard) (d a b : SReg) (k : Bool) (st : State) : exec (.maxz g d a b k) st = execMaxz g d a b k st := rfl
@[simp] theorem exec_addi (g : Guard) (d a : SReg) (m : Imm) (st : State) : exec (.addi g d a m) st = execAddi g d a m st := rfl
@[simp] theorem exec_andi (g : Guard) (d a : SReg) (m : Imm) (st : State) : exec (.andi g d a m) st = execAndi g d a m st := rfl
@[simp] theorem exec_ori (g : Guard) (d a : SReg) (m : Imm) (st : State) : exec (.ori g d a m) st = execOri g d a m st := rfl
@[simp] theorem exec_xori (g : Guard) (d a : SReg) (m : Imm) (st : State) : exec (.xori g d a m) st = execXori g d a m st := rfl
@[simp] theorem exec_shli (g : Guard) (d a : SReg) (m : Imm) (st : State) : exec (.shli g d a m) st = execShli g d a m st := rfl
@[simp] theorem exec_shri (g : Guard) (d a : SReg) (m : Imm) (st : State) : exec (.shri g d a m) st = execShri g d a m st := rfl
@[simp] theorem exec_srai (g : Guard) (d a : SReg) (m : Imm) (st : State) : exec (.srai g d a m) st = execSrai g d a m st := rfl
@[simp] theorem exec_addiW (g : Guard) (d a : SReg) (m : Imm) (st : State) : exec (.addiW g d a m) st = execAddiW g d a m st := rfl
@[simp] theorem exec_shliW (g : Guard) (d a : SReg) (i : BitVec 7) (st : State) : exec (.shliW g d a i) st = execShliW g d a i st := rfl
@[simp] theorem exec_shriW (g : Guard) (d a : SReg) (i : BitVec 7) (st : State) : exec (.shriW g d a i) st = execShriW g d a i st := rfl
@[simp] theorem exec_sraiW (g : Guard) (d a : SReg) (i : BitVec 7) (st : State) : exec (.sraiW g d a i) st = execSraiW g d a i st := rfl
@[simp] theorem exec_cmpeq (g : Guard) (q q2 : PReg) (a : SReg) (o : CmpOpnd) (st : State) : exec (.cmpeq g q q2 a o) st = execCmpeq g q q2 a o st := rfl
@[simp] theorem exec_cmpne (g : Guard) (q q2 : PReg) (a : SReg) (o : CmpOpnd) (st : State) : exec (.cmpne g q q2 a o) st = execCmpne g q q2 a o st := rfl
@[simp] theorem exec_cmplt (g : Guard) (q q2 : PReg) (a : SReg) (o : CmpOpnd) (st : State) : exec (.cmplt g q q2 a o) st = execCmplt g q q2 a o st := rfl
@[simp] theorem exec_cmple (g : Guard) (q q2 : PReg) (a : SReg) (o : CmpOpnd) (st : State) : exec (.cmple g q q2 a o) st = execCmple g q q2 a o st := rfl
@[simp] theorem exec_cmpltz (g : Guard) (q q2 : PReg) (a : SReg) (o : CmpOpnd) (st : State) : exec (.cmpltz g q q2 a o) st = execCmpltz g q q2 a o st := rfl
@[simp] theorem exec_cmplez (g : Guard) (q q2 : PReg) (a : SReg) (o : CmpOpnd) (st : State) : exec (.cmplez g q q2 a o) st = execCmplez g q q2 a o st := rfl
@[simp] theorem exec_cmpeqW (g : Guard) (q q2 : PReg) (a : SReg) (o : CmpOpnd) (st : State) : exec (.cmpeqW g q q2 a o) st = execCmpeqW g q q2 a o st := rfl
@[simp] theorem exec_cmpneW (g : Guard) (q q2 : PReg) (a : SReg) (o : CmpOpnd) (st : State) : exec (.cmpneW g q q2 a o) st = execCmpneW g q q2 a o st := rfl
@[simp] theorem exec_cmpltW (g : Guard) (q q2 : PReg) (a : SReg) (o : CmpOpnd) (st : State) : exec (.cmpltW g q q2 a o) st = execCmpltW g q q2 a o st := rfl
@[simp] theorem exec_cmpleW (g : Guard) (q q2 : PReg) (a : SReg) (o : CmpOpnd) (st : State) : exec (.cmpleW g q q2 a o) st = execCmpleW g q q2 a o st := rfl
@[simp] theorem exec_cmpltzW (g : Guard) (q q2 : PReg) (a : SReg) (o : CmpOpnd) (st : State) : exec (.cmpltzW g q q2 a o) st = execCmpltzW g q q2 a o st := rfl
@[simp] theorem exec_cmplezW (g : Guard) (q q2 : PReg) (a : SReg) (o : CmpOpnd) (st : State) : exec (.cmplezW g q q2 a o) st = execCmplezW g q q2 a o st := rfl
@[simp] theorem exec_pand (g : Guard) (q pa pb : PReg) (na nb : Bool) (st : State) : exec (.pand g q pa pb na nb) st = execPand g q pa pb na nb st := rfl
@[simp] theorem exec_por (g : Guard) (q pa pb : PReg) (na nb : Bool) (st : State) : exec (.por g q pa pb na nb) st = execPor g q pa pb na nb st := rfl
@[simp] theorem exec_pxor (g : Guard) (q pa pb : PReg) (na nb : Bool) (st : State) : exec (.pxor g q pa pb na nb) st = execPxor g q pa pb na nb st := rfl
@[simp] theorem exec_pnot (g : Guard) (q pa : PReg) (na : Bool) (st : State) : exec (.pnot g q pa na) st = execPnot g q pa na st := rfl
@[simp] theorem exec_pset (g : Guard) (a b : SReg) (st : State) : exec (.pset g a b) st = execPset g a b st := rfl
@[simp] theorem exec_pget (g : Guard) (d : SReg) (st : State) : exec (.pget g d) st = execPget g d st := rfl
@[simp] theorem exec_clz (g : Guard) (d a : SReg) (k : Bool) (st : State) : exec (.clz g d a k) st = execClz g d a k st := rfl
@[simp] theorem exec_ctz (g : Guard) (d a : SReg) (k : Bool) (st : State) : exec (.ctz g d a k) st = execCtz g d a k st := rfl
@[simp] theorem exec_popc (g : Guard) (d a : SReg) (k : Bool) (st : State) : exec (.popc g d a k) st = execPopc g d a k st := rfl
@[simp] theorem exec_bext (g : Guard) (d a b : SReg) (st : State) : exec (.bext g d a b) st = execBext g d a b st := rfl
@[simp] theorem exec_bins (g : Guard) (d a b : SReg) (st : State) : exec (.bins g d a b) st = execBins g d a b st := rfl
@[simp] theorem exec_sext (g : Guard) (d a : SReg) (i : BitVec 7) (st : State) : exec (.sext g d a i) st = execSext g d a i st := rfl
@[simp] theorem exec_zext (g : Guard) (d a : SReg) (i : BitVec 7) (st : State) : exec (.zext g d a i) st = execZext g d a i st := rfl
@[simp] theorem exec_mov (g : Guard) (d a : SReg) (st : State) : exec (.mov g d a) st = execMov g d a st := rfl
@[simp] theorem exec_li (g : Guard) (d : SReg) (m : Imm) (st : State) : exec (.li g d m) st = execLi g d m st := rfl
@[simp] theorem exec_lih (g : Guard) (d a : SReg) (m : Imm) (st : State) : exec (.lih g d a m) st = execLih g d a m st := rfl
@[simp] theorem exec_sysr (g : Guard) (r : SReg) (n : BitVec 13) (st : State) : exec (.sysr g r n) st = execSysr g r n st := rfl
@[simp] theorem exec_sysw (g : Guard) (r : SReg) (n : BitVec 13) (st : State) : exec (.sysw g r n) st = execSysw g r n st := rfl
@[simp] theorem exec_sysx (g : Guard) (r : SReg) (n : BitVec 13) (st : State) : exec (.sysx g r n) st = execSysx g r n st := rfl
@[simp] theorem exec_b (g : Guard) (o : BitVec 19) (st : State) : exec (.b g o) st = execB g o st := rfl
@[simp] theorem exec_bl (g : Guard) (o : BitVec 19) (st : State) : exec (.bl g o) st = execBl g o st := rfl
@[simp] theorem exec_br (g : Guard) (a : SReg) (st : State) : exec (.br g a) st = execBr g a st := rfl
@[simp] theorem exec_call (g : Guard) (d a : SReg) (st : State) : exec (.call g d a) st = execCall g d a st := rfl
@[simp] theorem exec_ret (g : Guard) (a : SReg) (st : State) : exec (.ret g a) st = execRet g a st := rfl
@[simp] theorem exec_disp (g : Guard) (a b : SReg) (st : State) : exec (.disp g a b) st = execDisp g a b st := rfl
@[simp] theorem exec_loop (g : Guard) (l : LcReg) (c : SReg) (e : BitVec 11) (st : State) : exec (.loop g l c e) st = execLoop g l c e st := rfl
@[simp] theorem exec_loopi (g : Guard) (l : LcReg) (c : Count) (e : BitVec 11) (st : State) : exec (.loopi g l c e) st = execLoopi g l c e st := rfl
@[simp] theorem exec_yield (g : Guard) (st : State) : exec (.yield g) st = execYield g st := rfl
@[simp] theorem exec_susp (g : Guard) (st : State) : exec (.susp g) st = execSusp g st := rfl
@[simp] theorem exec_tend (g : Guard) (st : State) : exec (.tend g) st = execTend g st := rfl
@[simp] theorem exec_halt (g : Guard) (st : State) : exec (.halt g) st = execHalt g st := rfl
@[simp] theorem exec_iwait (g : Guard) (d : SReg) (i : BitVec 7) (st : State) : exec (.iwait g d i) st = execIwait g d i st := rfl
@[simp] theorem exec_trap (g : Guard) (i : BitVec 7) (st : State) : exec (.trap g i) st = execTrap g i st := rfl
@[simp] theorem exec_brk (g : Guard) (i : BitVec 7) (st : State) : exec (.brk g i) st = execBrk g i st := rfl
@[simp] theorem exec_eret (g : Guard) (st : State) : exec (.eret g) st = execEret g st := rfl
@[simp] theorem exec_ldb (g : Guard) (d : SReg) (h : HReg) (o : SReg) (t : Step) (st : State) : exec (.ldb g d h o t) st = execLdb g d h o t st := rfl
@[simp] theorem exec_ldh (g : Guard) (d : SReg) (h : HReg) (o : SReg) (t : Step) (st : State) : exec (.ldh g d h o t) st = execLdh g d h o t st := rfl
@[simp] theorem exec_ldw (g : Guard) (d : SReg) (h : HReg) (o : SReg) (t : Step) (st : State) : exec (.ldw g d h o t) st = execLdw g d h o t st := rfl
@[simp] theorem exec_ldd (g : Guard) (d : SReg) (h : HReg) (o : SReg) (t : Step) (st : State) : exec (.ldd g d h o t) st = execLdd g d h o t st := rfl
@[simp] theorem exec_ldbz (g : Guard) (d : SReg) (h : HReg) (o : SReg) (t : Step) (st : State) : exec (.ldbz g d h o t) st = execLdbz g d h o t st := rfl
@[simp] theorem exec_ldhz (g : Guard) (d : SReg) (h : HReg) (o : SReg) (t : Step) (st : State) : exec (.ldhz g d h o t) st = execLdhz g d h o t st := rfl
@[simp] theorem exec_ldwz (g : Guard) (d : SReg) (h : HReg) (o : SReg) (t : Step) (st : State) : exec (.ldwz g d h o t) st = execLdwz g d h o t st := rfl
@[simp] theorem exec_stb (g : Guard) (d : SReg) (h : HReg) (o : SReg) (t : Step) (st : State) : exec (.stb g d h o t) st = execStb g d h o t st := rfl
@[simp] theorem exec_sth (g : Guard) (d : SReg) (h : HReg) (o : SReg) (t : Step) (st : State) : exec (.sth g d h o t) st = execSth g d h o t st := rfl
@[simp] theorem exec_stw (g : Guard) (d : SReg) (h : HReg) (o : SReg) (t : Step) (st : State) : exec (.stw g d h o t) st = execStw g d h o t st := rfl
@[simp] theorem exec_std (g : Guard) (d : SReg) (h : HReg) (o : SReg) (t : Step) (st : State) : exec (.std g d h o t) st = execStd g d h o t st := rfl
@[simp] theorem exec_vld (g : Guard) (d : VReg) (h : HReg) (o : SReg) (t : Step) (st : State) : exec (.vld g d h o t) st = execVld g d h o t st := rfl
@[simp] theorem exec_vst (g : Guard) (d : VReg) (h : HReg) (o : SReg) (t : Step) (st : State) : exec (.vst g d h o t) st = execVst g d h o t st := rfl
@[simp] theorem exec_vldb (g : Guard) (d : VReg) (h : HReg) (o : SReg) (t : Step) (st : State) : exec (.vldb g d h o t) st = execVldb g d h o t st := rfl
@[simp] theorem exec_cbput (g : Guard) (d : VReg) (n : CbReg) (st : State) : exec (.cbput g d n) st = execCbput g d n st := rfl
@[simp] theorem exec_cbget (g : Guard) (d : VReg) (n : CbReg) (st : State) : exec (.cbget g d n) st = execCbget g d n st := rfl
@[simp] theorem exec_ldc (g : Guard) (d : CbReg) (h : HReg) (o : SReg) (t : Step) (st : State) : exec (.ldc g d h o t) st = execLdc g d h o t st := rfl
@[simp] theorem exec_stc (g : Guard) (d : CbReg) (h : HReg) (o : SReg) (t : Step) (st : State) : exec (.stc g d h o t) st = execStc g d h o t st := rfl
@[simp] theorem exec_cbadvp (g : Guard) (d : CbReg) (o : SReg) (st : State) : exec (.cbadvp g d o) st = execCbadvp g d o st := rfl
@[simp] theorem exec_cbadvc (g : Guard) (d : CbReg) (o : SReg) (st : State) : exec (.cbadvc g d o) st = execCbadvc g d o st := rfl
@[simp] theorem exec_cbcfg (g : Guard) (d : CbReg) (o : SReg) (t : Step) (st : State) : exec (.cbcfg g d o t) st = execCbcfg g d o t st := rfl
@[simp] theorem exec_wld4 (g : Guard) (d : VReg) (h : HReg) (o : SReg) (t : Step) (st : State) : exec (.wld4 g d h o t) st = execWld4 g d h o t st := rfl
@[simp] theorem exec_wld8 (g : Guard) (d : VReg) (h : HReg) (o : SReg) (t : Step) (st : State) : exec (.wld8 g d h o t) st = execWld8 g d h o t st := rfl
@[simp] theorem exec_ldfe (g : Guard) (d : SReg) (h : HReg) (o : SReg) (t : Step) (st : State) : exec (.ldfe g d h o t) st = execLdfe g d h o t st := rfl
@[simp] theorem exec_stef (g : Guard) (d : SReg) (h : HReg) (o : SReg) (t : Step) (st : State) : exec (.stef g d h o t) st = execStef g d h o t st := rfl
@[simp] theorem exec_ldff (g : Guard) (d : SReg) (h : HReg) (o : SReg) (t : Step) (st : State) : exec (.ldff g d h o t) st = execLdff g d h o t st := rfl
@[simp] theorem exec_stff (g : Guard) (d : SReg) (h : HReg) (o : SReg) (t : Step) (st : State) : exec (.stff g d h o t) st = execStff g d h o t st := rfl
@[simp] theorem exec_feset (g : Guard) (h : HReg) (o : SReg) (t : Step) (st : State) : exec (.feset g h o t) st = execFeset g h o t st := rfl
@[simp] theorem exec_feclr (g : Guard) (h : HReg) (o : SReg) (t : Step) (st : State) : exec (.feclr g h o t) st = execFeclr g h o t st := rfl
@[simp] theorem exec_ldacq (g : Guard) (d : SReg) (h : HReg) (o : SReg) (w : Scope) (x : Option W32) (st : State) : exec (.ldacq g d h o w x) st = execLdacq g d h o w x st := rfl
@[simp] theorem exec_strel (g : Guard) (d : SReg) (h : HReg) (o : SReg) (w : Scope) (x : Option W32) (st : State) : exec (.strel g d h o w x) st = execStrel g d h o w x st := rfl
@[simp] theorem exec_fence (g : Guard) (w : Scope) (st : State) : exec (.fence g w) st = execFence g w st := rfl
@[simp] theorem exec_amoaddW (g : Guard) (d : SReg) (h : HReg) (o : SReg) (w : Scope) (q : Bool) (x : Option W32) (st : State) : exec (.amoaddW g d h o w q x) st = execAmoaddW g d h o w q x st := rfl
@[simp] theorem exec_amoaddD (g : Guard) (d : SReg) (h : HReg) (o : SReg) (w : Scope) (q : Bool) (x : Option W32) (st : State) : exec (.amoaddD g d h o w q x) st = execAmoaddD g d h o w q x st := rfl
@[simp] theorem exec_amoandW (g : Guard) (d : SReg) (h : HReg) (o : SReg) (w : Scope) (q : Bool) (x : Option W32) (st : State) : exec (.amoandW g d h o w q x) st = execAmoandW g d h o w q x st := rfl
@[simp] theorem exec_amoandD (g : Guard) (d : SReg) (h : HReg) (o : SReg) (w : Scope) (q : Bool) (x : Option W32) (st : State) : exec (.amoandD g d h o w q x) st = execAmoandD g d h o w q x st := rfl
@[simp] theorem exec_amoorW (g : Guard) (d : SReg) (h : HReg) (o : SReg) (w : Scope) (q : Bool) (x : Option W32) (st : State) : exec (.amoorW g d h o w q x) st = execAmoorW g d h o w q x st := rfl
@[simp] theorem exec_amoorD (g : Guard) (d : SReg) (h : HReg) (o : SReg) (w : Scope) (q : Bool) (x : Option W32) (st : State) : exec (.amoorD g d h o w q x) st = execAmoorD g d h o w q x st := rfl
@[simp] theorem exec_amoxorW (g : Guard) (d : SReg) (h : HReg) (o : SReg) (w : Scope) (q : Bool) (x : Option W32) (st : State) : exec (.amoxorW g d h o w q x) st = execAmoxorW g d h o w q x st := rfl
@[simp] theorem exec_amoxorD (g : Guard) (d : SReg) (h : HReg) (o : SReg) (w : Scope) (q : Bool) (x : Option W32) (st : State) : exec (.amoxorD g d h o w q x) st = execAmoxorD g d h o w q x st := rfl
@[simp] theorem exec_amominW (g : Guard) (d : SReg) (h : HReg) (o : SReg) (w : Scope) (q : Bool) (x : Option W32) (st : State) : exec (.amominW g d h o w q x) st = execAmominW g d h o w q x st := rfl
@[simp] theorem exec_amominD (g : Guard) (d : SReg) (h : HReg) (o : SReg) (w : Scope) (q : Bool) (x : Option W32) (st : State) : exec (.amominD g d h o w q x) st = execAmominD g d h o w q x st := rfl
@[simp] theorem exec_amomaxW (g : Guard) (d : SReg) (h : HReg) (o : SReg) (w : Scope) (q : Bool) (x : Option W32) (st : State) : exec (.amomaxW g d h o w q x) st = execAmomaxW g d h o w q x st := rfl
@[simp] theorem exec_amomaxD (g : Guard) (d : SReg) (h : HReg) (o : SReg) (w : Scope) (q : Bool) (x : Option W32) (st : State) : exec (.amomaxD g d h o w q x) st = execAmomaxD g d h o w q x st := rfl
@[simp] theorem exec_amominzW (g : Guard) (d : SReg) (h : HReg) (o : SReg) (w : Scope) (q : Bool) (x : Option W32) (st : State) : exec (.amominzW g d h o w q x) st = execAmominzW g d h o w q x st := rfl
@[simp] theorem exec_amominzD (g : Guard) (d : SReg) (h : HReg) (o : SReg) (w : Scope) (q : Bool) (x : Option W32) (st : State) : exec (.amominzD g d h o w q x) st = execAmominzD g d h o w q x st := rfl
@[simp] theorem exec_amomaxzW (g : Guard) (d : SReg) (h : HReg) (o : SReg) (w : Scope) (q : Bool) (x : Option W32) (st : State) : exec (.amomaxzW g d h o w q x) st = execAmomaxzW g d h o w q x st := rfl
@[simp] theorem exec_amomaxzD (g : Guard) (d : SReg) (h : HReg) (o : SReg) (w : Scope) (q : Bool) (x : Option W32) (st : State) : exec (.amomaxzD g d h o w q x) st = execAmomaxzD g d h o w q x st := rfl
@[simp] theorem exec_amoswpW (g : Guard) (d : SReg) (h : HReg) (o : SReg) (w : Scope) (q : Bool) (x : Option W32) (st : State) : exec (.amoswpW g d h o w q x) st = execAmoswpW g d h o w q x st := rfl
@[simp] theorem exec_amoswpD (g : Guard) (d : SReg) (h : HReg) (o : SReg) (w : Scope) (q : Bool) (x : Option W32) (st : State) : exec (.amoswpD g d h o w q x) st = execAmoswpD g d h o w q x st := rfl
@[simp] theorem exec_amocasW (g : Guard) (d : BitVec 5) (h : HReg) (o : SReg) (w : Scope) (q : Bool) (x : Option W32) (st : State) : exec (.amocasW g d h o w q x) st = execAmocasW g d h o w q x st := rfl
@[simp] theorem exec_amocasD (g : Guard) (d : BitVec 5) (h : HReg) (o : SReg) (w : Scope) (q : Bool) (x : Option W32) (st : State) : exec (.amocasD g d h o w q x) st = execAmocasD g d h o w q x st := rfl
@[simp] theorem exec_amofaddW (g : Guard) (d : SReg) (h : HReg) (o : SReg) (w : Scope) (q : Bool) (x : Option W32) (st : State) : exec (.amofaddW g d h o w q x) st = execAmofaddW g d h o w q x st := rfl
@[simp] theorem exec_tktwait (g : Guard) (d : SReg) (h : HReg) (o : SReg) (st : State) : exec (.tktwait g d h o) st = execTktwait g d h o st := rfl
@[simp] theorem exec_tktdone (g : Guard) (h : HReg) (o : SReg) (st : State) : exec (.tktdone g h o) st = execTktdone g h o st := rfl
@[simp] theorem exec_xlat (g : Guard) (d : HReg) (a : SReg) (kind : Bool) (st : State) : exec (.xlat g d a kind) st = execXlat g d a kind st := rfl
@[simp] theorem exec_hinv (g : Guard) (d : HReg) (st : State) : exec (.hinv g d) st = execHinv g d st := rfl
@[simp] theorem exec_hget (g : Guard) (d : SReg) (a : HReg) (sel : BitVec 2) (st : State) : exec (.hget g d a sel) st = execHget g d a sel st := rfl
@[simp] theorem exec_hchk (g : Guard) (d : SReg) (a : HReg) (st : State) : exec (.hchk g d a) st = execHchk g d a st := rfl
@[simp] theorem exec_scld (g : Guard) (d : SReg) (h : HReg) (o : SReg) (w : Scope) (st : State) : exec (.scld g d h o w) st = execScld g d h o w st := rfl
@[simp] theorem exec_scst (g : Guard) (d : SReg) (h : HReg) (o : SReg) (w : Scope) (st : State) : exec (.scst g d h o w) st = execScst g d h o w st := rfl
@[simp] theorem exec_scaddW (g : Guard) (d : SReg) (h : HReg) (o : SReg) (w : Scope) (st : State) : exec (.scaddW g d h o w) st = execScaddW g d h o w st := rfl
@[simp] theorem exec_scaddD (g : Guard) (d : SReg) (h : HReg) (o : SReg) (w : Scope) (st : State) : exec (.scaddD g d h o w) st = execScaddD g d h o w st := rfl
@[simp] theorem exec_wbinv (g : Guard) (h : HReg) (o : SReg) (st : State) : exec (.wbinv g h o) st = execWbinv g h o st := rfl
@[simp] theorem exec_pfl2 (g : Guard) (h : HReg) (o : SReg) (st : State) : exec (.pfl2 g h o) st = execPfl2 g h o st := rfl
@[simp] theorem exec_vadd (g : Guard) (d a b : VReg) (f : Fmt) (x : Option VExt) (st : State) : exec (.vadd g d a b f x) st = execVadd g d a b f x st := rfl
@[simp] theorem exec_vsub (g : Guard) (d a b : VReg) (f : Fmt) (x : Option VExt) (st : State) : exec (.vsub g d a b f x) st = execVsub g d a b f x st := rfl
@[simp] theorem exec_vmul (g : Guard) (d a b : VReg) (f : Fmt) (x : Option VExt) (st : State) : exec (.vmul g d a b f x) st = execVmul g d a b f x st := rfl
@[simp] theorem exec_vfma (g : Guard) (d a b : VReg) (f : Fmt) (x : Option VExt) (st : State) : exec (.vfma g d a b f x) st = execVfma g d a b f x st := rfl
@[simp] theorem exec_vfms (g : Guard) (d a b : VReg) (f : Fmt) (x : Option VExt) (st : State) : exec (.vfms g d a b f x) st = execVfms g d a b f x st := rfl
@[simp] theorem exec_vabs (g : Guard) (d a b : VReg) (f : Fmt) (x : Option VExt) (st : State) : exec (.vabs g d a b f x) st = execVabs g d a b f x st := rfl
@[simp] theorem exec_vneg (g : Guard) (d a b : VReg) (f : Fmt) (x : Option VExt) (st : State) : exec (.vneg g d a b f x) st = execVneg g d a b f x st := rfl
@[simp] theorem exec_vmin (g : Guard) (d a b : VReg) (f : Fmt) (x : Option VExt) (st : State) : exec (.vmin g d a b f x) st = execVmin g d a b f x st := rfl
@[simp] theorem exec_vmax (g : Guard) (d a b : VReg) (f : Fmt) (x : Option VExt) (st : State) : exec (.vmax g d a b f x) st = execVmax g d a b f x st := rfl
@[simp] theorem exec_vand (g : Guard) (d a b : VReg) (st : State) : exec (.vand g d a b) st = execVand g d a b st := rfl
@[simp] theorem exec_vor (g : Guard) (d a b : VReg) (st : State) : exec (.vor g d a b) st = execVor g d a b st := rfl
@[simp] theorem exec_vxor (g : Guard) (d a b : VReg) (st : State) : exec (.vxor g d a b) st = execVxor g d a b st := rfl
@[simp] theorem exec_vshl (g : Guard) (d a b : VReg) (f : Fmt) (st : State) : exec (.vshl g d a b f) st = execVshl g d a b f st := rfl
@[simp] theorem exec_vshr (g : Guard) (d a b : VReg) (f : Fmt) (st : State) : exec (.vshr g d a b f) st = execVshr g d a b f st := rfl
@[simp] theorem exec_vsra (g : Guard) (d a b : VReg) (f : Fmt) (st : State) : exec (.vsra g d a b f) st = execVsra g d a b f st := rfl
@[simp] theorem exec_vcmpeq (g : Guard) (d a b : VReg) (f : Fmt) (x : Option VExt) (st : State) : exec (.vcmpeq g d a b f x) st = execVcmpeq g d a b f x st := rfl
@[simp] theorem exec_vcmplt (g : Guard) (d a b : VReg) (f : Fmt) (x : Option VExt) (st : State) : exec (.vcmplt g d a b f x) st = execVcmplt g d a b f x st := rfl
@[simp] theorem exec_vcmple (g : Guard) (d a b : VReg) (f : Fmt) (x : Option VExt) (st : State) : exec (.vcmple g d a b f x) st = execVcmple g d a b f x st := rfl
@[simp] theorem exec_vsel (g : Guard) (d a b : VReg) (f : Fmt) (x : Option VExt) (st : State) : exec (.vsel g d a b f x) st = execVsel g d a b f x st := rfl
@[simp] theorem exec_vmov (g : Guard) (d a : VReg) (st : State) : exec (.vmov g d a) st = execVmov g d a st := rfl
@[simp] theorem exec_vzero (g : Guard) (d : VReg) (st : State) : exec (.vzero g d) st = execVzero g d st := rfl
@[simp] theorem exec_viota (g : Guard) (d a b : VReg) (f : Fmt) (x : Option VExt) (st : State) : exec (.viota g d a b f x) st = execViota g d a b f x st := rfl
@[simp] theorem exec_vcvt (g : Guard) (d a b : VReg) (f : Fmt) (x : Option VExt) (st : State) : exec (.vcvt g d a b f x) st = execVcvt g d a b f x st := rfl
@[simp] theorem exec_vpack (g : Guard) (d a b : VReg) (f : Fmt) (x : Option VExt) (st : State) : exec (.vpack g d a b f x) st = execVpack g d a b f x st := rfl
@[simp] theorem exec_vunpk (g : Guard) (d a b : VReg) (f : Fmt) (x : Option VExt) (st : State) : exec (.vunpk g d a b f x) st = execVunpk g d a b f x st := rfl
@[simp] theorem exec_vquant (g : Guard) (d a b : VReg) (f : Fmt) (x : Option VExt) (st : State) : exec (.vquant g d a b f x) st = execVquant g d a b f x st := rfl
@[simp] theorem exec_vdequant (g : Guard) (d a b : VReg) (f : Fmt) (x : Option VExt) (st : State) : exec (.vdequant g d a b f x) st = execVdequant g d a b f x st := rfl
@[simp] theorem exec_vtld (g : Guard) (t : BitVec 2) (n : CbReg) (st : State) : exec (.vtld g t n) st = execVtld g t n st := rfl
@[simp] theorem exec_vtcfg (g : Guard) (t : BitVec 2) (a : VReg) (lmode umode : TailMode) (lo : BitVec 16) (q : BitVec 4) (st : State) : exec (.vtcfg g t a lmode umode lo q) st = execVtcfg g t a lmode umode lo q st := rfl
@[simp] theorem exec_vtab (g : Guard) (d a b : VReg) (f : Fmt) (x : Option VExt) (st : State) : exec (.vtab g d a b f x) st = execVtab g d a b f x st := rfl
@[simp] theorem exec_vredsum (g : Guard) (d a b : VReg) (f : Fmt) (x : Option VExt) (st : State) : exec (.vredsum g d a b f x) st = execVredsum g d a b f x st := rfl
@[simp] theorem exec_vredmax (g : Guard) (d a b : VReg) (f : Fmt) (x : Option VExt) (st : State) : exec (.vredmax g d a b f x) st = execVredmax g d a b f x st := rfl
@[simp] theorem exec_vredmin (g : Guard) (d a b : VReg) (f : Fmt) (x : Option VExt) (st : State) : exec (.vredmin g d a b f x) st = execVredmin g d a b f x st := rfl
@[simp] theorem exec_vredarg (g : Guard) (d a b : VReg) (f : Fmt) (x : Option VExt) (st : State) : exec (.vredarg g d a b f x) st = execVredarg g d a b f x st := rfl
@[simp] theorem exec_vscan (g : Guard) (d a b : VReg) (f : Fmt) (x : Option VExt) (st : State) : exec (.vscan g d a b f x) st = execVscan g d a b f x st := rfl
@[simp] theorem exec_vbcast (g : Guard) (d a b : VReg) (f : Fmt) (x : Option VExt) (st : State) : exec (.vbcast g d a b f x) st = execVbcast g d a b f x st := rfl
@[simp] theorem exec_vins (g : Guard) (d a b : VReg) (f : Fmt) (x : Option VExt) (st : State) : exec (.vins g d a b f x) st = execVins g d a b f x st := rfl
@[simp] theorem exec_vext (g : Guard) (d a b : VReg) (f : Fmt) (x : Option VExt) (st : State) : exec (.vext g d a b f x) st = execVext g d a b f x st := rfl
@[simp] theorem exec_vperm (g : Guard) (d a b : VReg) (f : Fmt) (x : Option VExt) (st : State) : exec (.vperm g d a b f x) st = execVperm g d a b f x st := rfl
@[simp] theorem exec_vslide (g : Guard) (d a b : VReg) (f : Fmt) (x : Option VExt) (st : State) : exec (.vslide g d a b f x) st = execVslide g d a b f x st := rfl
@[simp] theorem exec_vrev (g : Guard) (d a b : VReg) (f : Fmt) (x : Option VExt) (st : State) : exec (.vrev g d a b f x) st = execVrev g d a b f x st := rfl
@[simp] theorem exec_mpush (g : Guard) (m : BitVec 8) (s : Bool) (st : State) : exec (.mpush g m s) st = execMpush g m s st := rfl
@[simp] theorem exec_mstep (g : Guard) (m : BitVec 8) (s : Bool) (st : State) : exec (.mstep g m s) st = execMstep g m s st := rfl
@[simp] theorem exec_macc (g : Guard) (m : BitVec 8) (s : Bool) (y : RowStep) (st : State) : exec (.macc g m s y) st = execMacc g m s y st := rfl
@[simp] theorem exec_mdrain (g : Guard) (m : BitVec 8) (s : Bool) (y : RowStep) (st : State) : exec (.mdrain g m s y) st = execMdrain g m s y st := rfl
@[simp] theorem exec_mclr (g : Guard) (m : BitVec 8) (s : Bool) (st : State) : exec (.mclr g m s) st = execMclr g m s st := rfl
@[simp] theorem exec_mfill (g : Guard) (m : BitVec 8) (s : Bool) (y : RowStep) (st : State) : exec (.mfill g m s y) st = execMfill g m s y st := rfl
@[simp] theorem exec_mcfg (g : Guard) (scb : CbReg) (af : Fmt) (acc : BitVec 6) (dcb : CbReg) (df : Fmt) (rnd : Rnd) (st : State) : exec (.mcfg g scb af acc dcb df rnd) st = execMcfg g scb af acc dcb df rnd st := rfl
@[simp] theorem exec_mmode (g : Guard) (rank : Bool) (st : State) : exec (.mmode g rank) st = execMmode g rank st := rfl
@[simp] theorem exec_mrowReg (g : Guard) (a : SReg) (st : State) : exec (.mrowReg g a) st = execMrowReg g a st := rfl
@[simp] theorem exec_mrowImm (g : Guard) (k : BitVec 8) (st : State) : exec (.mrowImm g k) st = execMrowImm g k st := rfl
@[simp] theorem exec_tbind (g : Guard) (t : TbReg) (h : HReg) (o : SReg) (excl : Bool) (st : State) : exec (.tbind g t h o excl) st = execTbind g t h o excl st := rfl
@[simp] theorem exec_tunbind (g : Guard) (t : TbReg) (st : State) : exec (.tunbind g t) st = execTunbind g t st := rfl
@[simp] theorem exec_tpin (g : Guard) (t : TbReg) (st : State) : exec (.tpin g t) st = execTpin g t st := rfl
@[simp] theorem exec_tunpin (g : Guard) (t : TbReg) (st : State) : exec (.tunpin g t) st = execTunpin g t st := rfl
@[simp] theorem exec_tpf (g : Guard) (h : HReg) (o : SReg) (st : State) : exec (.tpf g h o) st = execTpf g h o st := rfl
@[simp] theorem exec_tinvAddr (g : Guard) (h : HReg) (o : SReg) (st : State) : exec (.tinvAddr g h o) st = execTinvAddr g h o st := rfl
@[simp] theorem exec_tinvBinding (g : Guard) (t : TbReg) (st : State) : exec (.tinvBinding g t) st = execTinvBinding g t st := rfl
@[simp] theorem exec_twst (g : Guard) (t : TbReg) (o : SReg) (v : BitVec 8) (st : State) : exec (.twst g t o v) st = execTwst g t o v st := rfl
@[simp] theorem exec_twstRow (g : Guard) (t : TbReg) (o : SReg) (n : CbReg) (st : State) : exec (.twstRow g t o n) st = execTwstRow g t o n st := rfl
@[simp] theorem exec_tstat (g : Guard) (t : TbReg) (d : SReg) (st : State) : exec (.tstat g t d) st = execTstat g t d st := rfl
@[simp] theorem exec_cpy (g : Guard) (t : TlReg) (a b : SReg) (fill : Bool) (x : Option W32) (st : State) : exec (.cpy g t a b fill x) st = execCpy g t a b fill x st := rfl
@[simp] theorem exec_cpy2 (g : Guard) (t : TlReg) (a : SReg) (st : State) : exec (.cpy2 g t a) st = execCpy2 g t a st := rfl
@[simp] theorem exec_gath (g : Guard) (t : TlReg) (a b : SReg) (k : BitVec 3) (x : Option W32) (st : State) : exec (.gath g t a b k x) st = execGath g t a b k x st := rfl
@[simp] theorem exec_scat (g : Guard) (t : TlReg) (a b : SReg) (k : BitVec 3) (x : Option W32) (st : State) : exec (.scat g t a b k x) st = execScat g t a b k x st := rfl
@[simp] theorem exec_kvw (g : Guard) (t : TlReg) (a : SReg) (x : Option W32) (st : State) : exec (.kvw g t a x) st = execKvw g t a x st := rfl
@[simp] theorem exec_cpyr (g : Guard) (t : TlReg) (a : SReg) (st : State) : exec (.cpyr g t a) st = execCpyr g t a st := rfl
@[simp] theorem exec_cred (g : Guard) (t : TlReg) (a : SReg) (st : State) : exec (.cred g t a) st = execCred g t a st := rfl
@[simp] theorem exec_cgath (g : Guard) (t : TlReg) (a : SReg) (st : State) : exec (.cgath g t a) st = execCgath g t a st := rfl
@[simp] theorem exec_bul (g : Guard) (t : TlReg) (a : SReg) (dup : Bool) (x : Option (BitVec 8)) (st : State) : exec (.bul g t a dup x) st = execBul g t a dup x st := rfl
@[simp] theorem exec_tlwait (g : Guard) (t : TlReg) (a : SReg) (q : PReg) (st : State) : exec (.tlwait g t a q) st = execTlwait g t a q st := rfl
@[simp] theorem exec_tlget (g : Guard) (t : TlReg) (d : SReg) (sel : TlSel) (st : State) : exec (.tlget g t d sel) st = execTlget g t d sel st := rfl
@[simp] theorem exec_tlsig (g : Guard) (t : TlReg) (a : SReg) (st : State) : exec (.tlsig g t a) st = execTlsig g t a st := rfl
@[simp] theorem exec_gjoin (g : Guard) (a b : SReg) (st : State) : exec (.gjoin g a b) st = execGjoin g a b st := rfl
@[simp] theorem exec_gleave (g : Guard) (a : SReg) (st : State) : exec (.gleave g a) st = execGleave g a st := rfl
@[simp] theorem exec_gbar (g : Guard) (a : SReg) (q : PReg) (st : State) : exec (.gbar g a q) st = execGbar g a q st := rfl
@[simp] theorem exec_gwait (g : Guard) (d : SReg) (q : PReg) (a : SReg) (st : State) : exec (.gwait g d q a) st = execGwait g d q a st := rfl
@[simp] theorem exec_tspawn (g : Guard) (a : SReg) (st : State) : exec (.tspawn g a) st = execTspawn g a st := rfl
@[simp] theorem exec_tdec (g : Guard) (a : SReg) (st : State) : exec (.tdec g a) st = execTdec g a st := rfl
@[simp] theorem exec_tarm (g : Guard) (a b : SReg) (st : State) : exec (.tarm g a b) st = execTarm g a b st := rfl
@[simp] theorem exec_moveNull (src : MoveSrc) (g : BitVec 2) (st : State) : exec (.moveNull src g) st = execMoveNull src g st := rfl
@[simp] theorem exec_moveRowk (src : MoveSrc) (g : BitVec 2) (st : State) : exec (.moveRowk src g) st = execMoveRowk src g st := rfl
@[simp] theorem exec_moveFmaA (src : MoveSrc) (g : BitVec 2) (st : State) : exec (.moveFmaA src g) st = execMoveFmaA src g st := rfl
@[simp] theorem exec_moveFmaT (src : MoveSrc) (g : BitVec 2) (st : State) : exec (.moveFmaT src g) st = execMoveFmaT src g st := rfl
@[simp] theorem exec_moveAcc (src : MoveSrc) (g : BitVec 2) (st : State) : exec (.moveAcc src g) st = execMoveAcc src g st := rfl
@[simp] theorem exec_moveOut (src : MoveSrc) (g : BitVec 2) (st : State) : exec (.moveOut src g) st = execMoveOut src g st := rfl
@[simp] theorem exec_moveLcSet (src : MoveSrc) (g : BitVec 2) (st : State) : exec (.moveLcSet src g) st = execMoveLcSet src g st := rfl
@[simp] theorem exec_moveLcT (src : MoveSrc) (g : BitVec 2) (st : State) : exec (.moveLcT src g) st = execMoveLcT src g st := rfl
@[simp] theorem exec_moveBr (src : MoveSrc) (g : BitVec 2) (st : State) : exec (.moveBr src g) st = execMoveBr src g st := rfl
@[simp] theorem exec_moveEnd (src : MoveSrc) (g : BitVec 2) (st : State) : exec (.moveEnd src g) st = execMoveEnd src g st := rfl
@[simp] theorem exec_moveAcc1 (src : MoveSrc) (g : BitVec 2) (st : State) : exec (.moveAcc1 src g) st = execMoveAcc1 src g st := rfl
@[simp] theorem exec_moveFmaT1 (src : MoveSrc) (g : BitVec 2) (st : State) : exec (.moveFmaT1 src g) st = execMoveFmaT1 src g st := rfl
@[simp] theorem exec_moveAddA (src : MoveSrc) (g : BitVec 2) (st : State) : exec (.moveAddA src g) st = execMoveAddA src g st := rfl
@[simp] theorem exec_moveAddT (src : MoveSrc) (g : BitVec 2) (st : State) : exec (.moveAddT src g) st = execMoveAddT src g st := rfl
@[simp] theorem exec_moveMulA (src : MoveSrc) (g : BitVec 2) (st : State) : exec (.moveMulA src g) st = execMoveMulA src g st := rfl
@[simp] theorem exec_moveMulT (src : MoveSrc) (g : BitVec 2) (st : State) : exec (.moveMulT src g) st = execMoveMulT src g st := rfl
@[simp] theorem exec_moveCmpA (src : MoveSrc) (g : BitVec 2) (st : State) : exec (.moveCmpA src g) st = execMoveCmpA src g st := rfl
@[simp] theorem exec_moveCmpT (src : MoveSrc) (g : BitVec 2) (st : State) : exec (.moveCmpT src g) st = execMoveCmpT src g st := rfl
@[simp] theorem exec_bundleDispatch (st : State) : exec (.bundleDispatch) st = execBundleDispatch st := rfl
@[simp] theorem exec_bundleIssue (st : State) : exec (.bundleIssue) st = execBundleIssue st := rfl
@[simp] theorem exec_syncMet (st : State) : exec (.syncMet) st = execSyncMet st := rfl
@[simp] theorem exec_resultLanding (st : State) : exec (.resultLanding) st = execResultLanding st := rfl
@[simp] theorem exec_cbFire (st : State) : exec (.cbFire) st = execCbFire st := rfl
@[simp] theorem exec_cbCountRise (st : State) : exec (.cbCountRise) st = execCbCountRise st := rfl
@[simp] theorem exec_replyArrival (st : State) : exec (.replyArrival) st = execReplyArrival st := rfl
@[simp] theorem exec_segmentExpansionComplete (st : State) : exec (.segmentExpansionComplete) st = execSegmentExpansionComplete st := rfl
@[simp] theorem exec_segmentRefillComplete (st : State) : exec (.segmentRefillComplete) st = execSegmentRefillComplete st := rfl
@[simp] theorem exec_tableSwap (st : State) : exec (.tableSwap) st = execTableSwap st := rfl
@[simp] theorem exec_xlatComplete (st : State) : exec (.xlatComplete) st = execXlatComplete st := rfl
@[simp] theorem exec_pginvWrite (st : State) : exec (.pginvWrite) st = execPginvWrite st := rfl
@[simp] theorem exec_invalidationComplete (st : State) : exec (.invalidationComplete) st = execInvalidationComplete st := rfl
@[simp] theorem exec_waymaskWrite (st : State) : exec (.waymaskWrite) st = execWaymaskWrite st := rfl
@[simp] theorem exec_felWrite (st : State) : exec (.felWrite) st = execFelWrite st := rfl
@[simp] theorem exec_mb7Write (st : State) : exec (.mb7Write) st = execMb7Write st := rfl
@[simp] theorem exec_mailboxWrite (st : State) : exec (.mailboxWrite) st = execMailboxWrite st := rfl
@[simp] theorem exec_registerWrite (st : State) : exec (.registerWrite) st = execRegisterWrite st := rfl
@[simp] theorem exec_tileFillComplete (st : State) : exec (.tileFillComplete) st = execTileFillComplete st := rfl
@[simp] theorem exec_replicaCopyComplete (st : State) : exec (.replicaCopyComplete) st = execReplicaCopyComplete st := rfl
@[simp] theorem exec_prefetchFillStart (st : State) : exec (.prefetchFillStart) st = execPrefetchFillStart st := rfl
@[simp] theorem exec_scrub (st : State) : exec (.scrub) st = execScrub st := rfl
@[simp] theorem exec_uncorrectableError (st : State) : exec (.uncorrectableError) st = execUncorrectableError st := rfl
@[simp] theorem exec_preemptionRequest (st : State) : exec (.preemptionRequest) st = execPreemptionRequest st := rfl
@[simp] theorem exec_preemption (st : State) : exec (.preemption) st = execPreemption st := rfl
@[simp] theorem exec_preemptionOverdue (st : State) : exec (.preemptionOverdue) st = execPreemptionOverdue st := rfl
@[simp] theorem exec_continuationPickup (st : State) : exec (.continuationPickup) st = execContinuationPickup st := rfl
@[simp] theorem exec_continuationKill (st : State) : exec (.continuationKill) st = execContinuationKill st := rfl
@[simp] theorem exec_readyAgeing (st : State) : exec (.readyAgeing) st = execReadyAgeing st := rfl
@[simp] theorem exec_timeSliceSwitch (st : State) : exec (.timeSliceSwitch) st = execTimeSliceSwitch st := rfl
@[simp] theorem exec_launchQueueTake (st : State) : exec (.launchQueueTake) st = execLaunchQueueTake st := rfl
@[simp] theorem exec_graphReplayStart (st : State) : exec (.graphReplayStart) st = execGraphReplayStart st := rfl
@[simp] theorem exec_graphReplayComplete (st : State) : exec (.graphReplayComplete) st = execGraphReplayComplete st := rfl
@[simp] theorem exec_nodeDecrement (st : State) : exec (.nodeDecrement) st = execNodeDecrement st := rfl
@[simp] theorem exec_nodeArm (st : State) : exec (.nodeArm) st = execNodeArm st := rfl
@[simp] theorem exec_engineCommandStart (st : State) : exec (.engineCommandStart) st = execEngineCommandStart st := rfl
@[simp] theorem exec_commandRetire (st : State) : exec (.commandRetire) st = execCommandRetire st := rfl
@[simp] theorem exec_remoteWindowWrite (st : State) : exec (.remoteWindowWrite) st = execRemoteWindowWrite st := rfl
@[simp] theorem exec_collectiveResult (st : State) : exec (.collectiveResult) st = execCollectiveResult st := rfl
@[simp] theorem exec_migration (st : State) : exec (.migration) st = execMigration st := rfl
@[simp] theorem exec_migrationPagePull (st : State) : exec (.migrationPagePull) st = execMigrationPagePull st := rfl
@[simp] theorem exec_bankUnitAccept (st : State) : exec (.bankUnitAccept) st = execBankUnitAccept st := rfl
@[simp] theorem exec_bankUnitResult (st : State) : exec (.bankUnitResult) st = execBankUnitResult st := rfl
@[simp] theorem exec_bankRequestPromotion (st : State) : exec (.bankRequestPromotion) st = execBankRequestPromotion st := rfl
@[simp] theorem exec_homeApply (st : State) : exec (.homeApply) st = execHomeApply st := rfl
@[simp] theorem exec_hotLineWithdraw (st : State) : exec (.hotLineWithdraw) st = execHotLineWithdraw st := rfl
@[simp] theorem exec_switchCombine (st : State) : exec (.switchCombine) st = execSwitchCombine st := rfl
@[simp] theorem exec_combineHoldExpiry (st : State) : exec (.combineHoldExpiry) st = execCombineHoldExpiry st := rfl
@[simp] theorem exec_combinedReplySplit (st : State) : exec (.combinedReplySplit) st = execCombinedReplySplit st := rfl
@[simp] theorem exec_sailWheelApply (st : State) : exec (.sailWheelApply) st = execSailWheelApply st := rfl
@[simp] theorem exec_rateLimitedSend (st : State) : exec (.rateLimitedSend) st = execRateLimitedSend st := rfl
@[simp] theorem exec_fabricLinkFailure (st : State) : exec (.fabricLinkFailure) st = execFabricLinkFailure st := rfl
@[simp] theorem exec_supplySag (st : State) : exec (.supplySag) st = execSupplySag st := rfl
@[simp] theorem exec_timerMatch (st : State) : exec (.timerMatch) st = execTimerMatch st := rfl
@[simp] theorem exec_faultReport (st : State) : exec (.faultReport) st = execFaultReport st := rfl
@[simp] theorem exec_bhSchedStop (st : State) : exec (.bhSchedStop) st = execBhSchedStop st := rfl
@[simp] theorem exec_bhPreempt (st : State) : exec (.bhPreempt) st = execBhPreempt st := rfl
@[simp] theorem exec_bhQuiesceAbandon (st : State) : exec (.bhQuiesceAbandon) st = execBhQuiesceAbandon st := rfl
@[simp] theorem exec_quiesceComplete (st : State) : exec (.quiesceComplete) st = execQuiesceComplete st := rfl
@[simp] theorem exec_sluiceClose (st : State) : exec (.sluiceClose) st = execSluiceClose st := rfl
@[simp] theorem exec_sluiceCloseComplete (st : State) : exec (.sluiceCloseComplete) st = execSluiceCloseComplete st := rfl
@[simp] theorem exec_retentionSave (st : State) : exec (.retentionSave) st = execRetentionSave st := rfl
@[simp] theorem exec_retentionSaveComplete (st : State) : exec (.retentionSaveComplete) st = execRetentionSaveComplete st := rfl
@[simp] theorem exec_clockGate (st : State) : exec (.clockGate) st = execClockGate st := rfl
@[simp] theorem exec_clockStopped (st : State) : exec (.clockStopped) st = execClockStopped st := rfl
@[simp] theorem exec_railOff (st : State) : exec (.railOff) st = execRailOff st := rfl
@[simp] theorem exec_railDown (st : State) : exec (.railDown) st = execRailDown st := rfl
@[simp] theorem exec_railOn (st : State) : exec (.railOn) st = execRailOn st := rfl
@[simp] theorem exec_railUp (st : State) : exec (.railUp) st = execRailUp st := rfl
@[simp] theorem exec_clockUngate (st : State) : exec (.clockUngate) st = execClockUngate st := rfl
@[simp] theorem exec_pllLock (st : State) : exec (.pllLock) st = execPllLock st := rfl
@[simp] theorem exec_bhWipe (st : State) : exec (.bhWipe) st = execBhWipe st := rfl
@[simp] theorem exec_wipeComplete (st : State) : exec (.wipeComplete) st = execWipeComplete st := rfl
@[simp] theorem exec_retentionRestore (st : State) : exec (.retentionRestore) st = execRetentionRestore st := rfl
@[simp] theorem exec_retentionRestoreComplete (st : State) : exec (.retentionRestoreComplete) st = execRetentionRestoreComplete st := rfl
@[simp] theorem exec_sluiceOpen (st : State) : exec (.sluiceOpen) st = execSluiceOpen st := rfl
@[simp] theorem exec_sluiceOpenComplete (st : State) : exec (.sluiceOpenComplete) st = execSluiceOpenComplete st := rfl
@[simp] theorem exec_bhSchedResume (st : State) : exec (.bhSchedResume) st = execBhSchedResume st := rfl
@[simp] theorem exec_bhWakeWrite (st : State) : exec (.bhWakeWrite) st = execBhWakeWrite st := rfl
@[simp] theorem exec_coreRestart (st : State) : exec (.coreRestart) st = execCoreRestart st := rfl
@[simp] theorem exec_pwrlimWrite (st : State) : exec (.pwrlimWrite) st = execPwrlimWrite st := rfl
@[simp] theorem exec_ptabWrite (st : State) : exec (.ptabWrite) st = execPtabWrite st := rfl
@[simp] theorem exec_contextDescriptorWrite (st : State) : exec (.contextDescriptorWrite) st = execContextDescriptorWrite st := rfl
@[simp] theorem exec_bhReset (st : State) : exec (.bhReset) st = execBhReset st := rfl
@[simp] theorem exec_gkeyDestroy (st : State) : exec (.gkeyDestroy) st = execGkeyDestroy st := rfl
@[simp] theorem exec_lifecycleRequest (st : State) : exec (.lifecycleRequest) st = execLifecycleRequest st := rfl
@[simp] theorem exec_moduleReset (st : State) : exec (.moduleReset) st = execModuleReset st := rfl
@[simp] theorem exec_lifetimeCounterCommit (st : State) : exec (.lifetimeCounterCommit) st = execLifetimeCounterCommit st := rfl
@[simp] theorem exec_vfWake (st : State) : exec (.vfWake) st = execVfWake st := rfl
@[simp] theorem exec_vfHinv (st : State) : exec (.vfHinv) st = execVfHinv st := rfl
@[simp] theorem exec_consentSubmit (st : State) : exec (.consentSubmit) st = execConsentSubmit st := rfl
@[simp] theorem exec_attestationRequest (st : State) : exec (.attestationRequest) st = execAttestationRequest st := rfl
@[simp] theorem exec_atsInvalidation (st : State) : exec (.atsInvalidation) st = execAtsInvalidation st := rfl
@[simp] theorem exec_vfFlr (st : State) : exec (.vfFlr) st = execVfFlr st := rfl
@[simp] theorem exec_pfFlr (st : State) : exec (.pfFlr) st = execPfFlr st := rfl
@[simp] theorem exec_peerRequest (st : State) : exec (.peerRequest) st = execPeerRequest st := rfl
@[simp] theorem exec_scairHeartbeat (st : State) : exec (.scairHeartbeat) st = execScairHeartbeat st := rfl
@[simp] theorem exec_scairXoff (st : State) : exec (.scairXoff) st = execScairXoff st := rfl
@[simp] theorem exec_scairXon (st : State) : exec (.scairXon) st = execScairXon st := rfl
@[simp] theorem exec_scairReplayRequest (st : State) : exec (.scairReplayRequest) st = execScairReplayRequest st := rfl
@[simp] theorem exec_scairLinkDown (st : State) : exec (.scairLinkDown) st = execScairLinkDown st := rfl
@[simp] theorem exec_scairFlitCrcFailure (st : State) : exec (.scairFlitCrcFailure) st = execScairFlitCrcFailure st := rfl
@[simp] theorem exec_orderlyPowerDown (st : State) : exec (.orderlyPowerDown) st = execOrderlyPowerDown st := rfl
@[simp] theorem exec_migrationBackgroundPush (st : State) : exec (.migrationBackgroundPush) st = execMigrationBackgroundPush st := rfl
@[simp] theorem exec_debugFreezeResume (st : State) : exec (.debugFreezeResume) st = execDebugFreezeResume st := rfl

end Sys2Proof.Laws
end

