-- ==== Sys2Proof/Laws/Store.lean ====
section
/-! SUPPORT. Sparse tables and memory: a read after a write, and the canonical form of memory. -/

set_option Elab.async false

namespace Sys2Proof.Laws
open Sys2Proof.Machine

/-! Sparse tables. -/

@[simp] theorem mget_mput_self {α : Type} (d : α) (m : SMap α) (k : Nat) (v : α) : mget d (mput m k v) k = v := by
  induction m with
  | nil => simp [mput, mget]
  | cons e m ih =>
    obtain ⟨j, w⟩ := e
    simp only [mput]
    split
    · simp [mget]
    · split <;> simp_all [mget]

theorem mget_mput_other {α : Type} (d : α) (m : SMap α) {k j : Nat} (v : α) (h : j ≠ k) : mget d (mput m k v) j = mget d m j := by
  induction m with
  | nil => simp [mput, mget, Ne.symm h]
  | cons e m ih =>
    obtain ⟨i, w⟩ := e
    simp only [mput]
    split
    · simp [mget, Ne.symm h]
    · split
      · rename_i h2; subst h2; simp [mget, Ne.symm h]
      · simp only [mget]; split <;> simp_all

theorem mget_merase_other {α : Type} (d : α) (m : SMap α) {k j : Nat} (h : j ≠ k) : mget d (merase m k) j = mget d m j := by
  induction m with
  | nil => rfl
  | cons e m ih =>
    obtain ⟨i, w⟩ := e
    simp only [merase]
    split
    · rename_i h2; subst h2; simp [mget, Ne.symm h, ih]
    · simp only [mget]; split <;> simp_all

@[simp] theorem mget_merase_self {α : Type} (d : α) (m : SMap α) (k : Nat) : mget d (merase m k) k = d := by
  induction m with
  | nil => rfl
  | cons e m ih =>
    obtain ⟨i, w⟩ := e
    simp only [merase]
    split
    · exact ih
    · rename_i h; simp only [mget, if_neg h]; exact ih

@[simp] theorem mget_mset_self {α : Type} [DecidableEq α] (d : α) (m : SMap α) (k : Nat) (v : α) : mget d (mset d m k v) k = v := by
  simp only [mset]; split
  · rename_i h; rw [h]; exact mget_merase_self d m k
  · exact mget_mput_self d m k v

theorem mget_mset_other {α : Type} [DecidableEq α] (d : α) (m : SMap α) {k j : Nat} (v : α) (h : j ≠ k) : mget d (mset d m k v) j = mget d m j := by
  simp only [mset]; split
  · exact mget_merase_other d m h
  · exact mget_mput_other d m v h

theorem mput_mput {α : Type} (m : SMap α) (k : Nat) (v w : α) : mput (mput m k v) k w = mput m k w := by
  induction m with
  | nil => simp [mput]
  | cons e m ih =>
    obtain ⟨i, x⟩ := e
    by_cases h1 : k < i
    · simp [mput, h1]
    · by_cases h2 : i = k
      · simp [mput, h2]
      · simp [mput, h1, h2, ih]

/-! Memory (R3): the canonical form, and one byte after a write. -/

theorem wfFrom_mono {lo hi : Nat} (h : hi ≤ lo) (m : Memory) (hm : Memory.wfFrom lo m = true) : Memory.wfFrom hi m = true := by
  cases m with
  | nil => rfl
  | cons c m =>
    obtain ⟨x, b⟩ := c
    simp only [Memory.wfFrom, Bool.and_eq_true, decide_eq_true_eq] at *
    exact ⟨⟨by omega, hm.1.2⟩, hm.2⟩

theorem wfFrom_dropWhile (a lo : Nat) (m : Memory) (h : Memory.wfFrom lo m = true) :
    Memory.wfFrom a (m.dropWhile (fun c => c.1 < a)) = true := by
  induction m generalizing lo with
  | nil => rfl
  | cons c m ih =>
    obtain ⟨x, b⟩ := c
    have h0 := h
    simp only [Memory.wfFrom, Bool.and_eq_true, decide_eq_true_eq] at h
    by_cases hx : x < a
    · simp only [List.dropWhile, hx, decide_true]; exact ih (x + 1) h.2
    · simp only [List.dropWhile, hx, decide_false, Memory.wfFrom, Bool.and_eq_true, decide_eq_true_eq]
      exact ⟨⟨by omega, h.1.2⟩, h.2⟩

theorem wfFrom_cells (a : Nat) (bs : List Byte) (m : Memory) (h : Memory.wfFrom (a + bs.length) m = true) :
    Memory.wfFrom a (Memory.cells a bs ++ m) = true := by
  induction bs generalizing a with
  | nil => simpa [Memory.cells] using h
  | cons b bs ih =>
    have h1 := ih (a + 1) (by simp only [List.length_cons] at h; rwa [show a + 1 + bs.length = a + (bs.length + 1) by omega])
    simp only [Memory.cells]
    split
    · exact wfFrom_mono (Nat.le_succ a) _ h1
    · rename_i hb
      simp only [List.cons_append, Memory.wfFrom, Bool.and_eq_true, decide_eq_true_eq]
      exact ⟨⟨Nat.le_refl _, by simpa using hb⟩, h1⟩

theorem wfFrom_takeWhile (a lo : Nat) (m n : Memory) (h : Memory.wfFrom lo m = true) (hlo : lo ≤ a) (hn : Memory.wfFrom a n = true) :
    Memory.wfFrom lo (m.takeWhile (fun c => c.1 < a) ++ n) = true := by
  induction m generalizing lo with
  | nil => simpa using wfFrom_mono hlo n hn
  | cons c m ih =>
    obtain ⟨x, b⟩ := c
    simp only [Memory.wfFrom, Bool.and_eq_true, decide_eq_true_eq] at h
    by_cases hx : x < a
    · simp only [List.takeWhile, hx, decide_true, List.cons_append, Memory.wfFrom, Bool.and_eq_true, decide_eq_true_eq]
      exact ⟨h.1, ih (x + 1) h.2 (by omega)⟩
    · simp only [List.takeWhile, hx, decide_false, List.nil_append]; exact wfFrom_mono hlo n hn

/-- A write keeps the canonical form. -/
theorem write_wf (m : Memory) (a : Nat) (bs : List Byte) (h : m.wf = true) : (m.write a bs).wf = true := by
  simp only [Memory.wf, Memory.write, List.append_assoc] at *
  exact wfFrom_takeWhile a 0 m _ h (Nat.zero_le _) (wfFrom_cells a bs _ (wfFrom_dropWhile _ 0 m h))

theorem filter_wfFrom (p : Host.Cell → Bool) (lo : Nat) (m : Memory) (h : Memory.wfFrom lo m = true) : Memory.wfFrom lo (m.filter p) = true := by
  induction m generalizing lo with
  | nil => rfl
  | cons c m ih =>
    obtain ⟨x, b⟩ := c
    simp only [Memory.wfFrom, Bool.and_eq_true, decide_eq_true_eq] at h
    simp only [List.filter]
    split
    · simp only [Memory.wfFrom, Bool.and_eq_true, decide_eq_true_eq]; exact ⟨h.1, ih (x + 1) h.2⟩
    · exact wfFrom_mono (by omega) _ (ih (x + 1) h.2)
/-- Leaving cells out keeps the canonical form. -/
theorem filter_wf (p : Host.Cell → Bool) (m : Memory) (h : m.wf = true) : Memory.wf (m.filter p) = true := filter_wfFrom p 0 m h

theorem byte_low {lo a : Nat} (m : Memory) (h : Memory.wfFrom lo m = true) (ha : a < lo) : m.byte a = 0 := by
  induction m generalizing lo with
  | nil => rfl
  | cons c m ih =>
    obtain ⟨x, b⟩ := c
    simp only [Memory.wfFrom, Bool.and_eq_true, decide_eq_true_eq] at h
    simp only [Memory.byte]
    split
    · omega
    · exact ih h.2 (by omega)

theorem byte_cells_outside (a x : Nat) (bs : List Byte) (m : Memory) (h : x < a ∨ a + bs.length ≤ x) :
    Memory.byte (Memory.cells a bs ++ m) x = m.byte x := by
  induction bs generalizing a with
  | nil => simp [Memory.cells]
  | cons b bs ih =>
    simp only [List.length_cons] at h
    simp only [Memory.cells]
    split
    · exact ih (a + 1) (by omega)
    · simp only [List.cons_append, Memory.byte]
      split
      · omega
      · exact ih (a + 1) (by omega)

theorem byte_cells_inside (a i : Nat) (bs : List Byte) (m : Memory) (hm : Memory.wfFrom (a + bs.length) m = true) (h : i < bs.length) :
    Memory.byte (Memory.cells a bs ++ m) (a + i) = bs.getD i 0 := by
  induction bs generalizing a i with
  | nil => simp at h
  | cons b bs ih =>
    simp only [List.length_cons] at h hm
    have hm' : Memory.wfFrom (a + 1 + bs.length) m = true := by rwa [show a + 1 + bs.length = a + (bs.length + 1) by omega]
    have hrest := wfFrom_cells (a + 1) bs m hm'
    cases i with
    | zero =>
      simp only [Memory.cells]
      split
      · rename_i hb; simp only [Nat.add_zero, List.getD_cons_zero]; rw [hb]; exact byte_low _ hrest (by omega)
      · simp [Memory.byte]
    | succ i =>
      have := ih (a + 1) i hm' (by omega)
      rw [show a + (i + 1) = a + 1 + i by omega]
      simp only [Memory.cells]
      split
      · simpa using this
      · simp only [List.cons_append, Memory.byte]
        split
        · omega
        · simpa using this

theorem byte_takeWhile_low (a x : Nat) (m n : Memory) (hx : x < a) (hn : Memory.wfFrom a n = true) (lo : Nat) (h : Memory.wfFrom lo m = true) :
    Memory.byte (m.takeWhile (fun c => c.1 < a) ++ n) x = m.byte x := by
  induction m generalizing lo with
  | nil => simpa [Memory.byte] using byte_low n hn hx
  | cons c m ih =>
    obtain ⟨y, b⟩ := c
    simp only [Memory.wfFrom, Bool.and_eq_true, decide_eq_true_eq] at h
    by_cases hy : y < a
    · simp only [List.takeWhile, hy, decide_true, List.cons_append, Memory.byte]
      split
      · rfl
      · exact ih (y + 1) h.2
    · simp only [List.takeWhile, hy, decide_false, List.nil_append, Memory.byte]
      split
      · omega
      · rw [byte_low n hn hx, byte_low m h.2 (by omega)]

theorem byte_takeWhile_high (a x : Nat) (m n : Memory) (hx : a ≤ x) :
    Memory.byte (m.takeWhile (fun c => c.1 < a) ++ n) x = n.byte x := by
  induction m with
  | nil => rfl
  | cons c m ih =>
    obtain ⟨y, b⟩ := c
    by_cases hy : y < a
    · simp only [List.takeWhile, hy, decide_true, List.cons_append, Memory.byte]
      split
      · omega
      · exact ih
    · simp [List.takeWhile, hy]

theorem byte_dropWhile (a x : Nat) (m : Memory) (hx : a ≤ x) : Memory.byte (m.dropWhile (fun c => c.1 < a)) x = m.byte x := by
  induction m with
  | nil => rfl
  | cons c m ih =>
    obtain ⟨y, b⟩ := c
    by_cases hy : y < a
    · simp only [List.dropWhile, hy, decide_true, Memory.byte]
      split
      · omega
      · exact ih
    · simp [List.dropWhile, hy]

/-- A write leaves every byte outside its range alone. -/
theorem byte_write_outside (m : Memory) (a x : Nat) (bs : List Byte) (hm : m.wf = true) (h : x < a ∨ a + bs.length ≤ x) :
    (m.write a bs).byte x = m.byte x := by
  have hd := wfFrom_dropWhile (a + bs.length) 0 m hm
  simp only [Memory.write, List.append_assoc]
  rcases h with h | h
  · exact byte_takeWhile_low a x m _ h (wfFrom_cells a bs _ hd) 0 hm
  · rw [byte_takeWhile_high a x m _ (by omega), byte_cells_outside a x bs _ (Or.inr h), byte_dropWhile _ _ _ h]

/-- A write puts its bytes where it says. -/
theorem byte_write_inside (m : Memory) (a i : Nat) (bs : List Byte) (hm : m.wf = true) (h : i < bs.length) :
    (m.write a bs).byte (a + i) = bs.getD i 0 := by
  simp only [Memory.write, List.append_assoc]
  rw [byte_takeWhile_high a _ m _ (by omega)]
  exact byte_cells_inside a i bs _ (wfFrom_dropWhile _ 0 m hm) h

end Sys2Proof.Laws
end

