-- ==== Sys2Proof/Laws/State.lean ====
section
/-! SUPPORT. The fields of the state after each update, one lemma per field that a proof needs. -/

set_option Elab.async false

namespace Sys2Proof.Laws
open Sys2Proof.Machine Sys2Proof

/-! Cores. -/

@[simp] theorem core_setCore (s : State) (c : Nat) (k : Core) : (s.setCore c k).core c = k := mget_mput_self _ _ _ _
theorem core_setCore_other (s : State) {c d : Nat} (k : Core) (h : d ≠ c) : (s.setCore c k).core d = s.core d := mget_mput_other _ _ _ h
@[simp] theorem core_modCore (s : State) (c : Nat) (f : Core → Core) : (s.modCore c f).core c = f (s.core c) := core_setCore _ _ _
theorem core_modCore_other (s : State) {c d : Nat} (f : Core → Core) (h : d ≠ c) : (s.modCore c f).core d = s.core d := core_setCore_other _ _ h
@[simp] theorem setCore_setCore (s : State) (c : Nat) (j k : Core) : (s.setCore c j).setCore c k = s.setCore c k := by
  simp [State.setCore, mput_mput]
@[simp] theorem me_setMe (s : State) (k : Core) : (s.setMe k).me = k := core_setCore _ _ _
@[simp] theorem me_modMe (s : State) (f : Core → Core) : (s.modMe f).me = f s.me := me_setMe _ _
@[simp] theorem me_setCore (s : State) (k : Core) : (s.setCore s.cur k).me = k := core_setCore _ _ _
@[simp] theorem core_me (s : State) : s.core s.cur = s.me := rfl

/-! Fields that the updates leave alone. -/

@[simp] theorem setCore_mem (s : State) (c : Nat) (k : Core) : (s.setCore c k).mem = s.mem := rfl
@[simp] theorem modCore_mem (s : State) (c : Nat) (f : Core → Core) : (s.modCore c f).mem = s.mem := rfl
@[simp] theorem modMe_mem (s : State) (f : Core → Core) : (s.modMe f).mem = s.mem := rfl
@[simp] theorem stall_mem (s : State) : s.stall.mem = s.mem := rfl
@[simp] theorem emit_mem (s : State) (lat : Nat) (x : Landing) (kind : Nat) (p : Bool) (va hnd gen : Nat) : (s.emit lat x kind p va hnd gen).mem = s.mem := rfl
@[simp] theorem pend_mem (s : State) (i : Instr) (a : EvArgs) : (s.pend i a).mem = s.mem := rfl
@[simp] theorem setCore_poison (s : State) (c : Nat) (k : Core) : (s.setCore c k).poison = s.poison := rfl
@[simp] theorem modCore_poison (s : State) (c : Nat) (f : Core → Core) : (s.modCore c f).poison = s.poison := rfl
@[simp] theorem modMe_poison (s : State) (f : Core → Core) : (s.modMe f).poison = s.poison := rfl
@[simp] theorem stall_poison (s : State) : s.stall.poison = s.poison := rfl
@[simp] theorem emit_poison (s : State) (lat : Nat) (x : Landing) (kind : Nat) (p : Bool) (va hnd gen : Nat) : (s.emit lat x kind p va hnd gen).poison = s.poison := rfl
@[simp] theorem pend_poison (s : State) (i : Instr) (a : EvArgs) : (s.pend i a).poison = s.poison := rfl
@[simp] theorem setCore_epochs (s : State) (c : Nat) (k : Core) : (s.setCore c k).epochs = s.epochs := rfl
@[simp] theorem modCore_epochs (s : State) (c : Nat) (f : Core → Core) : (s.modCore c f).epochs = s.epochs := rfl
@[simp] theorem modMe_epochs (s : State) (f : Core → Core) : (s.modMe f).epochs = s.epochs := rfl
@[simp] theorem stall_epochs (s : State) : s.stall.epochs = s.epochs := rfl
@[simp] theorem emit_epochs (s : State) (lat : Nat) (x : Landing) (kind : Nat) (p : Bool) (va hnd gen : Nat) : (s.emit lat x kind p va hnd gen).epochs = s.epochs := rfl
@[simp] theorem pend_epochs (s : State) (i : Instr) (a : EvArgs) : (s.pend i a).epochs = s.epochs := rfl
@[simp] theorem setCore_bulks (s : State) (c : Nat) (k : Core) : (s.setCore c k).bulks = s.bulks := rfl
@[simp] theorem modCore_bulks (s : State) (c : Nat) (f : Core → Core) : (s.modCore c f).bulks = s.bulks := rfl
@[simp] theorem modMe_bulks (s : State) (f : Core → Core) : (s.modMe f).bulks = s.bulks := rfl
@[simp] theorem stall_bulks (s : State) : s.stall.bulks = s.bulks := rfl
@[simp] theorem emit_bulks (s : State) (lat : Nat) (x : Landing) (kind : Nat) (p : Bool) (va hnd gen : Nat) : (s.emit lat x kind p va hnd gen).bulks = s.bulks := rfl
@[simp] theorem pend_bulks (s : State) (i : Instr) (a : EvArgs) : (s.pend i a).bulks = s.bulks := rfl
@[simp] theorem setCore_hub (s : State) (c : Nat) (k : Core) : (s.setCore c k).hub = s.hub := rfl
@[simp] theorem modCore_hub (s : State) (c : Nat) (f : Core → Core) : (s.modCore c f).hub = s.hub := rfl
@[simp] theorem modMe_hub (s : State) (f : Core → Core) : (s.modMe f).hub = s.hub := rfl
@[simp] theorem stall_hub (s : State) : s.stall.hub = s.hub := rfl
@[simp] theorem emit_hub (s : State) (lat : Nat) (x : Landing) (kind : Nat) (p : Bool) (va hnd gen : Nat) : (s.emit lat x kind p va hnd gen).hub = s.hub := rfl
@[simp] theorem pend_hub (s : State) (i : Instr) (a : EvArgs) : (s.pend i a).hub = s.hub := rfl
@[simp] theorem setCore_buctl (s : State) (c : Nat) (k : Core) : (s.setCore c k).buctl = s.buctl := rfl
@[simp] theorem modCore_buctl (s : State) (c : Nat) (f : Core → Core) : (s.modCore c f).buctl = s.buctl := rfl
@[simp] theorem modMe_buctl (s : State) (f : Core → Core) : (s.modMe f).buctl = s.buctl := rfl
@[simp] theorem stall_buctl (s : State) : s.stall.buctl = s.buctl := rfl
@[simp] theorem emit_buctl (s : State) (lat : Nat) (x : Landing) (kind : Nat) (p : Bool) (va hnd gen : Nat) : (s.emit lat x kind p va hnd gen).buctl = s.buctl := rfl
@[simp] theorem pend_buctl (s : State) (i : Instr) (a : EvArgs) : (s.pend i a).buctl = s.buctl := rfl
@[simp] theorem setCore_engines (s : State) (c : Nat) (k : Core) : (s.setCore c k).engines = s.engines := rfl
@[simp] theorem modCore_engines (s : State) (c : Nat) (f : Core → Core) : (s.modCore c f).engines = s.engines := rfl
@[simp] theorem modMe_engines (s : State) (f : Core → Core) : (s.modMe f).engines = s.engines := rfl
@[simp] theorem stall_engines (s : State) : s.stall.engines = s.engines := rfl
@[simp] theorem emit_engines (s : State) (lat : Nat) (x : Landing) (kind : Nat) (p : Bool) (va hnd gen : Nat) : (s.emit lat x kind p va hnd gen).engines = s.engines := rfl
@[simp] theorem pend_engines (s : State) (i : Instr) (a : EvArgs) : (s.pend i a).engines = s.engines := rfl
@[simp] theorem setCore_ready (s : State) (c : Nat) (k : Core) : (s.setCore c k).ready = s.ready := rfl
@[simp] theorem modCore_ready (s : State) (c : Nat) (f : Core → Core) : (s.modCore c f).ready = s.ready := rfl
@[simp] theorem modMe_ready (s : State) (f : Core → Core) : (s.modMe f).ready = s.ready := rfl
@[simp] theorem stall_ready (s : State) : s.stall.ready = s.ready := rfl
@[simp] theorem emit_ready (s : State) (lat : Nat) (x : Landing) (kind : Nat) (p : Bool) (va hnd gen : Nat) : (s.emit lat x kind p va hnd gen).ready = s.ready := rfl
@[simp] theorem pend_ready (s : State) (i : Instr) (a : EvArgs) : (s.pend i a).ready = s.ready := rfl
@[simp] theorem setCore_queues (s : State) (c : Nat) (k : Core) : (s.setCore c k).queues = s.queues := rfl
@[simp] theorem modCore_queues (s : State) (c : Nat) (f : Core → Core) : (s.modCore c f).queues = s.queues := rfl
@[simp] theorem modMe_queues (s : State) (f : Core → Core) : (s.modMe f).queues = s.queues := rfl
@[simp] theorem stall_queues (s : State) : s.stall.queues = s.queues := rfl
@[simp] theorem emit_queues (s : State) (lat : Nat) (x : Landing) (kind : Nat) (p : Bool) (va hnd gen : Nat) : (s.emit lat x kind p va hnd gen).queues = s.queues := rfl
@[simp] theorem pend_queues (s : State) (i : Instr) (a : EvArgs) : (s.pend i a).queues = s.queues := rfl
@[simp] theorem setCore_replays (s : State) (c : Nat) (k : Core) : (s.setCore c k).replays = s.replays := rfl
@[simp] theorem modCore_replays (s : State) (c : Nat) (f : Core → Core) : (s.modCore c f).replays = s.replays := rfl
@[simp] theorem modMe_replays (s : State) (f : Core → Core) : (s.modMe f).replays = s.replays := rfl
@[simp] theorem stall_replays (s : State) : s.stall.replays = s.replays := rfl
@[simp] theorem emit_replays (s : State) (lat : Nat) (x : Landing) (kind : Nat) (p : Bool) (va hnd gen : Nat) : (s.emit lat x kind p va hnd gen).replays = s.replays := rfl
@[simp] theorem pend_replays (s : State) (i : Instr) (a : EvArgs) : (s.pend i a).replays = s.replays := rfl
@[simp] theorem setCore_nodeOwner (s : State) (c : Nat) (k : Core) : (s.setCore c k).nodeOwner = s.nodeOwner := rfl
@[simp] theorem modCore_nodeOwner (s : State) (c : Nat) (f : Core → Core) : (s.modCore c f).nodeOwner = s.nodeOwner := rfl
@[simp] theorem modMe_nodeOwner (s : State) (f : Core → Core) : (s.modMe f).nodeOwner = s.nodeOwner := rfl
@[simp] theorem stall_nodeOwner (s : State) : s.stall.nodeOwner = s.nodeOwner := rfl
@[simp] theorem emit_nodeOwner (s : State) (lat : Nat) (x : Landing) (kind : Nat) (p : Bool) (va hnd gen : Nat) : (s.emit lat x kind p va hnd gen).nodeOwner = s.nodeOwner := rfl
@[simp] theorem pend_nodeOwner (s : State) (i : Instr) (a : EvArgs) : (s.pend i a).nodeOwner = s.nodeOwner := rfl
@[simp] theorem setCore_groups (s : State) (c : Nat) (k : Core) : (s.setCore c k).groups = s.groups := rfl
@[simp] theorem modCore_groups (s : State) (c : Nat) (f : Core → Core) : (s.modCore c f).groups = s.groups := rfl
@[simp] theorem modMe_groups (s : State) (f : Core → Core) : (s.modMe f).groups = s.groups := rfl
@[simp] theorem stall_groups (s : State) : s.stall.groups = s.groups := rfl
@[simp] theorem emit_groups (s : State) (lat : Nat) (x : Landing) (kind : Nat) (p : Bool) (va hnd gen : Nat) : (s.emit lat x kind p va hnd gen).groups = s.groups := rfl
@[simp] theorem pend_groups (s : State) (i : Instr) (a : EvArgs) : (s.pend i a).groups = s.groups := rfl
@[simp] theorem setCore_contribs (s : State) (c : Nat) (k : Core) : (s.setCore c k).contribs = s.contribs := rfl
@[simp] theorem modCore_contribs (s : State) (c : Nat) (f : Core → Core) : (s.modCore c f).contribs = s.contribs := rfl
@[simp] theorem modMe_contribs (s : State) (f : Core → Core) : (s.modMe f).contribs = s.contribs := rfl
@[simp] theorem stall_contribs (s : State) : s.stall.contribs = s.contribs := rfl
@[simp] theorem emit_contribs (s : State) (lat : Nat) (x : Landing) (kind : Nat) (p : Bool) (va hnd gen : Nat) : (s.emit lat x kind p va hnd gen).contribs = s.contribs := rfl
@[simp] theorem pend_contribs (s : State) (i : Instr) (a : EvArgs) : (s.pend i a).contribs = s.contribs := rfl
@[simp] theorem setCore_lines (s : State) (c : Nat) (k : Core) : (s.setCore c k).lines = s.lines := rfl
@[simp] theorem modCore_lines (s : State) (c : Nat) (f : Core → Core) : (s.modCore c f).lines = s.lines := rfl
@[simp] theorem modMe_lines (s : State) (f : Core → Core) : (s.modMe f).lines = s.lines := rfl
@[simp] theorem stall_lines (s : State) : s.stall.lines = s.lines := rfl
@[simp] theorem emit_lines (s : State) (lat : Nat) (x : Landing) (kind : Nat) (p : Bool) (va hnd gen : Nat) : (s.emit lat x kind p va hnd gen).lines = s.lines := rfl
@[simp] theorem pend_lines (s : State) (i : Instr) (a : EvArgs) : (s.pend i a).lines = s.lines := rfl
@[simp] theorem setCore_redirects (s : State) (c : Nat) (k : Core) : (s.setCore c k).redirects = s.redirects := rfl
@[simp] theorem modCore_redirects (s : State) (c : Nat) (f : Core → Core) : (s.modCore c f).redirects = s.redirects := rfl
@[simp] theorem modMe_redirects (s : State) (f : Core → Core) : (s.modMe f).redirects = s.redirects := rfl
@[simp] theorem stall_redirects (s : State) : s.stall.redirects = s.redirects := rfl
@[simp] theorem emit_redirects (s : State) (lat : Nat) (x : Landing) (kind : Nat) (p : Bool) (va hnd gen : Nat) : (s.emit lat x kind p va hnd gen).redirects = s.redirects := rfl
@[simp] theorem pend_redirects (s : State) (i : Instr) (a : EvArgs) : (s.pend i a).redirects = s.redirects := rfl
@[simp] theorem setCore_l2tree (s : State) (c : Nat) (k : Core) : (s.setCore c k).l2tree = s.l2tree := rfl
@[simp] theorem modCore_l2tree (s : State) (c : Nat) (f : Core → Core) : (s.modCore c f).l2tree = s.l2tree := rfl
@[simp] theorem modMe_l2tree (s : State) (f : Core → Core) : (s.modMe f).l2tree = s.l2tree := rfl
@[simp] theorem stall_l2tree (s : State) : s.stall.l2tree = s.l2tree := rfl
@[simp] theorem emit_l2tree (s : State) (lat : Nat) (x : Landing) (kind : Nat) (p : Bool) (va hnd gen : Nat) : (s.emit lat x kind p va hnd gen).l2tree = s.l2tree := rfl
@[simp] theorem pend_l2tree (s : State) (i : Instr) (a : EvArgs) : (s.pend i a).l2tree = s.l2tree := rfl
@[simp] theorem setCore_pins (s : State) (c : Nat) (k : Core) : (s.setCore c k).pins = s.pins := rfl
@[simp] theorem modCore_pins (s : State) (c : Nat) (f : Core → Core) : (s.modCore c f).pins = s.pins := rfl
@[simp] theorem modMe_pins (s : State) (f : Core → Core) : (s.modMe f).pins = s.pins := rfl
@[simp] theorem stall_pins (s : State) : s.stall.pins = s.pins := rfl
@[simp] theorem emit_pins (s : State) (lat : Nat) (x : Landing) (kind : Nat) (p : Bool) (va hnd gen : Nat) : (s.emit lat x kind p va hnd gen).pins = s.pins := rfl
@[simp] theorem pend_pins (s : State) (i : Instr) (a : EvArgs) : (s.pend i a).pins = s.pins := rfl
@[simp] theorem setCore_fabric (s : State) (c : Nat) (k : Core) : (s.setCore c k).fabric = s.fabric := rfl
@[simp] theorem modCore_fabric (s : State) (c : Nat) (f : Core → Core) : (s.modCore c f).fabric = s.fabric := rfl
@[simp] theorem modMe_fabric (s : State) (f : Core → Core) : (s.modMe f).fabric = s.fabric := rfl
@[simp] theorem stall_fabric (s : State) : s.stall.fabric = s.fabric := rfl
@[simp] theorem emit_fabric (s : State) (lat : Nat) (x : Landing) (kind : Nat) (p : Bool) (va hnd gen : Nat) : (s.emit lat x kind p va hnd gen).fabric = s.fabric := rfl
@[simp] theorem pend_fabric (s : State) (i : Instr) (a : EvArgs) : (s.pend i a).fabric = s.fabric := rfl
@[simp] theorem setCore_replies (s : State) (c : Nat) (k : Core) : (s.setCore c k).replies = s.replies := rfl
@[simp] theorem modCore_replies (s : State) (c : Nat) (f : Core → Core) : (s.modCore c f).replies = s.replies := rfl
@[simp] theorem modMe_replies (s : State) (f : Core → Core) : (s.modMe f).replies = s.replies := rfl
@[simp] theorem stall_replies (s : State) : s.stall.replies = s.replies := rfl
@[simp] theorem emit_replies (s : State) (lat : Nat) (x : Landing) (kind : Nat) (p : Bool) (va hnd gen : Nat) : (s.emit lat x kind p va hnd gen).replies = s.replies := rfl
@[simp] theorem pend_replies (s : State) (i : Instr) (a : EvArgs) : (s.pend i a).replies = s.replies := rfl
@[simp] theorem setCore_nextReq (s : State) (c : Nat) (k : Core) : (s.setCore c k).nextReq = s.nextReq := rfl
@[simp] theorem modCore_nextReq (s : State) (c : Nat) (f : Core → Core) : (s.modCore c f).nextReq = s.nextReq := rfl
@[simp] theorem modMe_nextReq (s : State) (f : Core → Core) : (s.modMe f).nextReq = s.nextReq := rfl
@[simp] theorem stall_nextReq (s : State) : s.stall.nextReq = s.nextReq := rfl
@[simp] theorem emit_nextReq (s : State) (lat : Nat) (x : Landing) (kind : Nat) (p : Bool) (va hnd gen : Nat) : (s.emit lat x kind p va hnd gen).nextReq = s.nextReq := rfl
@[simp] theorem pend_nextReq (s : State) (i : Instr) (a : EvArgs) : (s.pend i a).nextReq = s.nextReq := rfl
@[simp] theorem setCore_banks (s : State) (c : Nat) (k : Core) : (s.setCore c k).banks = s.banks := rfl
@[simp] theorem modCore_banks (s : State) (c : Nat) (f : Core → Core) : (s.modCore c f).banks = s.banks := rfl
@[simp] theorem modMe_banks (s : State) (f : Core → Core) : (s.modMe f).banks = s.banks := rfl
@[simp] theorem stall_banks (s : State) : s.stall.banks = s.banks := rfl
@[simp] theorem emit_banks (s : State) (lat : Nat) (x : Landing) (kind : Nat) (p : Bool) (va hnd gen : Nat) : (s.emit lat x kind p va hnd gen).banks = s.banks := rfl
@[simp] theorem pend_banks (s : State) (i : Instr) (a : EvArgs) : (s.pend i a).banks = s.banks := rfl
@[simp] theorem setCore_vfs (s : State) (c : Nat) (k : Core) : (s.setCore c k).vfs = s.vfs := rfl
@[simp] theorem modCore_vfs (s : State) (c : Nat) (f : Core → Core) : (s.modCore c f).vfs = s.vfs := rfl
@[simp] theorem modMe_vfs (s : State) (f : Core → Core) : (s.modMe f).vfs = s.vfs := rfl
@[simp] theorem stall_vfs (s : State) : s.stall.vfs = s.vfs := rfl
@[simp] theorem emit_vfs (s : State) (lat : Nat) (x : Landing) (kind : Nat) (p : Bool) (va hnd gen : Nat) : (s.emit lat x kind p va hnd gen).vfs = s.vfs := rfl
@[simp] theorem pend_vfs (s : State) (i : Instr) (a : EvArgs) : (s.pend i a).vfs = s.vfs := rfl
@[simp] theorem setCore_ports (s : State) (c : Nat) (k : Core) : (s.setCore c k).ports = s.ports := rfl
@[simp] theorem modCore_ports (s : State) (c : Nat) (f : Core → Core) : (s.modCore c f).ports = s.ports := rfl
@[simp] theorem modMe_ports (s : State) (f : Core → Core) : (s.modMe f).ports = s.ports := rfl
@[simp] theorem stall_ports (s : State) : s.stall.ports = s.ports := rfl
@[simp] theorem emit_ports (s : State) (lat : Nat) (x : Landing) (kind : Nat) (p : Bool) (va hnd gen : Nat) : (s.emit lat x kind p va hnd gen).ports = s.ports := rfl
@[simp] theorem pend_ports (s : State) (i : Instr) (a : EvArgs) : (s.pend i a).ports = s.ports := rfl
@[simp] theorem setCore_peers (s : State) (c : Nat) (k : Core) : (s.setCore c k).peers = s.peers := rfl
@[simp] theorem modCore_peers (s : State) (c : Nat) (f : Core → Core) : (s.modCore c f).peers = s.peers := rfl
@[simp] theorem modMe_peers (s : State) (f : Core → Core) : (s.modMe f).peers = s.peers := rfl
@[simp] theorem stall_peers (s : State) : s.stall.peers = s.peers := rfl
@[simp] theorem emit_peers (s : State) (lat : Nat) (x : Landing) (kind : Nat) (p : Bool) (va hnd gen : Nat) : (s.emit lat x kind p va hnd gen).peers = s.peers := rfl
@[simp] theorem pend_peers (s : State) (i : Instr) (a : EvArgs) : (s.pend i a).peers = s.peers := rfl
@[simp] theorem setCore_buckets (s : State) (c : Nat) (k : Core) : (s.setCore c k).buckets = s.buckets := rfl
@[simp] theorem modCore_buckets (s : State) (c : Nat) (f : Core → Core) : (s.modCore c f).buckets = s.buckets := rfl
@[simp] theorem modMe_buckets (s : State) (f : Core → Core) : (s.modMe f).buckets = s.buckets := rfl
@[simp] theorem stall_buckets (s : State) : s.stall.buckets = s.buckets := rfl
@[simp] theorem emit_buckets (s : State) (lat : Nat) (x : Landing) (kind : Nat) (p : Bool) (va hnd gen : Nat) : (s.emit lat x kind p va hnd gen).buckets = s.buckets := rfl
@[simp] theorem pend_buckets (s : State) (i : Instr) (a : EvArgs) : (s.pend i a).buckets = s.buckets := rfl
@[simp] theorem setCore_migrations (s : State) (c : Nat) (k : Core) : (s.setCore c k).migrations = s.migrations := rfl
@[simp] theorem modCore_migrations (s : State) (c : Nat) (f : Core → Core) : (s.modCore c f).migrations = s.migrations := rfl
@[simp] theorem modMe_migrations (s : State) (f : Core → Core) : (s.modMe f).migrations = s.migrations := rfl
@[simp] theorem stall_migrations (s : State) : s.stall.migrations = s.migrations := rfl
@[simp] theorem emit_migrations (s : State) (lat : Nat) (x : Landing) (kind : Nat) (p : Bool) (va hnd gen : Nat) : (s.emit lat x kind p va hnd gen).migrations = s.migrations := rfl
@[simp] theorem pend_migrations (s : State) (i : Instr) (a : EvArgs) : (s.pend i a).migrations = s.migrations := rfl
@[simp] theorem setCore_alogs (s : State) (c : Nat) (k : Core) : (s.setCore c k).alogs = s.alogs := rfl
@[simp] theorem modCore_alogs (s : State) (c : Nat) (f : Core → Core) : (s.modCore c f).alogs = s.alogs := rfl
@[simp] theorem modMe_alogs (s : State) (f : Core → Core) : (s.modMe f).alogs = s.alogs := rfl
@[simp] theorem stall_alogs (s : State) : s.stall.alogs = s.alogs := rfl
@[simp] theorem emit_alogs (s : State) (lat : Nat) (x : Landing) (kind : Nat) (p : Bool) (va hnd gen : Nat) : (s.emit lat x kind p va hnd gen).alogs = s.alogs := rfl
@[simp] theorem pend_alogs (s : State) (i : Instr) (a : EvArgs) : (s.pend i a).alogs = s.alogs := rfl
@[simp] theorem setCore_arrivals (s : State) (c : Nat) (k : Core) : (s.setCore c k).arrivals = s.arrivals := rfl
@[simp] theorem modCore_arrivals (s : State) (c : Nat) (f : Core → Core) : (s.modCore c f).arrivals = s.arrivals := rfl
@[simp] theorem modMe_arrivals (s : State) (f : Core → Core) : (s.modMe f).arrivals = s.arrivals := rfl
@[simp] theorem stall_arrivals (s : State) : s.stall.arrivals = s.arrivals := rfl
@[simp] theorem emit_arrivals (s : State) (lat : Nat) (x : Landing) (kind : Nat) (p : Bool) (va hnd gen : Nat) : (s.emit lat x kind p va hnd gen).arrivals = s.arrivals := rfl
@[simp] theorem pend_arrivals (s : State) (i : Instr) (a : EvArgs) : (s.pend i a).arrivals = s.arrivals := rfl
@[simp] theorem setCore_faultNotes (s : State) (c : Nat) (k : Core) : (s.setCore c k).faultNotes = s.faultNotes := rfl
@[simp] theorem modCore_faultNotes (s : State) (c : Nat) (f : Core → Core) : (s.modCore c f).faultNotes = s.faultNotes := rfl
@[simp] theorem modMe_faultNotes (s : State) (f : Core → Core) : (s.modMe f).faultNotes = s.faultNotes := rfl
@[simp] theorem stall_faultNotes (s : State) : s.stall.faultNotes = s.faultNotes := rfl
@[simp] theorem emit_faultNotes (s : State) (lat : Nat) (x : Landing) (kind : Nat) (p : Bool) (va hnd gen : Nat) : (s.emit lat x kind p va hnd gen).faultNotes = s.faultNotes := rfl
@[simp] theorem pend_faultNotes (s : State) (i : Instr) (a : EvArgs) : (s.pend i a).faultNotes = s.faultNotes := rfl
@[simp] theorem setCore_ctxFaults (s : State) (c : Nat) (k : Core) : (s.setCore c k).ctxFaults = s.ctxFaults := rfl
@[simp] theorem modCore_ctxFaults (s : State) (c : Nat) (f : Core → Core) : (s.modCore c f).ctxFaults = s.ctxFaults := rfl
@[simp] theorem modMe_ctxFaults (s : State) (f : Core → Core) : (s.modMe f).ctxFaults = s.ctxFaults := rfl
@[simp] theorem stall_ctxFaults (s : State) : s.stall.ctxFaults = s.ctxFaults := rfl
@[simp] theorem emit_ctxFaults (s : State) (lat : Nat) (x : Landing) (kind : Nat) (p : Bool) (va hnd gen : Nat) : (s.emit lat x kind p va hnd gen).ctxFaults = s.ctxFaults := rfl
@[simp] theorem pend_ctxFaults (s : State) (i : Instr) (a : EvArgs) : (s.pend i a).ctxFaults = s.ctxFaults := rfl
@[simp] theorem setCore_msix (s : State) (c : Nat) (k : Core) : (s.setCore c k).msix = s.msix := rfl
@[simp] theorem modCore_msix (s : State) (c : Nat) (f : Core → Core) : (s.modCore c f).msix = s.msix := rfl
@[simp] theorem modMe_msix (s : State) (f : Core → Core) : (s.modMe f).msix = s.msix := rfl
@[simp] theorem stall_msix (s : State) : s.stall.msix = s.msix := rfl
@[simp] theorem emit_msix (s : State) (lat : Nat) (x : Landing) (kind : Nat) (p : Bool) (va hnd gen : Nat) : (s.emit lat x kind p va hnd gen).msix = s.msix := rfl
@[simp] theorem pend_msix (s : State) (i : Instr) (a : EvArgs) : (s.pend i a).msix = s.msix := rfl
@[simp] theorem setCore_msixWait (s : State) (c : Nat) (k : Core) : (s.setCore c k).msixWait = s.msixWait := rfl
@[simp] theorem modCore_msixWait (s : State) (c : Nat) (f : Core → Core) : (s.modCore c f).msixWait = s.msixWait := rfl
@[simp] theorem modMe_msixWait (s : State) (f : Core → Core) : (s.modMe f).msixWait = s.msixWait := rfl
@[simp] theorem stall_msixWait (s : State) : s.stall.msixWait = s.msixWait := rfl
@[simp] theorem emit_msixWait (s : State) (lat : Nat) (x : Landing) (kind : Nat) (p : Bool) (va hnd gen : Nat) : (s.emit lat x kind p va hnd gen).msixWait = s.msixWait := rfl
@[simp] theorem pend_msixWait (s : State) (i : Instr) (a : EvArgs) : (s.pend i a).msixWait = s.msixWait := rfl
@[simp] theorem setCore_invalidations (s : State) (c : Nat) (k : Core) : (s.setCore c k).invalidations = s.invalidations := rfl
@[simp] theorem modCore_invalidations (s : State) (c : Nat) (f : Core → Core) : (s.modCore c f).invalidations = s.invalidations := rfl
@[simp] theorem modMe_invalidations (s : State) (f : Core → Core) : (s.modMe f).invalidations = s.invalidations := rfl
@[simp] theorem stall_invalidations (s : State) : s.stall.invalidations = s.invalidations := rfl
@[simp] theorem emit_invalidations (s : State) (lat : Nat) (x : Landing) (kind : Nat) (p : Bool) (va hnd gen : Nat) : (s.emit lat x kind p va hnd gen).invalidations = s.invalidations := rfl
@[simp] theorem pend_invalidations (s : State) (i : Instr) (a : EvArgs) : (s.pend i a).invalidations = s.invalidations := rfl
@[simp] theorem setCore_safePoints (s : State) (c : Nat) (k : Core) : (s.setCore c k).safePoints = s.safePoints := rfl
@[simp] theorem modCore_safePoints (s : State) (c : Nat) (f : Core → Core) : (s.modCore c f).safePoints = s.safePoints := rfl
@[simp] theorem modMe_safePoints (s : State) (f : Core → Core) : (s.modMe f).safePoints = s.safePoints := rfl
@[simp] theorem stall_safePoints (s : State) : s.stall.safePoints = s.safePoints := rfl
@[simp] theorem emit_safePoints (s : State) (lat : Nat) (x : Landing) (kind : Nat) (p : Bool) (va hnd gen : Nat) : (s.emit lat x kind p va hnd gen).safePoints = s.safePoints := rfl
@[simp] theorem pend_safePoints (s : State) (i : Instr) (a : EvArgs) : (s.pend i a).safePoints = s.safePoints := rfl
@[simp] theorem setCore_savedAt (s : State) (c : Nat) (k : Core) : (s.setCore c k).savedAt = s.savedAt := rfl
@[simp] theorem modCore_savedAt (s : State) (c : Nat) (f : Core → Core) : (s.modCore c f).savedAt = s.savedAt := rfl
@[simp] theorem modMe_savedAt (s : State) (f : Core → Core) : (s.modMe f).savedAt = s.savedAt := rfl
@[simp] theorem stall_savedAt (s : State) : s.stall.savedAt = s.savedAt := rfl
@[simp] theorem emit_savedAt (s : State) (lat : Nat) (x : Landing) (kind : Nat) (p : Bool) (va hnd gen : Nat) : (s.emit lat x kind p va hnd gen).savedAt = s.savedAt := rfl
@[simp] theorem pend_savedAt (s : State) (i : Instr) (a : EvArgs) : (s.pend i a).savedAt = s.savedAt := rfl
@[simp] theorem setCore_counters (s : State) (c : Nat) (k : Core) : (s.setCore c k).counters = s.counters := rfl
@[simp] theorem modCore_counters (s : State) (c : Nat) (f : Core → Core) : (s.modCore c f).counters = s.counters := rfl
@[simp] theorem modMe_counters (s : State) (f : Core → Core) : (s.modMe f).counters = s.counters := rfl
@[simp] theorem stall_counters (s : State) : s.stall.counters = s.counters := rfl
@[simp] theorem emit_counters (s : State) (lat : Nat) (x : Landing) (kind : Nat) (p : Bool) (va hnd gen : Nat) : (s.emit lat x kind p va hnd gen).counters = s.counters := rfl
@[simp] theorem pend_counters (s : State) (i : Instr) (a : EvArgs) : (s.pend i a).counters = s.counters := rfl
@[simp] theorem setCore_freezes (s : State) (c : Nat) (k : Core) : (s.setCore c k).freezes = s.freezes := rfl
@[simp] theorem modCore_freezes (s : State) (c : Nat) (f : Core → Core) : (s.modCore c f).freezes = s.freezes := rfl
@[simp] theorem modMe_freezes (s : State) (f : Core → Core) : (s.modMe f).freezes = s.freezes := rfl
@[simp] theorem stall_freezes (s : State) : s.stall.freezes = s.freezes := rfl
@[simp] theorem emit_freezes (s : State) (lat : Nat) (x : Landing) (kind : Nat) (p : Bool) (va hnd gen : Nat) : (s.emit lat x kind p va hnd gen).freezes = s.freezes := rfl
@[simp] theorem pend_freezes (s : State) (i : Instr) (a : EvArgs) : (s.pend i a).freezes = s.freezes := rfl
@[simp] theorem setCore_committed (s : State) (c : Nat) (k : Core) : (s.setCore c k).committed = s.committed := rfl
@[simp] theorem modCore_committed (s : State) (c : Nat) (f : Core → Core) : (s.modCore c f).committed = s.committed := rfl
@[simp] theorem modMe_committed (s : State) (f : Core → Core) : (s.modMe f).committed = s.committed := rfl
@[simp] theorem stall_committed (s : State) : s.stall.committed = s.committed := rfl
@[simp] theorem emit_committed (s : State) (lat : Nat) (x : Landing) (kind : Nat) (p : Bool) (va hnd gen : Nat) : (s.emit lat x kind p va hnd gen).committed = s.committed := rfl
@[simp] theorem pend_committed (s : State) (i : Instr) (a : EvArgs) : (s.pend i a).committed = s.committed := rfl
@[simp] theorem setCore_measures (s : State) (c : Nat) (k : Core) : (s.setCore c k).measures = s.measures := rfl
@[simp] theorem modCore_measures (s : State) (c : Nat) (f : Core → Core) : (s.modCore c f).measures = s.measures := rfl
@[simp] theorem modMe_measures (s : State) (f : Core → Core) : (s.modMe f).measures = s.measures := rfl
@[simp] theorem stall_measures (s : State) : s.stall.measures = s.measures := rfl
@[simp] theorem emit_measures (s : State) (lat : Nat) (x : Landing) (kind : Nat) (p : Bool) (va hnd gen : Nat) : (s.emit lat x kind p va hnd gen).measures = s.measures := rfl
@[simp] theorem pend_measures (s : State) (i : Instr) (a : EvArgs) : (s.pend i a).measures = s.measures := rfl
@[simp] theorem setCore_lcState (s : State) (c : Nat) (k : Core) : (s.setCore c k).lcState = s.lcState := rfl
@[simp] theorem modCore_lcState (s : State) (c : Nat) (f : Core → Core) : (s.modCore c f).lcState = s.lcState := rfl
@[simp] theorem modMe_lcState (s : State) (f : Core → Core) : (s.modMe f).lcState = s.lcState := rfl
@[simp] theorem stall_lcState (s : State) : s.stall.lcState = s.lcState := rfl
@[simp] theorem emit_lcState (s : State) (lat : Nat) (x : Landing) (kind : Nat) (p : Bool) (va hnd gen : Nat) : (s.emit lat x kind p va hnd gen).lcState = s.lcState := rfl
@[simp] theorem pend_lcState (s : State) (i : Instr) (a : EvArgs) : (s.pend i a).lcState = s.lcState := rfl
@[simp] theorem setCore_bootOk (s : State) (c : Nat) (k : Core) : (s.setCore c k).bootOk = s.bootOk := rfl
@[simp] theorem modCore_bootOk (s : State) (c : Nat) (f : Core → Core) : (s.modCore c f).bootOk = s.bootOk := rfl
@[simp] theorem modMe_bootOk (s : State) (f : Core → Core) : (s.modMe f).bootOk = s.bootOk := rfl
@[simp] theorem stall_bootOk (s : State) : s.stall.bootOk = s.bootOk := rfl
@[simp] theorem emit_bootOk (s : State) (lat : Nat) (x : Landing) (kind : Nat) (p : Bool) (va hnd gen : Nat) : (s.emit lat x kind p va hnd gen).bootOk = s.bootOk := rfl
@[simp] theorem pend_bootOk (s : State) (i : Instr) (a : EvArgs) : (s.pend i a).bootOk = s.bootOk := rfl
@[simp] theorem setCore_time (s : State) (c : Nat) (k : Core) : (s.setCore c k).time = s.time := rfl
@[simp] theorem modCore_time (s : State) (c : Nat) (f : Core → Core) : (s.modCore c f).time = s.time := rfl
@[simp] theorem modMe_time (s : State) (f : Core → Core) : (s.modMe f).time = s.time := rfl
@[simp] theorem stall_time (s : State) : s.stall.time = s.time := rfl
@[simp] theorem emit_time (s : State) (lat : Nat) (x : Landing) (kind : Nat) (p : Bool) (va hnd gen : Nat) : (s.emit lat x kind p va hnd gen).time = s.time := rfl
@[simp] theorem pend_time (s : State) (i : Instr) (a : EvArgs) : (s.pend i a).time = s.time := rfl
@[simp] theorem setCore_cur (s : State) (c : Nat) (k : Core) : (s.setCore c k).cur = s.cur := rfl
@[simp] theorem modCore_cur (s : State) (c : Nat) (f : Core → Core) : (s.modCore c f).cur = s.cur := rfl
@[simp] theorem modMe_cur (s : State) (f : Core → Core) : (s.modMe f).cur = s.cur := rfl
@[simp] theorem stall_cur (s : State) : s.stall.cur = s.cur := rfl
@[simp] theorem emit_cur (s : State) (lat : Nat) (x : Landing) (kind : Nat) (p : Bool) (va hnd gen : Nat) : (s.emit lat x kind p va hnd gen).cur = s.cur := rfl
@[simp] theorem pend_cur (s : State) (i : Instr) (a : EvArgs) : (s.pend i a).cur = s.cur := rfl
@[simp] theorem setCore_now (s : State) (c : Nat) (k : Core) : (s.setCore c k).now = s.now := rfl
@[simp] theorem modCore_now (s : State) (c : Nat) (f : Core → Core) : (s.modCore c f).now = s.now := rfl
@[simp] theorem modMe_now (s : State) (f : Core → Core) : (s.modMe f).now = s.now := rfl
@[simp] theorem emit_now (s : State) (lat : Nat) (x : Landing) (kind : Nat) (p : Bool) (va hnd gen : Nat) : (s.emit lat x kind p va hnd gen).now = s.now := rfl
@[simp] theorem pend_now (s : State) (i : Instr) (a : EvArgs) : (s.pend i a).now = s.now := rfl
@[simp] theorem setCore_ev (s : State) (c : Nat) (k : Core) : (s.setCore c k).ev = s.ev := rfl
@[simp] theorem modCore_ev (s : State) (c : Nat) (f : Core → Core) : (s.modCore c f).ev = s.ev := rfl
@[simp] theorem modMe_ev (s : State) (f : Core → Core) : (s.modMe f).ev = s.ev := rfl
@[simp] theorem stall_ev (s : State) : s.stall.ev = s.ev := rfl
@[simp] theorem emit_ev (s : State) (lat : Nat) (x : Landing) (kind : Nat) (p : Bool) (va hnd gen : Nat) : (s.emit lat x kind p va hnd gen).ev = s.ev := rfl
@[simp] theorem pend_ev (s : State) (i : Instr) (a : EvArgs) : (s.pend i a).ev = s.ev := rfl
@[simp] theorem setCore_pending (s : State) (c : Nat) (k : Core) : (s.setCore c k).pending = s.pending := rfl
@[simp] theorem modCore_pending (s : State) (c : Nat) (f : Core → Core) : (s.modCore c f).pending = s.pending := rfl
@[simp] theorem modMe_pending (s : State) (f : Core → Core) : (s.modMe f).pending = s.pending := rfl
@[simp] theorem stall_pending (s : State) : s.stall.pending = s.pending := rfl
@[simp] theorem emit_pending (s : State) (lat : Nat) (x : Landing) (kind : Nat) (p : Bool) (va hnd gen : Nat) : (s.emit lat x kind p va hnd gen).pending = s.pending := rfl
@[simp] theorem setCore_choice (s : State) (c : Nat) (k : Core) : (s.setCore c k).choice = s.choice := rfl
@[simp] theorem modCore_choice (s : State) (c : Nat) (f : Core → Core) : (s.modCore c f).choice = s.choice := rfl
@[simp] theorem modMe_choice (s : State) (f : Core → Core) : (s.modMe f).choice = s.choice := rfl
@[simp] theorem stall_choice (s : State) : s.stall.choice = s.choice := rfl
@[simp] theorem emit_choice (s : State) (lat : Nat) (x : Landing) (kind : Nat) (p : Bool) (va hnd gen : Nat) : (s.emit lat x kind p va hnd gen).choice = s.choice := rfl
@[simp] theorem pend_choice (s : State) (i : Instr) (a : EvArgs) : (s.pend i a).choice = s.choice := rfl
@[simp] theorem setCore_free (s : State) (c : Nat) (k : Core) : (s.setCore c k).free = s.free := rfl
@[simp] theorem modCore_free (s : State) (c : Nat) (f : Core → Core) : (s.modCore c f).free = s.free := rfl
@[simp] theorem modMe_free (s : State) (f : Core → Core) : (s.modMe f).free = s.free := rfl
@[simp] theorem stall_free (s : State) : s.stall.free = s.free := rfl
@[simp] theorem emit_free (s : State) (lat : Nat) (x : Landing) (kind : Nat) (p : Bool) (va hnd gen : Nat) : (s.emit lat x kind p va hnd gen).free = s.free := rfl
@[simp] theorem pend_free (s : State) (i : Instr) (a : EvArgs) : (s.pend i a).free = s.free := rfl
@[simp] theorem setCore_agenda (s : State) (c : Nat) (k : Core) : (s.setCore c k).agenda = s.agenda := rfl
@[simp] theorem modCore_agenda (s : State) (c : Nat) (f : Core → Core) : (s.modCore c f).agenda = s.agenda := rfl
@[simp] theorem modMe_agenda (s : State) (f : Core → Core) : (s.modMe f).agenda = s.agenda := rfl
@[simp] theorem stall_agenda (s : State) : s.stall.agenda = s.agenda := rfl
@[simp] theorem emit_agenda (s : State) (lat : Nat) (x : Landing) (kind : Nat) (p : Bool) (va hnd gen : Nat) : (s.emit lat x kind p va hnd gen).agenda = s.agenda := rfl
@[simp] theorem pend_agenda (s : State) (i : Instr) (a : EvArgs) : (s.pend i a).agenda = s.agenda := rfl
@[simp] theorem setBulk_mem (s : State) (n : Nat) (x : Bulkhead) : (s.setBulk n x).mem = s.mem := rfl
@[simp] theorem setBulk_cores (s : State) (n : Nat) (x : Bulkhead) : (s.setBulk n x).cores = s.cores := rfl
@[simp] theorem setBulk_cur (s : State) (n : Nat) (x : Bulkhead) : (s.setBulk n x).cur = s.cur := rfl
@[simp] theorem setBulk_now (s : State) (n : Nat) (x : Bulkhead) : (s.setBulk n x).now = s.now := rfl
@[simp] theorem setBulk_pending (s : State) (n : Nat) (x : Bulkhead) : (s.setBulk n x).pending = s.pending := rfl
@[simp] theorem setBulk_time (s : State) (n : Nat) (x : Bulkhead) : (s.setBulk n x).time = s.time := rfl
@[simp] theorem setEng_mem (s : State) (n : Nat) (x : EngCtx) : (s.setEng n x).mem = s.mem := rfl
@[simp] theorem setEng_cores (s : State) (n : Nat) (x : EngCtx) : (s.setEng n x).cores = s.cores := rfl
@[simp] theorem setEng_cur (s : State) (n : Nat) (x : EngCtx) : (s.setEng n x).cur = s.cur := rfl
@[simp] theorem setEng_now (s : State) (n : Nat) (x : EngCtx) : (s.setEng n x).now = s.now := rfl
@[simp] theorem setEng_pending (s : State) (n : Nat) (x : EngCtx) : (s.setEng n x).pending = s.pending := rfl
@[simp] theorem setEng_time (s : State) (n : Nat) (x : EngCtx) : (s.setEng n x).time = s.time := rfl
@[simp] theorem setReady_mem (s : State) (n : Nat) (x : List Ready) : (s.setReady n x).mem = s.mem := rfl
@[simp] theorem setReady_cores (s : State) (n : Nat) (x : List Ready) : (s.setReady n x).cores = s.cores := rfl
@[simp] theorem setReady_cur (s : State) (n : Nat) (x : List Ready) : (s.setReady n x).cur = s.cur := rfl
@[simp] theorem setReady_now (s : State) (n : Nat) (x : List Ready) : (s.setReady n x).now = s.now := rfl
@[simp] theorem setReady_pending (s : State) (n : Nat) (x : List Ready) : (s.setReady n x).pending = s.pending := rfl
@[simp] theorem setReady_time (s : State) (n : Nat) (x : List Ready) : (s.setReady n x).time = s.time := rfl
@[simp] theorem setLine_mem (s : State) (n : Nat) (x : Line) : (s.setLine n x).mem = s.mem := rfl
@[simp] theorem setLine_cores (s : State) (n : Nat) (x : Line) : (s.setLine n x).cores = s.cores := rfl
@[simp] theorem setLine_cur (s : State) (n : Nat) (x : Line) : (s.setLine n x).cur = s.cur := rfl
@[simp] theorem setLine_now (s : State) (n : Nat) (x : Line) : (s.setLine n x).now = s.now := rfl
@[simp] theorem setLine_pending (s : State) (n : Nat) (x : Line) : (s.setLine n x).pending = s.pending := rfl
@[simp] theorem setLine_time (s : State) (n : Nat) (x : Line) : (s.setLine n x).time = s.time := rfl
@[simp] theorem setBank_mem (s : State) (n : Nat) (x : BankUnit) : (s.setBank n x).mem = s.mem := rfl
@[simp] theorem setBank_cores (s : State) (n : Nat) (x : BankUnit) : (s.setBank n x).cores = s.cores := rfl
@[simp] theorem setBank_cur (s : State) (n : Nat) (x : BankUnit) : (s.setBank n x).cur = s.cur := rfl
@[simp] theorem setBank_now (s : State) (n : Nat) (x : BankUnit) : (s.setBank n x).now = s.now := rfl
@[simp] theorem setBank_pending (s : State) (n : Nat) (x : BankUnit) : (s.setBank n x).pending = s.pending := rfl
@[simp] theorem setBank_time (s : State) (n : Nat) (x : BankUnit) : (s.setBank n x).time = s.time := rfl
@[simp] theorem setVf_mem (s : State) (n : Nat) (x : Vf) : (s.setVf n x).mem = s.mem := rfl
@[simp] theorem setVf_cores (s : State) (n : Nat) (x : Vf) : (s.setVf n x).cores = s.cores := rfl
@[simp] theorem setVf_cur (s : State) (n : Nat) (x : Vf) : (s.setVf n x).cur = s.cur := rfl
@[simp] theorem setVf_now (s : State) (n : Nat) (x : Vf) : (s.setVf n x).now = s.now := rfl
@[simp] theorem setVf_pending (s : State) (n : Nat) (x : Vf) : (s.setVf n x).pending = s.pending := rfl
@[simp] theorem setVf_time (s : State) (n : Nat) (x : Vf) : (s.setVf n x).time = s.time := rfl
@[simp] theorem setPort_mem (s : State) (n : Nat) (x : Port) : (s.setPort n x).mem = s.mem := rfl
@[simp] theorem setPort_cores (s : State) (n : Nat) (x : Port) : (s.setPort n x).cores = s.cores := rfl
@[simp] theorem setPort_cur (s : State) (n : Nat) (x : Port) : (s.setPort n x).cur = s.cur := rfl
@[simp] theorem setPort_now (s : State) (n : Nat) (x : Port) : (s.setPort n x).now = s.now := rfl
@[simp] theorem setPort_pending (s : State) (n : Nat) (x : Port) : (s.setPort n x).pending = s.pending := rfl
@[simp] theorem setPort_time (s : State) (n : Nat) (x : Port) : (s.setPort n x).time = s.time := rfl
@[simp] theorem setQueue_mem (s : State) (n : Nat) (x : LaunchQueue) : (s.setQueue n x).mem = s.mem := rfl
@[simp] theorem setQueue_cores (s : State) (n : Nat) (x : LaunchQueue) : (s.setQueue n x).cores = s.cores := rfl
@[simp] theorem setQueue_cur (s : State) (n : Nat) (x : LaunchQueue) : (s.setQueue n x).cur = s.cur := rfl
@[simp] theorem setQueue_now (s : State) (n : Nat) (x : LaunchQueue) : (s.setQueue n x).now = s.now := rfl
@[simp] theorem setQueue_pending (s : State) (n : Nat) (x : LaunchQueue) : (s.setQueue n x).pending = s.pending := rfl
@[simp] theorem setQueue_time (s : State) (n : Nat) (x : LaunchQueue) : (s.setQueue n x).time = s.time := rfl
@[simp] theorem setGroup_mem (s : State) (n : Nat) (x : Group) : (s.setGroup n x).mem = s.mem := rfl
@[simp] theorem setGroup_cores (s : State) (n : Nat) (x : Group) : (s.setGroup n x).cores = s.cores := rfl
@[simp] theorem setGroup_cur (s : State) (n : Nat) (x : Group) : (s.setGroup n x).cur = s.cur := rfl
@[simp] theorem setGroup_now (s : State) (n : Nat) (x : Group) : (s.setGroup n x).now = s.now := rfl
@[simp] theorem setGroup_pending (s : State) (n : Nat) (x : Group) : (s.setGroup n x).pending = s.pending := rfl
@[simp] theorem setGroup_time (s : State) (n : Nat) (x : Group) : (s.setGroup n x).time = s.time := rfl

/-! The core under the step after a result has been sent on its way. -/

@[simp] theorem me_emit (s : State) (lat : Nat) (x : Landing) (kind : Nat) (p : Bool) (va hnd gen : Nat) :
    (s.emit lat x kind p va hnd gen).me = { s.me with flights := s.me.flights ++ [{ slot := s.now.slot, due := s.now.clk + lat, seq := s.now.seq, what := x, kind := kind, adr := s.now.adr, poison := p, va := va, hnd := hnd, gen := gen }] } :=
  me_modMe _ _
@[simp] theorem me_stall (s : State) : s.stall.me = s.me := rfl
@[simp] theorem me_pend (s : State) (i : Instr) (a : EvArgs) : (s.pend i a).me = s.me := rfl
@[simp] theorem core_pend (s : State) (i : Instr) (a : EvArgs) (c : Nat) : (s.pend i a).core c = s.core c := rfl
@[simp] theorem core_stall (s : State) (c : Nat) : s.stall.core c = s.core c := rfl
@[simp] theorem stall_stalled (s : State) : s.stall.now.stalled = true := rfl

end Sys2Proof.Laws
end

