-- ==== Sys2Proof/Laws/Issue.lean ====
section
/-! SUPPORT. What an issue does and what its results leave alone. -/

set_option Elab.async false

namespace Sys2Proof.Laws
open Sys2Proof.Machine Sys2Proof

/-- An operation that takes effect has the effect of its body, with its weight noted. -/
theorem issue_live {s : State} {g : Guard} (w : Nat) (body : State → State) (h : s.live g) : issue g w s body = body (s.weighs w) := by
  simp [issue, h.1, h.2, State.weighs]
/-- An operation whose guard is false has no effect (R43), unless it waits for a reply (R230). -/
theorem issue_off {s : State} {g : Guard} (w : Nat) (body : State → State) (h : s.me.guardHolds g = false) (ha : s.asked = false) :
    issue g w s body = s := by
  simp [issue, h, ha]
@[simp] theorem weighs_me (s : State) (w : Nat) : (s.weighs w).me = s.me := rfl
@[simp] theorem weighs_cur (s : State) (w : Nat) : (s.weighs w).cur = s.cur := rfl
@[simp] theorem weighs_core (s : State) (w c : Nat) : (s.weighs w).core c = s.core c := rfl
@[simp] theorem yields_nil (s : State) (w : Nat) : s.yields w [] = s.weighs w := rfl
@[simp] theorem yields_one (s : State) (w lat : Nat) (x : Landing) : s.yields w [(lat, x)] = (s.weighs w).emit lat x := rfl
@[simp] theorem yields_two (s : State) (w l1 l2 : Nat) (x y : Landing) :
    s.yields w [(l1, x), (l2, y)] = ((s.weighs w).emit l1 x).emit l2 y := rfl

end Sys2Proof.Laws
end

