-- ==== Sys2Proof/Laws/PerInstr.lean ====
section
/-! SUPPORT. The family Encoding: a well-formed instruction decodes from what it encodes to (spec/03 R42 to R56,
spec/20 R320), one lemma per constructor. -/

/-- What the family says of an instruction: the parts of its encoding have their sizes, and the decoder gives the instruction
back from them. An event has no encoding. -/
def Sys2Proof.Laws.Encoding.Statement (i : Sys2Proof.Instr) : Prop :=
  Sys2Proof.WellFormed i = true →
    match Sys2Proof.encode i with
    | .syllable sp r =>
      r.opc < 256 ∧ r.ops < 524288 ∧ r.ext < 4294967296 ∧ (r.x = false → r.ext = 0) ∧ Sys2Proof.decodeRaw sp r = .ok i
    | .move w next => w < 65536 ∧ Sys2Proof.decodeMove w (match next with | some v => v.toNat | none => 0) = some i
    | .none => True

set_option linter.unusedSimpArgs false

set_option Elab.async false

namespace Sys2Proof.Laws
open Sys2Proof

theorem Encoding.nop : Encoding.Statement (.nop) := by
  intro hw
  refine syllable_ok (by decide) (by omega) ?_
  have hd : ∀ x y n e, decodeScalar (Raw.mk 0 x y n e) = (fun r : Raw => accept [(r.x || r.g != 0 || r.ops != 0, 3)] .nop) (Raw.mk 0 x y n e) := fun _ _ _ _ => rfl
  show decodeScalar (syllable 0 0 0 none) = _
  refine (hd _ _ _ _).trans ?_
  show (fun r : Raw => accept [(r.x || r.g != 0 || r.ops != 0, 3)] .nop) (syllable 0 0 0 none) = _
  exact accept_ok hw (by simp (disch := omega) [raw_f, raw_b, n_raw]) (by simp (disch := omega) [-Bool.and_eq_false_imp, raw_nz, raw_b, n_raw])

theorem Encoding.idle : Encoding.Statement (.idle) := by
  intro hw
  refine syllable_ok (by decide) (by omega) ?_
  have hd : ∀ x y n e, decodeLoad (Raw.mk 0 x y n e) = (fun r : Raw => accept [(r.x || r.g != 0 || r.ops != 0, 3)] .idle) (Raw.mk 0 x y n e) := fun _ _ _ _ => rfl
  show decodeLoad (syllable 0 0 0 none) = _
  refine (hd _ _ _ _).trans ?_
  show (fun r : Raw => accept [(r.x || r.g != 0 || r.ops != 0, 3)] .idle) (syllable 0 0 0 none) = _
  exact accept_ok hw (by simp (disch := omega) [raw_f, raw_b, n_raw]) (by simp (disch := omega) [-Bool.and_eq_false_imp, raw_nz, raw_b, n_raw])

theorem Encoding.add (g : Guard) (d : SReg) (a : SReg) (b : SReg) (k : Bool) : Encoding.Statement (.add g d a b k) := by
  intro hw
  have := bool_lt k
  have := d.isLt
  have := a.isLt
  have := b.isLt
  refine syllable_ok (by decide) (by simp (disch := omega)) ?_
  have hd : ∀ x y n e, decodeScalar (Raw.mk 0x01 x y n e) = (fun r : Raw => accept [(r.x, 4)] (.add r.g (r.f 6 13) (r.f 6 7) (r.f 6 1) (r.b 0))) (Raw.mk 0x01 x y n e) := fun _ _ _ _ => rfl
  show decodeScalar (syllable 0x01 g (packSR d.toNat a.toNat b.toNat k.toNat) none) = _
  refine (hd _ _ _ _).trans ?_
  show (fun r : Raw => accept [(r.x, 4)] (.add r.g (r.f 6 13) (r.f 6 7) (r.f 6 1) (r.b 0))) (syllable 0x01 g (packSR d.toNat a.toNat b.toNat k.toNat) none) = _
  exact accept_ok hw (by simp (disch := omega) [raw_f, raw_b]) (by simp (disch := omega) [-Bool.and_eq_false_imp, raw_nz, raw_b])

theorem Encoding.sub (g : Guard) (d : SReg) (a : SReg) (b : SReg) (k : Bool) : Encoding.Statement (.sub g d a b k) := by
  intro hw
  have := bool_lt k
  have := d.isLt
  have := a.isLt
  have := b.isLt
  refine syllable_ok (by decide) (by simp (disch := omega)) ?_
  have hd : ∀ x y n e, decodeScalar (Raw.mk 0x02 x y n e) = (fun r : Raw => accept [(r.x, 4)] (.sub r.g (r.f 6 13) (r.f 6 7) (r.f 6 1) (r.b 0))) (Raw.mk 0x02 x y n e) := fun _ _ _ _ => rfl
  show decodeScalar (syllable 0x02 g (packSR d.toNat a.toNat b.toNat k.toNat) none) = _
  refine (hd _ _ _ _).trans ?_
  show (fun r : Raw => accept [(r.x, 4)] (.sub r.g (r.f 6 13) (r.f 6 7) (r.f 6 1) (r.b 0))) (syllable 0x02 g (packSR d.toNat a.toNat b.toNat k.toNat) none) = _
  exact accept_ok hw (by simp (disch := omega) [raw_f, raw_b]) (by simp (disch := omega) [-Bool.and_eq_false_imp, raw_nz, raw_b])

theorem Encoding.mul (g : Guard) (d : SReg) (a : SReg) (b : SReg) (k : Bool) : Encoding.Statement (.mul g d a b k) := by
  intro hw
  have := bool_lt k
  have := d.isLt
  have := a.isLt
  have := b.isLt
  refine syllable_ok (by decide) (by simp (disch := omega)) ?_
  have hd : ∀ x y n e, decodeScalar (Raw.mk 0x03 x y n e) = (fun r : Raw => accept [(r.x, 4)] (.mul r.g (r.f 6 13) (r.f 6 7) (r.f 6 1) (r.b 0))) (Raw.mk 0x03 x y n e) := fun _ _ _ _ => rfl
  show decodeScalar (syllable 0x03 g (packSR d.toNat a.toNat b.toNat k.toNat) none) = _
  refine (hd _ _ _ _).trans ?_
  show (fun r : Raw => accept [(r.x, 4)] (.mul r.g (r.f 6 13) (r.f 6 7) (r.f 6 1) (r.b 0))) (syllable 0x03 g (packSR d.toNat a.toNat b.toNat k.toNat) none) = _
  exact accept_ok hw (by simp (disch := omega) [raw_f, raw_b]) (by simp (disch := omega) [-Bool.and_eq_false_imp, raw_nz, raw_b])

theorem Encoding.mulhi (g : Guard) (d : SReg) (a : SReg) (b : SReg) (k : Bool) : Encoding.Statement (.mulhi g d a b k) := by
  intro hw
  have := bool_lt k
  have := d.isLt
  have := a.isLt
  have := b.isLt
  refine syllable_ok (by decide) (by simp (disch := omega)) ?_
  have hd : ∀ x y n e, decodeScalar (Raw.mk 0x04 x y n e) = (fun r : Raw => accept [(r.x, 4)] (.mulhi r.g (r.f 6 13) (r.f 6 7) (r.f 6 1) (r.b 0))) (Raw.mk 0x04 x y n e) := fun _ _ _ _ => rfl
  show decodeScalar (syllable 0x04 g (packSR d.toNat a.toNat b.toNat k.toNat) none) = _
  refine (hd _ _ _ _).trans ?_
  show (fun r : Raw => accept [(r.x, 4)] (.mulhi r.g (r.f 6 13) (r.f 6 7) (r.f 6 1) (r.b 0))) (syllable 0x04 g (packSR d.toNat a.toNat b.toNat k.toNat) none) = _
  exact accept_ok hw (by simp (disch := omega) [raw_f, raw_b]) (by simp (disch := omega) [-Bool.and_eq_false_imp, raw_nz, raw_b])

theorem Encoding.mulhz (g : Guard) (d : SReg) (a : SReg) (b : SReg) (k : Bool) : Encoding.Statement (.mulhz g d a b k) := by
  intro hw
  have := bool_lt k
  have := d.isLt
  have := a.isLt
  have := b.isLt
  refine syllable_ok (by decide) (by simp (disch := omega)) ?_
  have hd : ∀ x y n e, decodeScalar (Raw.mk 0x05 x y n e) = (fun r : Raw => accept [(r.x, 4)] (.mulhz r.g (r.f 6 13) (r.f 6 7) (r.f 6 1) (r.b 0))) (Raw.mk 0x05 x y n e) := fun _ _ _ _ => rfl
  show decodeScalar (syllable 0x05 g (packSR d.toNat a.toNat b.toNat k.toNat) none) = _
  refine (hd _ _ _ _).trans ?_
  show (fun r : Raw => accept [(r.x, 4)] (.mulhz r.g (r.f 6 13) (r.f 6 7) (r.f 6 1) (r.b 0))) (syllable 0x05 g (packSR d.toNat a.toNat b.toNat k.toNat) none) = _
  exact accept_ok hw (by simp (disch := omega) [raw_f, raw_b]) (by simp (disch := omega) [-Bool.and_eq_false_imp, raw_nz, raw_b])

theorem Encoding.div (g : Guard) (d : SReg) (a : SReg) (b : SReg) (k : Bool) : Encoding.Statement (.div g d a b k) := by
  intro hw
  have := bool_lt k
  have := d.isLt
  have := a.isLt
  have := b.isLt
  refine syllable_ok (by decide) (by simp (disch := omega)) ?_
  have hd : ∀ x y n e, decodeScalar (Raw.mk 0x06 x y n e) = (fun r : Raw => accept [(r.x, 4)] (.div r.g (r.f 6 13) (r.f 6 7) (r.f 6 1) (r.b 0))) (Raw.mk 0x06 x y n e) := fun _ _ _ _ => rfl
  show decodeScalar (syllable 0x06 g (packSR d.toNat a.toNat b.toNat k.toNat) none) = _
  refine (hd _ _ _ _).trans ?_
  show (fun r : Raw => accept [(r.x, 4)] (.div r.g (r.f 6 13) (r.f 6 7) (r.f 6 1) (r.b 0))) (syllable 0x06 g (packSR d.toNat a.toNat b.toNat k.toNat) none) = _
  exact accept_ok hw (by simp (disch := omega) [raw_f, raw_b]) (by simp (disch := omega) [-Bool.and_eq_false_imp, raw_nz, raw_b])

theorem Encoding.divz (g : Guard) (d : SReg) (a : SReg) (b : SReg) (k : Bool) : Encoding.Statement (.divz g d a b k) := by
  intro hw
  have := bool_lt k
  have := d.isLt
  have := a.isLt
  have := b.isLt
  refine syllable_ok (by decide) (by simp (disch := omega)) ?_
  have hd : ∀ x y n e, decodeScalar (Raw.mk 0x07 x y n e) = (fun r : Raw => accept [(r.x, 4)] (.divz r.g (r.f 6 13) (r.f 6 7) (r.f 6 1) (r.b 0))) (Raw.mk 0x07 x y n e) := fun _ _ _ _ => rfl
  show decodeScalar (syllable 0x07 g (packSR d.toNat a.toNat b.toNat k.toNat) none) = _
  refine (hd _ _ _ _).trans ?_
  show (fun r : Raw => accept [(r.x, 4)] (.divz r.g (r.f 6 13) (r.f 6 7) (r.f 6 1) (r.b 0))) (syllable 0x07 g (packSR d.toNat a.toNat b.toNat k.toNat) none) = _
  exact accept_ok hw (by simp (disch := omega) [raw_f, raw_b]) (by simp (disch := omega) [-Bool.and_eq_false_imp, raw_nz, raw_b])

theorem Encoding.rem (g : Guard) (d : SReg) (a : SReg) (b : SReg) (k : Bool) : Encoding.Statement (.rem g d a b k) := by
  intro hw
  have := bool_lt k
  have := d.isLt
  have := a.isLt
  have := b.isLt
  refine syllable_ok (by decide) (by simp (disch := omega)) ?_
  have hd : ∀ x y n e, decodeScalar (Raw.mk 0x08 x y n e) = (fun r : Raw => accept [(r.x, 4)] (.rem r.g (r.f 6 13) (r.f 6 7) (r.f 6 1) (r.b 0))) (Raw.mk 0x08 x y n e) := fun _ _ _ _ => rfl
  show decodeScalar (syllable 0x08 g (packSR d.toNat a.toNat b.toNat k.toNat) none) = _
  refine (hd _ _ _ _).trans ?_
  show (fun r : Raw => accept [(r.x, 4)] (.rem r.g (r.f 6 13) (r.f 6 7) (r.f 6 1) (r.b 0))) (syllable 0x08 g (packSR d.toNat a.toNat b.toNat k.toNat) none) = _
  exact accept_ok hw (by simp (disch := omega) [raw_f, raw_b]) (by simp (disch := omega) [-Bool.and_eq_false_imp, raw_nz, raw_b])

theorem Encoding.remz (g : Guard) (d : SReg) (a : SReg) (b : SReg) (k : Bool) : Encoding.Statement (.remz g d a b k) := by
  intro hw
  have := bool_lt k
  have := d.isLt
  have := a.isLt
  have := b.isLt
  refine syllable_ok (by decide) (by simp (disch := omega)) ?_
  have hd : ∀ x y n e, decodeScalar (Raw.mk 0x09 x y n e) = (fun r : Raw => accept [(r.x, 4)] (.remz r.g (r.f 6 13) (r.f 6 7) (r.f 6 1) (r.b 0))) (Raw.mk 0x09 x y n e) := fun _ _ _ _ => rfl
  show decodeScalar (syllable 0x09 g (packSR d.toNat a.toNat b.toNat k.toNat) none) = _
  refine (hd _ _ _ _).trans ?_
  show (fun r : Raw => accept [(r.x, 4)] (.remz r.g (r.f 6 13) (r.f 6 7) (r.f 6 1) (r.b 0))) (syllable 0x09 g (packSR d.toNat a.toNat b.toNat k.toNat) none) = _
  exact accept_ok hw (by simp (disch := omega) [raw_f, raw_b]) (by simp (disch := omega) [-Bool.and_eq_false_imp, raw_nz, raw_b])

theorem Encoding.and (g : Guard) (d : SReg) (a : SReg) (b : SReg) : Encoding.Statement (.and g d a b) := by
  intro hw
  have := d.isLt
  have := a.isLt
  have := b.isLt
  refine syllable_ok (by decide) (by simp (disch := omega)) ?_
  have hd : ∀ x y n e, decodeScalar (Raw.mk 0x0A x y n e) = (fun r : Raw => accept [(r.x, 4), (r.nz 1 0, 3)] (.and r.g (r.f 6 13) (r.f 6 7) (r.f 6 1))) (Raw.mk 0x0A x y n e) := fun _ _ _ _ => rfl
  show decodeScalar (syllable 0x0A g (packSR d.toNat a.toNat b.toNat 0) none) = _
  refine (hd _ _ _ _).trans ?_
  show (fun r : Raw => accept [(r.x, 4), (r.nz 1 0, 3)] (.and r.g (r.f 6 13) (r.f 6 7) (r.f 6 1))) (syllable 0x0A g (packSR d.toNat a.toNat b.toNat 0) none) = _
  exact accept_ok hw (by simp (disch := omega) [raw_f, raw_b]) (by simp (disch := omega) [-Bool.and_eq_false_imp, raw_nz, raw_b])

theorem Encoding.or (g : Guard) (d : SReg) (a : SReg) (b : SReg) : Encoding.Statement (.or g d a b) := by
  intro hw
  have := d.isLt
  have := a.isLt
  have := b.isLt
  refine syllable_ok (by decide) (by simp (disch := omega)) ?_
  have hd : ∀ x y n e, decodeScalar (Raw.mk 0x0B x y n e) = (fun r : Raw => accept [(r.x, 4), (r.nz 1 0, 3)] (.or r.g (r.f 6 13) (r.f 6 7) (r.f 6 1))) (Raw.mk 0x0B x y n e) := fun _ _ _ _ => rfl
  show decodeScalar (syllable 0x0B g (packSR d.toNat a.toNat b.toNat 0) none) = _
  refine (hd _ _ _ _).trans ?_
  show (fun r : Raw => accept [(r.x, 4), (r.nz 1 0, 3)] (.or r.g (r.f 6 13) (r.f 6 7) (r.f 6 1))) (syllable 0x0B g (packSR d.toNat a.toNat b.toNat 0) none) = _
  exact accept_ok hw (by simp (disch := omega) [raw_f, raw_b]) (by simp (disch := omega) [-Bool.and_eq_false_imp, raw_nz, raw_b])

theorem Encoding.xor (g : Guard) (d : SReg) (a : SReg) (b : SReg) : Encoding.Statement (.xor g d a b) := by
  intro hw
  have := d.isLt
  have := a.isLt
  have := b.isLt
  refine syllable_ok (by decide) (by simp (disch := omega)) ?_
  have hd : ∀ x y n e, decodeScalar (Raw.mk 0x0C x y n e) = (fun r : Raw => accept [(r.x, 4), (r.nz 1 0, 3)] (.xor r.g (r.f 6 13) (r.f 6 7) (r.f 6 1))) (Raw.mk 0x0C x y n e) := fun _ _ _ _ => rfl
  show decodeScalar (syllable 0x0C g (packSR d.toNat a.toNat b.toNat 0) none) = _
  refine (hd _ _ _ _).trans ?_
  show (fun r : Raw => accept [(r.x, 4), (r.nz 1 0, 3)] (.xor r.g (r.f 6 13) (r.f 6 7) (r.f 6 1))) (syllable 0x0C g (packSR d.toNat a.toNat b.toNat 0) none) = _
  exact accept_ok hw (by simp (disch := omega) [raw_f, raw_b]) (by simp (disch := omega) [-Bool.and_eq_false_imp, raw_nz, raw_b])

theorem Encoding.andn (g : Guard) (d : SReg) (a : SReg) (b : SReg) : Encoding.Statement (.andn g d a b) := by
  intro hw
  have := d.isLt
  have := a.isLt
  have := b.isLt
  refine syllable_ok (by decide) (by simp (disch := omega)) ?_
  have hd : ∀ x y n e, decodeScalar (Raw.mk 0x0D x y n e) = (fun r : Raw => accept [(r.x, 4), (r.nz 1 0, 3)] (.andn r.g (r.f 6 13) (r.f 6 7) (r.f 6 1))) (Raw.mk 0x0D x y n e) := fun _ _ _ _ => rfl
  show decodeScalar (syllable 0x0D g (packSR d.toNat a.toNat b.toNat 0) none) = _
  refine (hd _ _ _ _).trans ?_
  show (fun r : Raw => accept [(r.x, 4), (r.nz 1 0, 3)] (.andn r.g (r.f 6 13) (r.f 6 7) (r.f 6 1))) (syllable 0x0D g (packSR d.toNat a.toNat b.toNat 0) none) = _
  exact accept_ok hw (by simp (disch := omega) [raw_f, raw_b]) (by simp (disch := omega) [-Bool.and_eq_false_imp, raw_nz, raw_b])

theorem Encoding.shl (g : Guard) (d : SReg) (a : SReg) (b : SReg) (k : Bool) : Encoding.Statement (.shl g d a b k) := by
  intro hw
  have := bool_lt k
  have := d.isLt
  have := a.isLt
  have := b.isLt
  refine syllable_ok (by decide) (by simp (disch := omega)) ?_
  have hd : ∀ x y n e, decodeScalar (Raw.mk 0x0E x y n e) = (fun r : Raw => accept [(r.x, 4)] (.shl r.g (r.f 6 13) (r.f 6 7) (r.f 6 1) (r.b 0))) (Raw.mk 0x0E x y n e) := fun _ _ _ _ => rfl
  show decodeScalar (syllable 0x0E g (packSR d.toNat a.toNat b.toNat k.toNat) none) = _
  refine (hd _ _ _ _).trans ?_
  show (fun r : Raw => accept [(r.x, 4)] (.shl r.g (r.f 6 13) (r.f 6 7) (r.f 6 1) (r.b 0))) (syllable 0x0E g (packSR d.toNat a.toNat b.toNat k.toNat) none) = _
  exact accept_ok hw (by simp (disch := omega) [raw_f, raw_b]) (by simp (disch := omega) [-Bool.and_eq_false_imp, raw_nz, raw_b])

theorem Encoding.shr (g : Guard) (d : SReg) (a : SReg) (b : SReg) (k : Bool) : Encoding.Statement (.shr g d a b k) := by
  intro hw
  have := bool_lt k
  have := d.isLt
  have := a.isLt
  have := b.isLt
  refine syllable_ok (by decide) (by simp (disch := omega)) ?_
  have hd : ∀ x y n e, decodeScalar (Raw.mk 0x0F x y n e) = (fun r : Raw => accept [(r.x, 4)] (.shr r.g (r.f 6 13) (r.f 6 7) (r.f 6 1) (r.b 0))) (Raw.mk 0x0F x y n e) := fun _ _ _ _ => rfl
  show decodeScalar (syllable 0x0F g (packSR d.toNat a.toNat b.toNat k.toNat) none) = _
  refine (hd _ _ _ _).trans ?_
  show (fun r : Raw => accept [(r.x, 4)] (.shr r.g (r.f 6 13) (r.f 6 7) (r.f 6 1) (r.b 0))) (syllable 0x0F g (packSR d.toNat a.toNat b.toNat k.toNat) none) = _
  exact accept_ok hw (by simp (disch := omega) [raw_f, raw_b]) (by simp (disch := omega) [-Bool.and_eq_false_imp, raw_nz, raw_b])

theorem Encoding.sra (g : Guard) (d : SReg) (a : SReg) (b : SReg) (k : Bool) : Encoding.Statement (.sra g d a b k) := by
  intro hw
  have := bool_lt k
  have := d.isLt
  have := a.isLt
  have := b.isLt
  refine syllable_ok (by decide) (by simp (disch := omega)) ?_
  have hd : ∀ x y n e, decodeScalar (Raw.mk 0x10 x y n e) = (fun r : Raw => accept [(r.x, 4)] (.sra r.g (r.f 6 13) (r.f 6 7) (r.f 6 1) (r.b 0))) (Raw.mk 0x10 x y n e) := fun _ _ _ _ => rfl
  show decodeScalar (syllable 0x10 g (packSR d.toNat a.toNat b.toNat k.toNat) none) = _
  refine (hd _ _ _ _).trans ?_
  show (fun r : Raw => accept [(r.x, 4)] (.sra r.g (r.f 6 13) (r.f 6 7) (r.f 6 1) (r.b 0))) (syllable 0x10 g (packSR d.toNat a.toNat b.toNat k.toNat) none) = _
  exact accept_ok hw (by simp (disch := omega) [raw_f, raw_b]) (by simp (disch := omega) [-Bool.and_eq_false_imp, raw_nz, raw_b])

theorem Encoding.rol (g : Guard) (d : SReg) (a : SReg) (b : SReg) (k : Bool) : Encoding.Statement (.rol g d a b k) := by
  intro hw
  have := bool_lt k
  have := d.isLt
  have := a.isLt
  have := b.isLt
  refine syllable_ok (by decide) (by simp (disch := omega)) ?_
  have hd : ∀ x y n e, decodeScalar (Raw.mk 0x11 x y n e) = (fun r : Raw => accept [(r.x, 4)] (.rol r.g (r.f 6 13) (r.f 6 7) (r.f 6 1) (r.b 0))) (Raw.mk 0x11 x y n e) := fun _ _ _ _ => rfl
  show decodeScalar (syllable 0x11 g (packSR d.toNat a.toNat b.toNat k.toNat) none) = _
  refine (hd _ _ _ _).trans ?_
  show (fun r : Raw => accept [(r.x, 4)] (.rol r.g (r.f 6 13) (r.f 6 7) (r.f 6 1) (r.b 0))) (syllable 0x11 g (packSR d.toNat a.toNat b.toNat k.toNat) none) = _
  exact accept_ok hw (by simp (disch := omega) [raw_f, raw_b]) (by simp (disch := omega) [-Bool.and_eq_false_imp, raw_nz, raw_b])

theorem Encoding.min (g : Guard) (d : SReg) (a : SReg) (b : SReg) (k : Bool) : Encoding.Statement (.min g d a b k) := by
  intro hw
  have := bool_lt k
  have := d.isLt
  have := a.isLt
  have := b.isLt
  refine syllable_ok (by decide) (by simp (disch := omega)) ?_
  have hd : ∀ x y n e, decodeScalar (Raw.mk 0x12 x y n e) = (fun r : Raw => accept [(r.x, 4)] (.min r.g (r.f 6 13) (r.f 6 7) (r.f 6 1) (r.b 0))) (Raw.mk 0x12 x y n e) := fun _ _ _ _ => rfl
  show decodeScalar (syllable 0x12 g (packSR d.toNat a.toNat b.toNat k.toNat) none) = _
  refine (hd _ _ _ _).trans ?_
  show (fun r : Raw => accept [(r.x, 4)] (.min r.g (r.f 6 13) (r.f 6 7) (r.f 6 1) (r.b 0))) (syllable 0x12 g (packSR d.toNat a.toNat b.toNat k.toNat) none) = _
  exact accept_ok hw (by simp (disch := omega) [raw_f, raw_b]) (by simp (disch := omega) [-Bool.and_eq_false_imp, raw_nz, raw_b])

theorem Encoding.max (g : Guard) (d : SReg) (a : SReg) (b : SReg) (k : Bool) : Encoding.Statement (.max g d a b k) := by
  intro hw
  have := bool_lt k
  have := d.isLt
  have := a.isLt
  have := b.isLt
  refine syllable_ok (by decide) (by simp (disch := omega)) ?_
  have hd : ∀ x y n e, decodeScalar (Raw.mk 0x13 x y n e) = (fun r : Raw => accept [(r.x, 4)] (.max r.g (r.f 6 13) (r.f 6 7) (r.f 6 1) (r.b 0))) (Raw.mk 0x13 x y n e) := fun _ _ _ _ => rfl
  show decodeScalar (syllable 0x13 g (packSR d.toNat a.toNat b.toNat k.toNat) none) = _
  refine (hd _ _ _ _).trans ?_
  show (fun r : Raw => accept [(r.x, 4)] (.max r.g (r.f 6 13) (r.f 6 7) (r.f 6 1) (r.b 0))) (syllable 0x13 g (packSR d.toNat a.toNat b.toNat k.toNat) none) = _
  exact accept_ok hw (by simp (disch := omega) [raw_f, raw_b]) (by simp (disch := omega) [-Bool.and_eq_false_imp, raw_nz, raw_b])

theorem Encoding.minz (g : Guard) (d : SReg) (a : SReg) (b : SReg) (k : Bool) : Encoding.Statement (.minz g d a b k) := by
  intro hw
  have := bool_lt k
  have := d.isLt
  have := a.isLt
  have := b.isLt
  refine syllable_ok (by decide) (by simp (disch := omega)) ?_
  have hd : ∀ x y n e, decodeScalar (Raw.mk 0x14 x y n e) = (fun r : Raw => accept [(r.x, 4)] (.minz r.g (r.f 6 13) (r.f 6 7) (r.f 6 1) (r.b 0))) (Raw.mk 0x14 x y n e) := fun _ _ _ _ => rfl
  show decodeScalar (syllable 0x14 g (packSR d.toNat a.toNat b.toNat k.toNat) none) = _
  refine (hd _ _ _ _).trans ?_
  show (fun r : Raw => accept [(r.x, 4)] (.minz r.g (r.f 6 13) (r.f 6 7) (r.f 6 1) (r.b 0))) (syllable 0x14 g (packSR d.toNat a.toNat b.toNat k.toNat) none) = _
  exact accept_ok hw (by simp (disch := omega) [raw_f, raw_b]) (by simp (disch := omega) [-Bool.and_eq_false_imp, raw_nz, raw_b])

theorem Encoding.maxz (g : Guard) (d : SReg) (a : SReg) (b : SReg) (k : Bool) : Encoding.Statement (.maxz g d a b k) := by
  intro hw
  have := bool_lt k
  have := d.isLt
  have := a.isLt
  have := b.isLt
  refine syllable_ok (by decide) (by simp (disch := omega)) ?_
  have hd : ∀ x y n e, decodeScalar (Raw.mk 0x15 x y n e) = (fun r : Raw => accept [(r.x, 4)] (.maxz r.g (r.f 6 13) (r.f 6 7) (r.f 6 1) (r.b 0))) (Raw.mk 0x15 x y n e) := fun _ _ _ _ => rfl
  show decodeScalar (syllable 0x15 g (packSR d.toNat a.toNat b.toNat k.toNat) none) = _
  refine (hd _ _ _ _).trans ?_
  show (fun r : Raw => accept [(r.x, 4)] (.maxz r.g (r.f 6 13) (r.f 6 7) (r.f 6 1) (r.b 0))) (syllable 0x15 g (packSR d.toNat a.toNat b.toNat k.toNat) none) = _
  exact accept_ok hw (by simp (disch := omega) [raw_f, raw_b]) (by simp (disch := omega) [-Bool.and_eq_false_imp, raw_nz, raw_b])

theorem Encoding.addi (g : Guard) (d : SReg) (a : SReg) (m : Imm) : Encoding.Statement (.addi g d a m) := by
  intro hw
  have := imm_field_lt m
  have := d.isLt
  have := a.isLt
  refine syllable_ok (by decide) (by simp (disch := omega)) ?_
  have hd : ∀ x y n e, decodeScalar (Raw.mk 0x20 x y n e) = (fun r : Raw => accept [(r.x && r.nz 7 0, 3)] (.addi r.g (r.f 6 13) (r.f 6 7) r.imm)) (Raw.mk 0x20 x y n e) := fun _ _ _ _ => rfl
  show decodeScalar (syllable 0x20 g (packSI d.toNat a.toNat m.field) m.word) = _
  refine (hd _ _ _ _).trans ?_
  show (fun r : Raw => accept [(r.x && r.nz 7 0, 3)] (.addi r.g (r.f 6 13) (r.f 6 7) r.imm)) (syllable 0x20 g (packSI d.toNat a.toNat m.field) m.word) = _
  exact accept_ok hw (by simp (disch := omega) [raw_f, raw_b, imm_eq]) (by simp (disch := omega) [-Bool.and_eq_false_imp, raw_nz, raw_b])

theorem Encoding.andi (g : Guard) (d : SReg) (a : SReg) (m : Imm) : Encoding.Statement (.andi g d a m) := by
  intro hw
  have := imm_field_lt m
  have := d.isLt
  have := a.isLt
  refine syllable_ok (by decide) (by simp (disch := omega)) ?_
  have hd : ∀ x y n e, decodeScalar (Raw.mk 0x21 x y n e) = (fun r : Raw => accept [(r.x && r.nz 7 0, 3)] (.andi r.g (r.f 6 13) (r.f 6 7) r.imm)) (Raw.mk 0x21 x y n e) := fun _ _ _ _ => rfl
  show decodeScalar (syllable 0x21 g (packSI d.toNat a.toNat m.field) m.word) = _
  refine (hd _ _ _ _).trans ?_
  show (fun r : Raw => accept [(r.x && r.nz 7 0, 3)] (.andi r.g (r.f 6 13) (r.f 6 7) r.imm)) (syllable 0x21 g (packSI d.toNat a.toNat m.field) m.word) = _
  exact accept_ok hw (by simp (disch := omega) [raw_f, raw_b, imm_eq]) (by simp (disch := omega) [-Bool.and_eq_false_imp, raw_nz, raw_b])

theorem Encoding.ori (g : Guard) (d : SReg) (a : SReg) (m : Imm) : Encoding.Statement (.ori g d a m) := by
  intro hw
  have := imm_field_lt m
  have := d.isLt
  have := a.isLt
  refine syllable_ok (by decide) (by simp (disch := omega)) ?_
  have hd : ∀ x y n e, decodeScalar (Raw.mk 0x22 x y n e) = (fun r : Raw => accept [(r.x && r.nz 7 0, 3)] (.ori r.g (r.f 6 13) (r.f 6 7) r.imm)) (Raw.mk 0x22 x y n e) := fun _ _ _ _ => rfl
  show decodeScalar (syllable 0x22 g (packSI d.toNat a.toNat m.field) m.word) = _
  refine (hd _ _ _ _).trans ?_
  show (fun r : Raw => accept [(r.x && r.nz 7 0, 3)] (.ori r.g (r.f 6 13) (r.f 6 7) r.imm)) (syllable 0x22 g (packSI d.toNat a.toNat m.field) m.word) = _
  exact accept_ok hw (by simp (disch := omega) [raw_f, raw_b, imm_eq]) (by simp (disch := omega) [-Bool.and_eq_false_imp, raw_nz, raw_b])

theorem Encoding.xori (g : Guard) (d : SReg) (a : SReg) (m : Imm) : Encoding.Statement (.xori g d a m) := by
  intro hw
  have := imm_field_lt m
  have := d.isLt
  have := a.isLt
  refine syllable_ok (by decide) (by simp (disch := omega)) ?_
  have hd : ∀ x y n e, decodeScalar (Raw.mk 0x23 x y n e) = (fun r : Raw => accept [(r.x && r.nz 7 0, 3)] (.xori r.g (r.f 6 13) (r.f 6 7) r.imm)) (Raw.mk 0x23 x y n e) := fun _ _ _ _ => rfl
  show decodeScalar (syllable 0x23 g (packSI d.toNat a.toNat m.field) m.word) = _
  refine (hd _ _ _ _).trans ?_
  show (fun r : Raw => accept [(r.x && r.nz 7 0, 3)] (.xori r.g (r.f 6 13) (r.f 6 7) r.imm)) (syllable 0x23 g (packSI d.toNat a.toNat m.field) m.word) = _
  exact accept_ok hw (by simp (disch := omega) [raw_f, raw_b, imm_eq]) (by simp (disch := omega) [-Bool.and_eq_false_imp, raw_nz, raw_b])

theorem Encoding.shli (g : Guard) (d : SReg) (a : SReg) (m : Imm) : Encoding.Statement (.shli g d a m) := by
  intro hw
  have := imm_field_lt m
  have := d.isLt
  have := a.isLt
  refine syllable_ok (by decide) (by simp (disch := omega)) ?_
  have hd : ∀ x y n e, decodeScalar (Raw.mk 0x24 x y n e) = (fun r : Raw => accept [(r.x && r.nz 7 0, 3)] (.shli r.g (r.f 6 13) (r.f 6 7) r.imm)) (Raw.mk 0x24 x y n e) := fun _ _ _ _ => rfl
  show decodeScalar (syllable 0x24 g (packSI d.toNat a.toNat m.field) m.word) = _
  refine (hd _ _ _ _).trans ?_
  show (fun r : Raw => accept [(r.x && r.nz 7 0, 3)] (.shli r.g (r.f 6 13) (r.f 6 7) r.imm)) (syllable 0x24 g (packSI d.toNat a.toNat m.field) m.word) = _
  exact accept_ok hw (by simp (disch := omega) [raw_f, raw_b, imm_eq]) (by simp (disch := omega) [-Bool.and_eq_false_imp, raw_nz, raw_b])

theorem Encoding.shri (g : Guard) (d : SReg) (a : SReg) (m : Imm) : Encoding.Statement (.shri g d a m) := by
  intro hw
  have := imm_field_lt m
  have := d.isLt
  have := a.isLt
  refine syllable_ok (by decide) (by simp (disch := omega)) ?_
  have hd : ∀ x y n e, decodeScalar (Raw.mk 0x25 x y n e) = (fun r : Raw => accept [(r.x && r.nz 7 0, 3)] (.shri r.g (r.f 6 13) (r.f 6 7) r.imm)) (Raw.mk 0x25 x y n e) := fun _ _ _ _ => rfl
  show decodeScalar (syllable 0x25 g (packSI d.toNat a.toNat m.field) m.word) = _
  refine (hd _ _ _ _).trans ?_
  show (fun r : Raw => accept [(r.x && r.nz 7 0, 3)] (.shri r.g (r.f 6 13) (r.f 6 7) r.imm)) (syllable 0x25 g (packSI d.toNat a.toNat m.field) m.word) = _
  exact accept_ok hw (by simp (disch := omega) [raw_f, raw_b, imm_eq]) (by simp (disch := omega) [-Bool.and_eq_false_imp, raw_nz, raw_b])

theorem Encoding.srai (g : Guard) (d : SReg) (a : SReg) (m : Imm) : Encoding.Statement (.srai g d a m) := by
  intro hw
  have := imm_field_lt m
  have := d.isLt
  have := a.isLt
  refine syllable_ok (by decide) (by simp (disch := omega)) ?_
  have hd : ∀ x y n e, decodeScalar (Raw.mk 0x26 x y n e) = (fun r : Raw => accept [(r.x && r.nz 7 0, 3)] (.srai r.g (r.f 6 13) (r.f 6 7) r.imm)) (Raw.mk 0x26 x y n e) := fun _ _ _ _ => rfl
  show decodeScalar (syllable 0x26 g (packSI d.toNat a.toNat m.field) m.word) = _
  refine (hd _ _ _ _).trans ?_
  show (fun r : Raw => accept [(r.x && r.nz 7 0, 3)] (.srai r.g (r.f 6 13) (r.f 6 7) r.imm)) (syllable 0x26 g (packSI d.toNat a.toNat m.field) m.word) = _
  exact accept_ok hw (by simp (disch := omega) [raw_f, raw_b, imm_eq]) (by simp (disch := omega) [-Bool.and_eq_false_imp, raw_nz, raw_b])

theorem Encoding.addiW (g : Guard) (d : SReg) (a : SReg) (m : Imm) : Encoding.Statement (.addiW g d a m) := by
  intro hw
  have := imm_field_lt m
  have := d.isLt
  have := a.isLt
  refine syllable_ok (by decide) (by simp (disch := omega)) ?_
  have hd : ∀ x y n e, decodeScalar (Raw.mk 0x28 x y n e) = (fun r : Raw => accept [(r.x && r.nz 7 0, 3)] (.addiW r.g (r.f 6 13) (r.f 6 7) r.imm)) (Raw.mk 0x28 x y n e) := fun _ _ _ _ => rfl
  show decodeScalar (syllable 0x28 g (packSI d.toNat a.toNat m.field) m.word) = _
  refine (hd _ _ _ _).trans ?_
  show (fun r : Raw => accept [(r.x && r.nz 7 0, 3)] (.addiW r.g (r.f 6 13) (r.f 6 7) r.imm)) (syllable 0x28 g (packSI d.toNat a.toNat m.field) m.word) = _
  exact accept_ok hw (by simp (disch := omega) [raw_f, raw_b, imm_eq]) (by simp (disch := omega) [-Bool.and_eq_false_imp, raw_nz, raw_b])

theorem Encoding.shliW (g : Guard) (d : SReg) (a : SReg) (i : BitVec 7) : Encoding.Statement (.shliW g d a i) := by
  intro hw
  have := d.isLt
  have := a.isLt
  have := i.isLt
  refine syllable_ok (by decide) (by simp (disch := omega)) ?_
  have hd : ∀ x y n e, decodeScalar (Raw.mk 0x2C x y n e) = (fun r : Raw => accept [(r.x, 4), (r.x && r.nz 7 0, 3)] (.shliW r.g (r.f 6 13) (r.f 6 7) (r.f 7 0))) (Raw.mk 0x2C x y n e) := fun _ _ _ _ => rfl
  show decodeScalar (syllable 0x2C g (packSI d.toNat a.toNat i.toNat) none) = _
  refine (hd _ _ _ _).trans ?_
  show (fun r : Raw => accept [(r.x, 4), (r.x && r.nz 7 0, 3)] (.shliW r.g (r.f 6 13) (r.f 6 7) (r.f 7 0))) (syllable 0x2C g (packSI d.toNat a.toNat i.toNat) none) = _
  exact accept_ok hw (by simp (disch := omega) [raw_f, raw_b]) (by simp (disch := omega) [-Bool.and_eq_false_imp, raw_nz, raw_b])

theorem Encoding.shriW (g : Guard) (d : SReg) (a : SReg) (i : BitVec 7) : Encoding.Statement (.shriW g d a i) := by
  intro hw
  have := d.isLt
  have := a.isLt
  have := i.isLt
  refine syllable_ok (by decide) (by simp (disch := omega)) ?_
  have hd : ∀ x y n e, decodeScalar (Raw.mk 0x2D x y n e) = (fun r : Raw => accept [(r.x, 4), (r.x && r.nz 7 0, 3)] (.shriW r.g (r.f 6 13) (r.f 6 7) (r.f 7 0))) (Raw.mk 0x2D x y n e) := fun _ _ _ _ => rfl
  show decodeScalar (syllable 0x2D g (packSI d.toNat a.toNat i.toNat) none) = _
  refine (hd _ _ _ _).trans ?_
  show (fun r : Raw => accept [(r.x, 4), (r.x && r.nz 7 0, 3)] (.shriW r.g (r.f 6 13) (r.f 6 7) (r.f 7 0))) (syllable 0x2D g (packSI d.toNat a.toNat i.toNat) none) = _
  exact accept_ok hw (by simp (disch := omega) [raw_f, raw_b]) (by simp (disch := omega) [-Bool.and_eq_false_imp, raw_nz, raw_b])

theorem Encoding.sraiW (g : Guard) (d : SReg) (a : SReg) (i : BitVec 7) : Encoding.Statement (.sraiW g d a i) := by
  intro hw
  have := d.isLt
  have := a.isLt
  have := i.isLt
  refine syllable_ok (by decide) (by simp (disch := omega)) ?_
  have hd : ∀ x y n e, decodeScalar (Raw.mk 0x2E x y n e) = (fun r : Raw => accept [(r.x, 4), (r.x && r.nz 7 0, 3)] (.sraiW r.g (r.f 6 13) (r.f 6 7) (r.f 7 0))) (Raw.mk 0x2E x y n e) := fun _ _ _ _ => rfl
  show decodeScalar (syllable 0x2E g (packSI d.toNat a.toNat i.toNat) none) = _
  refine (hd _ _ _ _).trans ?_
  show (fun r : Raw => accept [(r.x, 4), (r.x && r.nz 7 0, 3)] (.sraiW r.g (r.f 6 13) (r.f 6 7) (r.f 7 0))) (syllable 0x2E g (packSI d.toNat a.toNat i.toNat) none) = _
  exact accept_ok hw (by simp (disch := omega) [raw_f, raw_b]) (by simp (disch := omega) [-Bool.and_eq_false_imp, raw_nz, raw_b])

theorem Encoding.cmpeq (g : Guard) (q : PReg) (q2 : PReg) (a : SReg) (o : CmpOpnd) : Encoding.Statement (.cmpeq g q q2 a o) := by
  intro hw
  have := And.intro (cmp_field_lt o) (cmp_kbit_lt o)
  have := q.isLt
  have := q2.isLt
  have := a.isLt
  refine syllable_ok (by decide) (by simp (disch := omega)) ?_
  have hd : ∀ x y n e, decodeScalar (Raw.mk 0x40 x y n e) = (fun r : Raw => accept [(r.x && !r.b 0, 3), (r.x && r.nz 6 4, 3)] (.cmpeq r.g (r.f 3 16) (r.f 3 1) (r.f 6 10) r.cmp)) (Raw.mk 0x40 x y n e) := fun _ _ _ _ => rfl
  show decodeScalar (syllable 0x40 g (packPC q.toNat a.toNat o.field q2.toNat o.kbit) o.word) = _
  refine (hd _ _ _ _).trans ?_
  show (fun r : Raw => accept [(r.x && !r.b 0, 3), (r.x && r.nz 6 4, 3)] (.cmpeq r.g (r.f 3 16) (r.f 3 1) (r.f 6 10) r.cmp)) (syllable 0x40 g (packPC q.toNat a.toNat o.field q2.toNat o.kbit) o.word) = _
  exact accept_ok hw (by simp (disch := omega) [raw_f, raw_b, cmp_eq]) (by simp (disch := omega) [-Bool.and_eq_false_imp, raw_nz, raw_b])

theorem Encoding.cmpne (g : Guard) (q : PReg) (q2 : PReg) (a : SReg) (o : CmpOpnd) : Encoding.Statement (.cmpne g q q2 a o) := by
  intro hw
  have := And.intro (cmp_field_lt o) (cmp_kbit_lt o)
  have := q.isLt
  have := q2.isLt
  have := a.isLt
  refine syllable_ok (by decide) (by simp (disch := omega)) ?_
  have hd : ∀ x y n e, decodeScalar (Raw.mk 0x41 x y n e) = (fun r : Raw => accept [(r.x && !r.b 0, 3), (r.x && r.nz 6 4, 3)] (.cmpne r.g (r.f 3 16) (r.f 3 1) (r.f 6 10) r.cmp)) (Raw.mk 0x41 x y n e) := fun _ _ _ _ => rfl
  show decodeScalar (syllable 0x41 g (packPC q.toNat a.toNat o.field q2.toNat o.kbit) o.word) = _
  refine (hd _ _ _ _).trans ?_
  show (fun r : Raw => accept [(r.x && !r.b 0, 3), (r.x && r.nz 6 4, 3)] (.cmpne r.g (r.f 3 16) (r.f 3 1) (r.f 6 10) r.cmp)) (syllable 0x41 g (packPC q.toNat a.toNat o.field q2.toNat o.kbit) o.word) = _
  exact accept_ok hw (by simp (disch := omega) [raw_f, raw_b, cmp_eq]) (by simp (disch := omega) [-Bool.and_eq_false_imp, raw_nz, raw_b])

theorem Encoding.cmplt (g : Guard) (q : PReg) (q2 : PReg) (a : SReg) (o : CmpOpnd) : Encoding.Statement (.cmplt g q q2 a o) := by
  intro hw
  have := And.intro (cmp_field_lt o) (cmp_kbit_lt o)
  have := q.isLt
  have := q2.isLt
  have := a.isLt
  refine syllable_ok (by decide) (by simp (disch := omega)) ?_
  have hd : ∀ x y n e, decodeScalar (Raw.mk 0x42 x y n e) = (fun r : Raw => accept [(r.x && !r.b 0, 3), (r.x && r.nz 6 4, 3)] (.cmplt r.g (r.f 3 16) (r.f 3 1) (r.f 6 10) r.cmp)) (Raw.mk 0x42 x y n e) := fun _ _ _ _ => rfl
  show decodeScalar (syllable 0x42 g (packPC q.toNat a.toNat o.field q2.toNat o.kbit) o.word) = _
  refine (hd _ _ _ _).trans ?_
  show (fun r : Raw => accept [(r.x && !r.b 0, 3), (r.x && r.nz 6 4, 3)] (.cmplt r.g (r.f 3 16) (r.f 3 1) (r.f 6 10) r.cmp)) (syllable 0x42 g (packPC q.toNat a.toNat o.field q2.toNat o.kbit) o.word) = _
  exact accept_ok hw (by simp (disch := omega) [raw_f, raw_b, cmp_eq]) (by simp (disch := omega) [-Bool.and_eq_false_imp, raw_nz, raw_b])

theorem Encoding.cmple (g : Guard) (q : PReg) (q2 : PReg) (a : SReg) (o : CmpOpnd) : Encoding.Statement (.cmple g q q2 a o) := by
  intro hw
  have := And.intro (cmp_field_lt o) (cmp_kbit_lt o)
  have := q.isLt
  have := q2.isLt
  have := a.isLt
  refine syllable_ok (by decide) (by simp (disch := omega)) ?_
  have hd : ∀ x y n e, decodeScalar (Raw.mk 0x43 x y n e) = (fun r : Raw => accept [(r.x && !r.b 0, 3), (r.x && r.nz 6 4, 3)] (.cmple r.g (r.f 3 16) (r.f 3 1) (r.f 6 10) r.cmp)) (Raw.mk 0x43 x y n e) := fun _ _ _ _ => rfl
  show decodeScalar (syllable 0x43 g (packPC q.toNat a.toNat o.field q2.toNat o.kbit) o.word) = _
  refine (hd _ _ _ _).trans ?_
  show (fun r : Raw => accept [(r.x && !r.b 0, 3), (r.x && r.nz 6 4, 3)] (.cmple r.g (r.f 3 16) (r.f 3 1) (r.f 6 10) r.cmp)) (syllable 0x43 g (packPC q.toNat a.toNat o.field q2.toNat o.kbit) o.word) = _
  exact accept_ok hw (by simp (disch := omega) [raw_f, raw_b, cmp_eq]) (by simp (disch := omega) [-Bool.and_eq_false_imp, raw_nz, raw_b])

theorem Encoding.cmpltz (g : Guard) (q : PReg) (q2 : PReg) (a : SReg) (o : CmpOpnd) : Encoding.Statement (.cmpltz g q q2 a o) := by
  intro hw
  have := And.intro (cmp_field_lt o) (cmp_kbit_lt o)
  have := q.isLt
  have := q2.isLt
  have := a.isLt
  refine syllable_ok (by decide) (by simp (disch := omega)) ?_
  have hd : ∀ x y n e, decodeScalar (Raw.mk 0x44 x y n e) = (fun r : Raw => accept [(r.x && !r.b 0, 3), (r.x && r.nz 6 4, 3)] (.cmpltz r.g (r.f 3 16) (r.f 3 1) (r.f 6 10) r.cmp)) (Raw.mk 0x44 x y n e) := fun _ _ _ _ => rfl
  show decodeScalar (syllable 0x44 g (packPC q.toNat a.toNat o.field q2.toNat o.kbit) o.word) = _
  refine (hd _ _ _ _).trans ?_
  show (fun r : Raw => accept [(r.x && !r.b 0, 3), (r.x && r.nz 6 4, 3)] (.cmpltz r.g (r.f 3 16) (r.f 3 1) (r.f 6 10) r.cmp)) (syllable 0x44 g (packPC q.toNat a.toNat o.field q2.toNat o.kbit) o.word) = _
  exact accept_ok hw (by simp (disch := omega) [raw_f, raw_b, cmp_eq]) (by simp (disch := omega) [-Bool.and_eq_false_imp, raw_nz, raw_b])

theorem Encoding.cmplez (g : Guard) (q : PReg) (q2 : PReg) (a : SReg) (o : CmpOpnd) : Encoding.Statement (.cmplez g q q2 a o) := by
  intro hw
  have := And.intro (cmp_field_lt o) (cmp_kbit_lt o)
  have := q.isLt
  have := q2.isLt
  have := a.isLt
  refine syllable_ok (by decide) (by simp (disch := omega)) ?_
  have hd : ∀ x y n e, decodeScalar (Raw.mk 0x45 x y n e) = (fun r : Raw => accept [(r.x && !r.b 0, 3), (r.x && r.nz 6 4, 3)] (.cmplez r.g (r.f 3 16) (r.f 3 1) (r.f 6 10) r.cmp)) (Raw.mk 0x45 x y n e) := fun _ _ _ _ => rfl
  show decodeScalar (syllable 0x45 g (packPC q.toNat a.toNat o.field q2.toNat o.kbit) o.word) = _
  refine (hd _ _ _ _).trans ?_
  show (fun r : Raw => accept [(r.x && !r.b 0, 3), (r.x && r.nz 6 4, 3)] (.cmplez r.g (r.f 3 16) (r.f 3 1) (r.f 6 10) r.cmp)) (syllable 0x45 g (packPC q.toNat a.toNat o.field q2.toNat o.kbit) o.word) = _
  exact accept_ok hw (by simp (disch := omega) [raw_f, raw_b, cmp_eq]) (by simp (disch := omega) [-Bool.and_eq_false_imp, raw_nz, raw_b])

theorem Encoding.cmpeqW (g : Guard) (q : PReg) (q2 : PReg) (a : SReg) (o : CmpOpnd) : Encoding.Statement (.cmpeqW g q q2 a o) := by
  intro hw
  have := And.intro (cmp_field_lt o) (cmp_kbit_lt o)
  have := q.isLt
  have := q2.isLt
  have := a.isLt
  refine syllable_ok (by decide) (by simp (disch := omega)) ?_
  have hd : ∀ x y n e, decodeScalar (Raw.mk 0x48 x y n e) = (fun r : Raw => accept [(r.x && !r.b 0, 3), (r.x && r.nz 6 4, 3)] (.cmpeqW r.g (r.f 3 16) (r.f 3 1) (r.f 6 10) r.cmp)) (Raw.mk 0x48 x y n e) := fun _ _ _ _ => rfl
  show decodeScalar (syllable 0x48 g (packPC q.toNat a.toNat o.field q2.toNat o.kbit) o.word) = _
  refine (hd _ _ _ _).trans ?_
  show (fun r : Raw => accept [(r.x && !r.b 0, 3), (r.x && r.nz 6 4, 3)] (.cmpeqW r.g (r.f 3 16) (r.f 3 1) (r.f 6 10) r.cmp)) (syllable 0x48 g (packPC q.toNat a.toNat o.field q2.toNat o.kbit) o.word) = _
  exact accept_ok hw (by simp (disch := omega) [raw_f, raw_b, cmp_eq]) (by simp (disch := omega) [-Bool.and_eq_false_imp, raw_nz, raw_b])

theorem Encoding.cmpneW (g : Guard) (q : PReg) (q2 : PReg) (a : SReg) (o : CmpOpnd) : Encoding.Statement (.cmpneW g q q2 a o) := by
  intro hw
  have := And.intro (cmp_field_lt o) (cmp_kbit_lt o)
  have := q.isLt
  have := q2.isLt
  have := a.isLt
  refine syllable_ok (by decide) (by simp (disch := omega)) ?_
  have hd : ∀ x y n e, decodeScalar (Raw.mk 0x49 x y n e) = (fun r : Raw => accept [(r.x && !r.b 0, 3), (r.x && r.nz 6 4, 3)] (.cmpneW r.g (r.f 3 16) (r.f 3 1) (r.f 6 10) r.cmp)) (Raw.mk 0x49 x y n e) := fun _ _ _ _ => rfl
  show decodeScalar (syllable 0x49 g (packPC q.toNat a.toNat o.field q2.toNat o.kbit) o.word) = _
  refine (hd _ _ _ _).trans ?_
  show (fun r : Raw => accept [(r.x && !r.b 0, 3), (r.x && r.nz 6 4, 3)] (.cmpneW r.g (r.f 3 16) (r.f 3 1) (r.f 6 10) r.cmp)) (syllable 0x49 g (packPC q.toNat a.toNat o.field q2.toNat o.kbit) o.word) = _
  exact accept_ok hw (by simp (disch := omega) [raw_f, raw_b, cmp_eq]) (by simp (disch := omega) [-Bool.and_eq_false_imp, raw_nz, raw_b])

theorem Encoding.cmpltW (g : Guard) (q : PReg) (q2 : PReg) (a : SReg) (o : CmpOpnd) : Encoding.Statement (.cmpltW g q q2 a o) := by
  intro hw
  have := And.intro (cmp_field_lt o) (cmp_kbit_lt o)
  have := q.isLt
  have := q2.isLt
  have := a.isLt
  refine syllable_ok (by decide) (by simp (disch := omega)) ?_
  have hd : ∀ x y n e, decodeScalar (Raw.mk 0x4A x y n e) = (fun r : Raw => accept [(r.x && !r.b 0, 3), (r.x && r.nz 6 4, 3)] (.cmpltW r.g (r.f 3 16) (r.f 3 1) (r.f 6 10) r.cmp)) (Raw.mk 0x4A x y n e) := fun _ _ _ _ => rfl
  show decodeScalar (syllable 0x4A g (packPC q.toNat a.toNat o.field q2.toNat o.kbit) o.word) = _
  refine (hd _ _ _ _).trans ?_
  show (fun r : Raw => accept [(r.x && !r.b 0, 3), (r.x && r.nz 6 4, 3)] (.cmpltW r.g (r.f 3 16) (r.f 3 1) (r.f 6 10) r.cmp)) (syllable 0x4A g (packPC q.toNat a.toNat o.field q2.toNat o.kbit) o.word) = _
  exact accept_ok hw (by simp (disch := omega) [raw_f, raw_b, cmp_eq]) (by simp (disch := omega) [-Bool.and_eq_false_imp, raw_nz, raw_b])

theorem Encoding.cmpleW (g : Guard) (q : PReg) (q2 : PReg) (a : SReg) (o : CmpOpnd) : Encoding.Statement (.cmpleW g q q2 a o) := by
  intro hw
  have := And.intro (cmp_field_lt o) (cmp_kbit_lt o)
  have := q.isLt
  have := q2.isLt
  have := a.isLt
  refine syllable_ok (by decide) (by simp (disch := omega)) ?_
  have hd : ∀ x y n e, decodeScalar (Raw.mk 0x4B x y n e) = (fun r : Raw => accept [(r.x && !r.b 0, 3), (r.x && r.nz 6 4, 3)] (.cmpleW r.g (r.f 3 16) (r.f 3 1) (r.f 6 10) r.cmp)) (Raw.mk 0x4B x y n e) := fun _ _ _ _ => rfl
  show decodeScalar (syllable 0x4B g (packPC q.toNat a.toNat o.field q2.toNat o.kbit) o.word) = _
  refine (hd _ _ _ _).trans ?_
  show (fun r : Raw => accept [(r.x && !r.b 0, 3), (r.x && r.nz 6 4, 3)] (.cmpleW r.g (r.f 3 16) (r.f 3 1) (r.f 6 10) r.cmp)) (syllable 0x4B g (packPC q.toNat a.toNat o.field q2.toNat o.kbit) o.word) = _
  exact accept_ok hw (by simp (disch := omega) [raw_f, raw_b, cmp_eq]) (by simp (disch := omega) [-Bool.and_eq_false_imp, raw_nz, raw_b])

theorem Encoding.cmpltzW (g : Guard) (q : PReg) (q2 : PReg) (a : SReg) (o : CmpOpnd) : Encoding.Statement (.cmpltzW g q q2 a o) := by
  intro hw
  have := And.intro (cmp_field_lt o) (cmp_kbit_lt o)
  have := q.isLt
  have := q2.isLt
  have := a.isLt
  refine syllable_ok (by decide) (by simp (disch := omega)) ?_
  have hd : ∀ x y n e, decodeScalar (Raw.mk 0x4C x y n e) = (fun r : Raw => accept [(r.x && !r.b 0, 3), (r.x && r.nz 6 4, 3)] (.cmpltzW r.g (r.f 3 16) (r.f 3 1) (r.f 6 10) r.cmp)) (Raw.mk 0x4C x y n e) := fun _ _ _ _ => rfl
  show decodeScalar (syllable 0x4C g (packPC q.toNat a.toNat o.field q2.toNat o.kbit) o.word) = _
  refine (hd _ _ _ _).trans ?_
  show (fun r : Raw => accept [(r.x && !r.b 0, 3), (r.x && r.nz 6 4, 3)] (.cmpltzW r.g (r.f 3 16) (r.f 3 1) (r.f 6 10) r.cmp)) (syllable 0x4C g (packPC q.toNat a.toNat o.field q2.toNat o.kbit) o.word) = _
  exact accept_ok hw (by simp (disch := omega) [raw_f, raw_b, cmp_eq]) (by simp (disch := omega) [-Bool.and_eq_false_imp, raw_nz, raw_b])

theorem Encoding.cmplezW (g : Guard) (q : PReg) (q2 : PReg) (a : SReg) (o : CmpOpnd) : Encoding.Statement (.cmplezW g q q2 a o) := by
  intro hw
  have := And.intro (cmp_field_lt o) (cmp_kbit_lt o)
  have := q.isLt
  have := q2.isLt
  have := a.isLt
  refine syllable_ok (by decide) (by simp (disch := omega)) ?_
  have hd : ∀ x y n e, decodeScalar (Raw.mk 0x4D x y n e) = (fun r : Raw => accept [(r.x && !r.b 0, 3), (r.x && r.nz 6 4, 3)] (.cmplezW r.g (r.f 3 16) (r.f 3 1) (r.f 6 10) r.cmp)) (Raw.mk 0x4D x y n e) := fun _ _ _ _ => rfl
  show decodeScalar (syllable 0x4D g (packPC q.toNat a.toNat o.field q2.toNat o.kbit) o.word) = _
  refine (hd _ _ _ _).trans ?_
  show (fun r : Raw => accept [(r.x && !r.b 0, 3), (r.x && r.nz 6 4, 3)] (.cmplezW r.g (r.f 3 16) (r.f 3 1) (r.f 6 10) r.cmp)) (syllable 0x4D g (packPC q.toNat a.toNat o.field q2.toNat o.kbit) o.word) = _
  exact accept_ok hw (by simp (disch := omega) [raw_f, raw_b, cmp_eq]) (by simp (disch := omega) [-Bool.and_eq_false_imp, raw_nz, raw_b])

theorem Encoding.pand (g : Guard) (q : PReg) (pa : PReg) (pb : PReg) (na : Bool) (nb : Bool) : Encoding.Statement (.pand g q pa pb na nb) := by
  intro hw
  have := bool_lt na
  have := bool_lt nb
  have := q.isLt
  have := pa.isLt
  have := pb.isLt
  refine syllable_ok (by decide) (by simp (disch := omega)) ?_
  have hd : ∀ x y n e, decodeScalar (Raw.mk 0x50 x y n e) = (fun r : Raw => accept [(r.x, 4), (r.nz 8 0, 3)] (.pand r.g (r.f 3 16) (r.f 3 13) (r.f 3 10) (r.b 9) (r.b 8))) (Raw.mk 0x50 x y n e) := fun _ _ _ _ => rfl
  show decodeScalar (syllable 0x50 g (packPL q.toNat pa.toNat pb.toNat na.toNat nb.toNat) none) = _
  refine (hd _ _ _ _).trans ?_
  show (fun r : Raw => accept [(r.x, 4), (r.nz 8 0, 3)] (.pand r.g (r.f 3 16) (r.f 3 13) (r.f 3 10) (r.b 9) (r.b 8))) (syllable 0x50 g (packPL q.toNat pa.toNat pb.toNat na.toNat nb.toNat) none) = _
  exact accept_ok hw (by simp (disch := omega) [raw_f, raw_b]) (by simp (disch := omega) [-Bool.and_eq_false_imp, raw_nz, raw_b])

theorem Encoding.por (g : Guard) (q : PReg) (pa : PReg) (pb : PReg) (na : Bool) (nb : Bool) : Encoding.Statement (.por g q pa pb na nb) := by
  intro hw
  have := bool_lt na
  have := bool_lt nb
  have := q.isLt
  have := pa.isLt
  have := pb.isLt
  refine syllable_ok (by decide) (by simp (disch := omega)) ?_
  have hd : ∀ x y n e, decodeScalar (Raw.mk 0x51 x y n e) = (fun r : Raw => accept [(r.x, 4), (r.nz 8 0, 3)] (.por r.g (r.f 3 16) (r.f 3 13) (r.f 3 10) (r.b 9) (r.b 8))) (Raw.mk 0x51 x y n e) := fun _ _ _ _ => rfl
  show decodeScalar (syllable 0x51 g (packPL q.toNat pa.toNat pb.toNat na.toNat nb.toNat) none) = _
  refine (hd _ _ _ _).trans ?_
  show (fun r : Raw => accept [(r.x, 4), (r.nz 8 0, 3)] (.por r.g (r.f 3 16) (r.f 3 13) (r.f 3 10) (r.b 9) (r.b 8))) (syllable 0x51 g (packPL q.toNat pa.toNat pb.toNat na.toNat nb.toNat) none) = _
  exact accept_ok hw (by simp (disch := omega) [raw_f, raw_b]) (by simp (disch := omega) [-Bool.and_eq_false_imp, raw_nz, raw_b])

theorem Encoding.pxor (g : Guard) (q : PReg) (pa : PReg) (pb : PReg) (na : Bool) (nb : Bool) : Encoding.Statement (.pxor g q pa pb na nb) := by
  intro hw
  have := bool_lt na
  have := bool_lt nb
  have := q.isLt
  have := pa.isLt
  have := pb.isLt
  refine syllable_ok (by decide) (by simp (disch := omega)) ?_
  have hd : ∀ x y n e, decodeScalar (Raw.mk 0x52 x y n e) = (fun r : Raw => accept [(r.x, 4), (r.nz 8 0, 3)] (.pxor r.g (r.f 3 16) (r.f 3 13) (r.f 3 10) (r.b 9) (r.b 8))) (Raw.mk 0x52 x y n e) := fun _ _ _ _ => rfl
  show decodeScalar (syllable 0x52 g (packPL q.toNat pa.toNat pb.toNat na.toNat nb.toNat) none) = _
  refine (hd _ _ _ _).trans ?_
  show (fun r : Raw => accept [(r.x, 4), (r.nz 8 0, 3)] (.pxor r.g (r.f 3 16) (r.f 3 13) (r.f 3 10) (r.b 9) (r.b 8))) (syllable 0x52 g (packPL q.toNat pa.toNat pb.toNat na.toNat nb.toNat) none) = _
  exact accept_ok hw (by simp (disch := omega) [raw_f, raw_b]) (by simp (disch := omega) [-Bool.and_eq_false_imp, raw_nz, raw_b])

theorem Encoding.pnot (g : Guard) (q : PReg) (pa : PReg) (na : Bool) : Encoding.Statement (.pnot g q pa na) := by
  intro hw
  have := bool_lt na
  have := q.isLt
  have := pa.isLt
  refine syllable_ok (by decide) (by simp (disch := omega)) ?_
  have hd : ∀ x y n e, decodeScalar (Raw.mk 0x53 x y n e) = (fun r : Raw => accept [(r.x, 4), (r.nz 9 0, 3), (r.nz 3 10, 3)] (.pnot r.g (r.f 3 16) (r.f 3 13) (r.b 9))) (Raw.mk 0x53 x y n e) := fun _ _ _ _ => rfl
  show decodeScalar (syllable 0x53 g (packPL q.toNat pa.toNat 0 na.toNat 0) none) = _
  refine (hd _ _ _ _).trans ?_
  show (fun r : Raw => accept [(r.x, 4), (r.nz 9 0, 3), (r.nz 3 10, 3)] (.pnot r.g (r.f 3 16) (r.f 3 13) (r.b 9))) (syllable 0x53 g (packPL q.toNat pa.toNat 0 na.toNat 0) none) = _
  exact accept_ok hw (by simp (disch := omega) [raw_f, raw_b]) (by simp (disch := omega) [-Bool.and_eq_false_imp, raw_nz, raw_b])

theorem Encoding.pset (g : Guard) (a : SReg) (b : SReg) : Encoding.Statement (.pset g a b) := by
  intro hw
  have := a.isLt
  have := b.isLt
  refine syllable_ok (by decide) (by simp (disch := omega)) ?_
  have hd : ∀ x y n e, decodeScalar (Raw.mk 0x54 x y n e) = (fun r : Raw => accept [(r.x, 4), (r.nz 6 13, 3), (r.nz 1 0, 3)] (.pset r.g (r.f 6 7) (r.f 6 1))) (Raw.mk 0x54 x y n e) := fun _ _ _ _ => rfl
  show decodeScalar (syllable 0x54 g (packSR 0 a.toNat b.toNat 0) none) = _
  refine (hd _ _ _ _).trans ?_
  show (fun r : Raw => accept [(r.x, 4), (r.nz 6 13, 3), (r.nz 1 0, 3)] (.pset r.g (r.f 6 7) (r.f 6 1))) (syllable 0x54 g (packSR 0 a.toNat b.toNat 0) none) = _
  exact accept_ok hw (by simp (disch := omega) [raw_f, raw_b]) (by simp (disch := omega) [-Bool.and_eq_false_imp, raw_nz, raw_b])

theorem Encoding.pget (g : Guard) (d : SReg) : Encoding.Statement (.pget g d) := by
  intro hw
  have := d.isLt
  refine syllable_ok (by decide) (by simp (disch := omega)) ?_
  have hd : ∀ x y n e, decodeScalar (Raw.mk 0x55 x y n e) = (fun r : Raw => accept [(r.x, 4), (r.nz 13 0, 3)] (.pget r.g (r.f 6 13))) (Raw.mk 0x55 x y n e) := fun _ _ _ _ => rfl
  show decodeScalar (syllable 0x55 g (packSR d.toNat 0 0 0) none) = _
  refine (hd _ _ _ _).trans ?_
  show (fun r : Raw => accept [(r.x, 4), (r.nz 13 0, 3)] (.pget r.g (r.f 6 13))) (syllable 0x55 g (packSR d.toNat 0 0 0) none) = _
  exact accept_ok hw (by simp (disch := omega) [raw_f, raw_b]) (by simp (disch := omega) [-Bool.and_eq_false_imp, raw_nz, raw_b])

theorem Encoding.clz (g : Guard) (d : SReg) (a : SReg) (k : Bool) : Encoding.Statement (.clz g d a k) := by
  intro hw
  have := bool_lt k
  have := d.isLt
  have := a.isLt
  refine syllable_ok (by decide) (by simp (disch := omega)) ?_
  have hd : ∀ x y n e, decodeScalar (Raw.mk 0x60 x y n e) = (fun r : Raw => accept [(r.x, 4), (r.nz 6 1, 3)] (.clz r.g (r.f 6 13) (r.f 6 7) (r.b 0))) (Raw.mk 0x60 x y n e) := fun _ _ _ _ => rfl
  show decodeScalar (syllable 0x60 g (packSR d.toNat a.toNat 0 k.toNat) none) = _
  refine (hd _ _ _ _).trans ?_
  show (fun r : Raw => accept [(r.x, 4), (r.nz 6 1, 3)] (.clz r.g (r.f 6 13) (r.f 6 7) (r.b 0))) (syllable 0x60 g (packSR d.toNat a.toNat 0 k.toNat) none) = _
  exact accept_ok hw (by simp (disch := omega) [raw_f, raw_b]) (by simp (disch := omega) [-Bool.and_eq_false_imp, raw_nz, raw_b])

theorem Encoding.ctz (g : Guard) (d : SReg) (a : SReg) (k : Bool) : Encoding.Statement (.ctz g d a k) := by
  intro hw
  have := bool_lt k
  have := d.isLt
  have := a.isLt
  refine syllable_ok (by decide) (by simp (disch := omega)) ?_
  have hd : ∀ x y n e, decodeScalar (Raw.mk 0x61 x y n e) = (fun r : Raw => accept [(r.x, 4), (r.nz 6 1, 3)] (.ctz r.g (r.f 6 13) (r.f 6 7) (r.b 0))) (Raw.mk 0x61 x y n e) := fun _ _ _ _ => rfl
  show decodeScalar (syllable 0x61 g (packSR d.toNat a.toNat 0 k.toNat) none) = _
  refine (hd _ _ _ _).trans ?_
  show (fun r : Raw => accept [(r.x, 4), (r.nz 6 1, 3)] (.ctz r.g (r.f 6 13) (r.f 6 7) (r.b 0))) (syllable 0x61 g (packSR d.toNat a.toNat 0 k.toNat) none) = _
  exact accept_ok hw (by simp (disch := omega) [raw_f, raw_b]) (by simp (disch := omega) [-Bool.and_eq_false_imp, raw_nz, raw_b])

theorem Encoding.popc (g : Guard) (d : SReg) (a : SReg) (k : Bool) : Encoding.Statement (.popc g d a k) := by
  intro hw
  have := bool_lt k
  have := d.isLt
  have := a.isLt
  refine syllable_ok (by decide) (by simp (disch := omega)) ?_
  have hd : ∀ x y n e, decodeScalar (Raw.mk 0x62 x y n e) = (fun r : Raw => accept [(r.x, 4), (r.nz 6 1, 3)] (.popc r.g (r.f 6 13) (r.f 6 7) (r.b 0))) (Raw.mk 0x62 x y n e) := fun _ _ _ _ => rfl
  show decodeScalar (syllable 0x62 g (packSR d.toNat a.toNat 0 k.toNat) none) = _
  refine (hd _ _ _ _).trans ?_
  show (fun r : Raw => accept [(r.x, 4), (r.nz 6 1, 3)] (.popc r.g (r.f 6 13) (r.f 6 7) (r.b 0))) (syllable 0x62 g (packSR d.toNat a.toNat 0 k.toNat) none) = _
  exact accept_ok hw (by simp (disch := omega) [raw_f, raw_b]) (by simp (disch := omega) [-Bool.and_eq_false_imp, raw_nz, raw_b])

theorem Encoding.bext (g : Guard) (d : SReg) (a : SReg) (b : SReg) : Encoding.Statement (.bext g d a b) := by
  intro hw
  have := d.isLt
  have := a.isLt
  have := b.isLt
  refine syllable_ok (by decide) (by simp (disch := omega)) ?_
  have hd : ∀ x y n e, decodeScalar (Raw.mk 0x63 x y n e) = (fun r : Raw => accept [(r.x, 4), (r.nz 1 0, 3)] (.bext r.g (r.f 6 13) (r.f 6 7) (r.f 6 1))) (Raw.mk 0x63 x y n e) := fun _ _ _ _ => rfl
  show decodeScalar (syllable 0x63 g (packSR d.toNat a.toNat b.toNat 0) none) = _
  refine (hd _ _ _ _).trans ?_
  show (fun r : Raw => accept [(r.x, 4), (r.nz 1 0, 3)] (.bext r.g (r.f 6 13) (r.f 6 7) (r.f 6 1))) (syllable 0x63 g (packSR d.toNat a.toNat b.toNat 0) none) = _
  exact accept_ok hw (by simp (disch := omega) [raw_f, raw_b]) (by simp (disch := omega) [-Bool.and_eq_false_imp, raw_nz, raw_b])

theorem Encoding.bins (g : Guard) (d : SReg) (a : SReg) (b : SReg) : Encoding.Statement (.bins g d a b) := by
  intro hw
  have := d.isLt
  have := a.isLt
  have := b.isLt
  refine syllable_ok (by decide) (by simp (disch := omega)) ?_
  have hd : ∀ x y n e, decodeScalar (Raw.mk 0x64 x y n e) = (fun r : Raw => accept [(r.x, 4), (r.nz 1 0, 3)] (.bins r.g (r.f 6 13) (r.f 6 7) (r.f 6 1))) (Raw.mk 0x64 x y n e) := fun _ _ _ _ => rfl
  show decodeScalar (syllable 0x64 g (packSR d.toNat a.toNat b.toNat 0) none) = _
  refine (hd _ _ _ _).trans ?_
  show (fun r : Raw => accept [(r.x, 4), (r.nz 1 0, 3)] (.bins r.g (r.f 6 13) (r.f 6 7) (r.f 6 1))) (syllable 0x64 g (packSR d.toNat a.toNat b.toNat 0) none) = _
  exact accept_ok hw (by simp (disch := omega) [raw_f, raw_b]) (by simp (disch := omega) [-Bool.and_eq_false_imp, raw_nz, raw_b])

theorem Encoding.sext (g : Guard) (d : SReg) (a : SReg) (i : BitVec 7) : Encoding.Statement (.sext g d a i) := by
  intro hw
  have := d.isLt
  have := a.isLt
  have := i.isLt
  refine syllable_ok (by decide) (by simp (disch := omega)) ?_
  have hd : ∀ x y n e, decodeScalar (Raw.mk 0x65 x y n e) = (fun r : Raw => accept [(r.x, 4), (r.x && r.nz 7 0, 3)] (.sext r.g (r.f 6 13) (r.f 6 7) (r.f 7 0))) (Raw.mk 0x65 x y n e) := fun _ _ _ _ => rfl
  show decodeScalar (syllable 0x65 g (packSI d.toNat a.toNat i.toNat) none) = _
  refine (hd _ _ _ _).trans ?_
  show (fun r : Raw => accept [(r.x, 4), (r.x && r.nz 7 0, 3)] (.sext r.g (r.f 6 13) (r.f 6 7) (r.f 7 0))) (syllable 0x65 g (packSI d.toNat a.toNat i.toNat) none) = _
  exact accept_ok hw (by simp (disch := omega) [raw_f, raw_b]) (by simp (disch := omega) [-Bool.and_eq_false_imp, raw_nz, raw_b])

theorem Encoding.zext (g : Guard) (d : SReg) (a : SReg) (i : BitVec 7) : Encoding.Statement (.zext g d a i) := by
  intro hw
  have := d.isLt
  have := a.isLt
  have := i.isLt
  refine syllable_ok (by decide) (by simp (disch := omega)) ?_
  have hd : ∀ x y n e, decodeScalar (Raw.mk 0x66 x y n e) = (fun r : Raw => accept [(r.x, 4), (r.x && r.nz 7 0, 3)] (.zext r.g (r.f 6 13) (r.f 6 7) (r.f 7 0))) (Raw.mk 0x66 x y n e) := fun _ _ _ _ => rfl
  show decodeScalar (syllable 0x66 g (packSI d.toNat a.toNat i.toNat) none) = _
  refine (hd _ _ _ _).trans ?_
  show (fun r : Raw => accept [(r.x, 4), (r.x && r.nz 7 0, 3)] (.zext r.g (r.f 6 13) (r.f 6 7) (r.f 7 0))) (syllable 0x66 g (packSI d.toNat a.toNat i.toNat) none) = _
  exact accept_ok hw (by simp (disch := omega) [raw_f, raw_b]) (by simp (disch := omega) [-Bool.and_eq_false_imp, raw_nz, raw_b])

theorem Encoding.mov (g : Guard) (d : SReg) (a : SReg) : Encoding.Statement (.mov g d a) := by
  intro hw
  have := d.isLt
  have := a.isLt
  refine syllable_ok (by decide) (by simp (disch := omega)) ?_
  have hd : ∀ x y n e, decodeScalar (Raw.mk 0x70 x y n e) = (fun r : Raw => accept [(r.x, 4), (r.nz 7 0, 3)] (.mov r.g (r.f 6 13) (r.f 6 7))) (Raw.mk 0x70 x y n e) := fun _ _ _ _ => rfl
  show decodeScalar (syllable 0x70 g (packSR d.toNat a.toNat 0 0) none) = _
  refine (hd _ _ _ _).trans ?_
  show (fun r : Raw => accept [(r.x, 4), (r.nz 7 0, 3)] (.mov r.g (r.f 6 13) (r.f 6 7))) (syllable 0x70 g (packSR d.toNat a.toNat 0 0) none) = _
  exact accept_ok hw (by simp (disch := omega) [raw_f, raw_b]) (by simp (disch := omega) [-Bool.and_eq_false_imp, raw_nz, raw_b])

theorem Encoding.li (g : Guard) (d : SReg) (m : Imm) : Encoding.Statement (.li g d m) := by
  intro hw
  have := imm_field_lt m
  have := d.isLt
  refine syllable_ok (by decide) (by simp (disch := omega)) ?_
  have hd : ∀ x y n e, decodeScalar (Raw.mk 0x71 x y n e) = (fun r : Raw => accept [(r.x && r.nz 7 0, 3), (r.nz 6 7, 3)] (.li r.g (r.f 6 13) r.imm)) (Raw.mk 0x71 x y n e) := fun _ _ _ _ => rfl
  show decodeScalar (syllable 0x71 g (packSI d.toNat 0 m.field) m.word) = _
  refine (hd _ _ _ _).trans ?_
  show (fun r : Raw => accept [(r.x && r.nz 7 0, 3), (r.nz 6 7, 3)] (.li r.g (r.f 6 13) r.imm)) (syllable 0x71 g (packSI d.toNat 0 m.field) m.word) = _
  exact accept_ok hw (by simp (disch := omega) [raw_f, raw_b, imm_eq]) (by simp (disch := omega) [-Bool.and_eq_false_imp, raw_nz, raw_b])

theorem Encoding.lih (g : Guard) (d : SReg) (a : SReg) (m : Imm) : Encoding.Statement (.lih g d a m) := by
  intro hw
  have := imm_field_lt m
  have := d.isLt
  have := a.isLt
  refine syllable_ok (by decide) (by simp (disch := omega)) ?_
  have hd : ∀ x y n e, decodeScalar (Raw.mk 0x72 x y n e) = (fun r : Raw => accept [(r.x && r.nz 7 0, 3)] (.lih r.g (r.f 6 13) (r.f 6 7) r.imm)) (Raw.mk 0x72 x y n e) := fun _ _ _ _ => rfl
  show decodeScalar (syllable 0x72 g (packSI d.toNat a.toNat m.field) m.word) = _
  refine (hd _ _ _ _).trans ?_
  show (fun r : Raw => accept [(r.x && r.nz 7 0, 3)] (.lih r.g (r.f 6 13) (r.f 6 7) r.imm)) (syllable 0x72 g (packSI d.toNat a.toNat m.field) m.word) = _
  exact accept_ok hw (by simp (disch := omega) [raw_f, raw_b, imm_eq]) (by simp (disch := omega) [-Bool.and_eq_false_imp, raw_nz, raw_b])

theorem Encoding.sysr (g : Guard) (r : SReg) (n : BitVec 13) : Encoding.Statement (.sysr g r n) := by
  intro hw
  have := r.isLt
  have := n.isLt
  refine syllable_ok (by decide) (by simp (disch := omega)) ?_
  have hd : ∀ x y n e, decodeScalar (Raw.mk 0x78 x y n e) = (fun r : Raw => accept [(r.x, 4)] (.sysr r.g (r.f 6 13) (r.f 13 0))) (Raw.mk 0x78 x y n e) := fun _ _ _ _ => rfl
  show decodeScalar (syllable 0x78 g (packSY r.toNat n.toNat) none) = _
  refine (hd _ _ _ _).trans ?_
  show (fun r : Raw => accept [(r.x, 4)] (.sysr r.g (r.f 6 13) (r.f 13 0))) (syllable 0x78 g (packSY r.toNat n.toNat) none) = _
  exact accept_ok hw (by simp (disch := omega) [raw_f, raw_b]) (by simp (disch := omega) [-Bool.and_eq_false_imp, raw_nz, raw_b])

theorem Encoding.sysw (g : Guard) (r : SReg) (n : BitVec 13) : Encoding.Statement (.sysw g r n) := by
  intro hw
  have := r.isLt
  have := n.isLt
  refine syllable_ok (by decide) (by simp (disch := omega)) ?_
  have hd : ∀ x y n e, decodeScalar (Raw.mk 0x79 x y n e) = (fun r : Raw => accept [(r.x, 4)] (.sysw r.g (r.f 6 13) (r.f 13 0))) (Raw.mk 0x79 x y n e) := fun _ _ _ _ => rfl
  show decodeScalar (syllable 0x79 g (packSY r.toNat n.toNat) none) = _
  refine (hd _ _ _ _).trans ?_
  show (fun r : Raw => accept [(r.x, 4)] (.sysw r.g (r.f 6 13) (r.f 13 0))) (syllable 0x79 g (packSY r.toNat n.toNat) none) = _
  exact accept_ok hw (by simp (disch := omega) [raw_f, raw_b]) (by simp (disch := omega) [-Bool.and_eq_false_imp, raw_nz, raw_b])

theorem Encoding.sysx (g : Guard) (r : SReg) (n : BitVec 13) : Encoding.Statement (.sysx g r n) := by
  intro hw
  have := r.isLt
  have := n.isLt
  refine syllable_ok (by decide) (by simp (disch := omega)) ?_
  have hd : ∀ x y n e, decodeScalar (Raw.mk 0x7A x y n e) = (fun r : Raw => accept [(r.x, 4)] (.sysx r.g (r.f 6 13) (r.f 13 0))) (Raw.mk 0x7A x y n e) := fun _ _ _ _ => rfl
  show decodeScalar (syllable 0x7A g (packSY r.toNat n.toNat) none) = _
  refine (hd _ _ _ _).trans ?_
  show (fun r : Raw => accept [(r.x, 4)] (.sysx r.g (r.f 6 13) (r.f 13 0))) (syllable 0x7A g (packSY r.toNat n.toNat) none) = _
  exact accept_ok hw (by simp (disch := omega) [raw_f, raw_b]) (by simp (disch := omega) [-Bool.and_eq_false_imp, raw_nz, raw_b])

theorem Encoding.b (g : Guard) (o : BitVec 19) : Encoding.Statement (.b g o) := by
  intro hw
  have := o.isLt
  refine syllable_ok (by decide) (by omega) ?_
  have hd : ∀ x y n e, decodeBranch (Raw.mk 0x01 x y n e) = (fun r : Raw => accept [(r.x, 4)] (.b r.g (r.f 19 0))) (Raw.mk 0x01 x y n e) := fun _ _ _ _ => rfl
  show decodeBranch (syllable 0x01 g (o.toNat) none) = _
  refine (hd _ _ _ _).trans ?_
  show (fun r : Raw => accept [(r.x, 4)] (.b r.g (r.f 19 0))) (syllable 0x01 g (o.toNat) none) = _
  exact accept_ok hw (by simp (disch := omega) [raw_f, raw_b, n_raw]) (by simp (disch := omega) [-Bool.and_eq_false_imp, raw_nz, raw_b, n_raw])

theorem Encoding.bl (g : Guard) (o : BitVec 19) : Encoding.Statement (.bl g o) := by
  intro hw
  have := o.isLt
  refine syllable_ok (by decide) (by omega) ?_
  have hd : ∀ x y n e, decodeBranch (Raw.mk 0x02 x y n e) = (fun r : Raw => accept [(r.x, 4)] (.bl r.g (r.f 19 0))) (Raw.mk 0x02 x y n e) := fun _ _ _ _ => rfl
  show decodeBranch (syllable 0x02 g (o.toNat) none) = _
  refine (hd _ _ _ _).trans ?_
  show (fun r : Raw => accept [(r.x, 4)] (.bl r.g (r.f 19 0))) (syllable 0x02 g (o.toNat) none) = _
  exact accept_ok hw (by simp (disch := omega) [raw_f, raw_b, n_raw]) (by simp (disch := omega) [-Bool.and_eq_false_imp, raw_nz, raw_b, n_raw])

theorem Encoding.br (g : Guard) (a : SReg) : Encoding.Statement (.br g a) := by
  intro hw
  have := a.isLt
  refine syllable_ok (by decide) (by simp (disch := omega)) ?_
  have hd : ∀ x y n e, decodeBranch (Raw.mk 0x03 x y n e) = (fun r : Raw => accept [(r.x, 4), (r.nz 6 13, 3), (r.nz 7 0, 3)] (.br r.g (r.f 6 7))) (Raw.mk 0x03 x y n e) := fun _ _ _ _ => rfl
  show decodeBranch (syllable 0x03 g (packSR 0 a.toNat 0 0) none) = _
  refine (hd _ _ _ _).trans ?_
  show (fun r : Raw => accept [(r.x, 4), (r.nz 6 13, 3), (r.nz 7 0, 3)] (.br r.g (r.f 6 7))) (syllable 0x03 g (packSR 0 a.toNat 0 0) none) = _
  exact accept_ok hw (by simp (disch := omega) [raw_f, raw_b]) (by simp (disch := omega) [-Bool.and_eq_false_imp, raw_nz, raw_b])

theorem Encoding.call (g : Guard) (d : SReg) (a : SReg) : Encoding.Statement (.call g d a) := by
  intro hw
  have := d.isLt
  have := a.isLt
  refine syllable_ok (by decide) (by simp (disch := omega)) ?_
  have hd : ∀ x y n e, decodeBranch (Raw.mk 0x04 x y n e) = (fun r : Raw => accept [(r.x, 4), (r.nz 7 0, 3)] (.call r.g (r.f 6 13) (r.f 6 7))) (Raw.mk 0x04 x y n e) := fun _ _ _ _ => rfl
  show decodeBranch (syllable 0x04 g (packSR d.toNat a.toNat 0 0) none) = _
  refine (hd _ _ _ _).trans ?_
  show (fun r : Raw => accept [(r.x, 4), (r.nz 7 0, 3)] (.call r.g (r.f 6 13) (r.f 6 7))) (syllable 0x04 g (packSR d.toNat a.toNat 0 0) none) = _
  exact accept_ok hw (by simp (disch := omega) [raw_f, raw_b]) (by simp (disch := omega) [-Bool.and_eq_false_imp, raw_nz, raw_b])

theorem Encoding.ret (g : Guard) (a : SReg) : Encoding.Statement (.ret g a) := by
  intro hw
  have := a.isLt
  refine syllable_ok (by decide) (by simp (disch := omega)) ?_
  have hd : ∀ x y n e, decodeBranch (Raw.mk 0x05 x y n e) = (fun r : Raw => accept [(r.x, 4), (r.nz 6 13, 3), (r.nz 7 0, 3)] (.ret r.g (r.f 6 7))) (Raw.mk 0x05 x y n e) := fun _ _ _ _ => rfl
  show decodeBranch (syllable 0x05 g (packSR 0 a.toNat 0 0) none) = _
  refine (hd _ _ _ _).trans ?_
  show (fun r : Raw => accept [(r.x, 4), (r.nz 6 13, 3), (r.nz 7 0, 3)] (.ret r.g (r.f 6 7))) (syllable 0x05 g (packSR 0 a.toNat 0 0) none) = _
  exact accept_ok hw (by simp (disch := omega) [raw_f, raw_b]) (by simp (disch := omega) [-Bool.and_eq_false_imp, raw_nz, raw_b])

theorem Encoding.disp (g : Guard) (a : SReg) (b : SReg) : Encoding.Statement (.disp g a b) := by
  intro hw
  have := a.isLt
  have := b.isLt
  refine syllable_ok (by decide) (by simp (disch := omega)) ?_
  have hd : ∀ x y n e, decodeBranch (Raw.mk 0x06 x y n e) = (fun r : Raw => accept [(r.x, 4), (r.nz 6 13, 3), (r.nz 1 0, 3)] (.disp r.g (r.f 6 7) (r.f 6 1))) (Raw.mk 0x06 x y n e) := fun _ _ _ _ => rfl
  show decodeBranch (syllable 0x06 g (packSR 0 a.toNat b.toNat 0) none) = _
  refine (hd _ _ _ _).trans ?_
  show (fun r : Raw => accept [(r.x, 4), (r.nz 6 13, 3), (r.nz 1 0, 3)] (.disp r.g (r.f 6 7) (r.f 6 1))) (syllable 0x06 g (packSR 0 a.toNat b.toNat 0) none) = _
  exact accept_ok hw (by simp (disch := omega) [raw_f, raw_b]) (by simp (disch := omega) [-Bool.and_eq_false_imp, raw_nz, raw_b])

theorem Encoding.loop (g : Guard) (l : LcReg) (c : SReg) (e : BitVec 11) : Encoding.Statement (.loop g l c e) := by
  intro hw
  have := l.isLt
  have := c.isLt
  have := e.isLt
  refine syllable_ok (by decide) (by simp (disch := omega)) ?_
  have hd : ∀ x y n e, decodeBranch (Raw.mk 0x20 x y n e) = (fun r : Raw => accept [(r.x, 4)] (.loop r.g (r.f 2 17) (r.f 6 11) (r.f 11 0))) (Raw.mk 0x20 x y n e) := fun _ _ _ _ => rfl
  show decodeBranch (syllable 0x20 g (packLP l.toNat c.toNat e.toNat) none) = _
  refine (hd _ _ _ _).trans ?_
  show (fun r : Raw => accept [(r.x, 4)] (.loop r.g (r.f 2 17) (r.f 6 11) (r.f 11 0))) (syllable 0x20 g (packLP l.toNat c.toNat e.toNat) none) = _
  exact accept_ok hw (by simp (disch := omega) [raw_f, raw_b]) (by simp (disch := omega) [-Bool.and_eq_false_imp, raw_nz, raw_b])

theorem Encoding.loopi (g : Guard) (l : LcReg) (c : Count) (e : BitVec 11) : Encoding.Statement (.loopi g l c e) := by
  intro hw
  have := count_field_lt c
  have := l.isLt
  have := e.isLt
  refine syllable_ok (by decide) (by simp (disch := omega)) ?_
  have hd : ∀ x y n e, decodeBranch (Raw.mk 0x21 x y n e) = (fun r : Raw => accept [(r.x && r.nz 6 11, 3)] (.loopi r.g (r.f 2 17) r.count (r.f 11 0))) (Raw.mk 0x21 x y n e) := fun _ _ _ _ => rfl
  show decodeBranch (syllable 0x21 g (packLP l.toNat c.field e.toNat) c.word) = _
  refine (hd _ _ _ _).trans ?_
  show (fun r : Raw => accept [(r.x && r.nz 6 11, 3)] (.loopi r.g (r.f 2 17) r.count (r.f 11 0))) (syllable 0x21 g (packLP l.toNat c.field e.toNat) c.word) = _
  exact accept_ok hw (by simp (disch := omega) [raw_f, raw_b, count_eq]) (by simp (disch := omega) [-Bool.and_eq_false_imp, raw_nz, raw_b])

theorem Encoding.yield (g : Guard) : Encoding.Statement (.yield g) := by
  intro hw
  refine syllable_ok (by decide) (by omega) ?_
  have hd : ∀ x y n e, decodeBranch (Raw.mk 0x30 x y n e) = (fun r : Raw => accept [(r.x, 4), (r.nz 19 0, 3)] (.yield r.g)) (Raw.mk 0x30 x y n e) := fun _ _ _ _ => rfl
  show decodeBranch (syllable 0x30 g (0) none) = _
  refine (hd _ _ _ _).trans ?_
  show (fun r : Raw => accept [(r.x, 4), (r.nz 19 0, 3)] (.yield r.g)) (syllable 0x30 g (0) none) = _
  exact accept_ok hw (by simp (disch := omega) [raw_f, raw_b, n_raw]) (by simp (disch := omega) [-Bool.and_eq_false_imp, raw_nz, raw_b, n_raw])

theorem Encoding.susp (g : Guard) : Encoding.Statement (.susp g) := by
  intro hw
  refine syllable_ok (by decide) (by omega) ?_
  have hd : ∀ x y n e, decodeBranch (Raw.mk 0x31 x y n e) = (fun r : Raw => accept [(r.x, 4), (r.nz 19 0, 3)] (.susp r.g)) (Raw.mk 0x31 x y n e) := fun _ _ _ _ => rfl
  show decodeBranch (syllable 0x31 g (0) none) = _
  refine (hd _ _ _ _).trans ?_
  show (fun r : Raw => accept [(r.x, 4), (r.nz 19 0, 3)] (.susp r.g)) (syllable 0x31 g (0) none) = _
  exact accept_ok hw (by simp (disch := omega) [raw_f, raw_b, n_raw]) (by simp (disch := omega) [-Bool.and_eq_false_imp, raw_nz, raw_b, n_raw])

theorem Encoding.tend (g : Guard) : Encoding.Statement (.tend g) := by
  intro hw
  refine syllable_ok (by decide) (by omega) ?_
  have hd : ∀ x y n e, decodeBranch (Raw.mk 0x32 x y n e) = (fun r : Raw => accept [(r.x, 4), (r.nz 19 0, 3)] (.tend r.g)) (Raw.mk 0x32 x y n e) := fun _ _ _ _ => rfl
  show decodeBranch (syllable 0x32 g (0) none) = _
  refine (hd _ _ _ _).trans ?_
  show (fun r : Raw => accept [(r.x, 4), (r.nz 19 0, 3)] (.tend r.g)) (syllable 0x32 g (0) none) = _
  exact accept_ok hw (by simp (disch := omega) [raw_f, raw_b, n_raw]) (by simp (disch := omega) [-Bool.and_eq_false_imp, raw_nz, raw_b, n_raw])

theorem Encoding.halt (g : Guard) : Encoding.Statement (.halt g) := by
  intro hw
  refine syllable_ok (by decide) (by omega) ?_
  have hd : ∀ x y n e, decodeBranch (Raw.mk 0x33 x y n e) = (fun r : Raw => accept [(r.x, 4), (r.nz 19 0, 3)] (.halt r.g)) (Raw.mk 0x33 x y n e) := fun _ _ _ _ => rfl
  show decodeBranch (syllable 0x33 g (0) none) = _
  refine (hd _ _ _ _).trans ?_
  show (fun r : Raw => accept [(r.x, 4), (r.nz 19 0, 3)] (.halt r.g)) (syllable 0x33 g (0) none) = _
  exact accept_ok hw (by simp (disch := omega) [raw_f, raw_b, n_raw]) (by simp (disch := omega) [-Bool.and_eq_false_imp, raw_nz, raw_b, n_raw])

theorem Encoding.iwait (g : Guard) (d : SReg) (i : BitVec 7) : Encoding.Statement (.iwait g d i) := by
  intro hw
  have := d.isLt
  have := i.isLt
  refine syllable_ok (by decide) (by simp (disch := omega)) ?_
  have hd : ∀ x y n e, decodeBranch (Raw.mk 0x40 x y n e) = (fun r : Raw => accept [(r.x, 4), (r.x && r.nz 7 0, 3), (r.nz 6 7, 3)] (.iwait r.g (r.f 6 13) (r.f 7 0))) (Raw.mk 0x40 x y n e) := fun _ _ _ _ => rfl
  show decodeBranch (syllable 0x40 g (packSI d.toNat 0 i.toNat) none) = _
  refine (hd _ _ _ _).trans ?_
  show (fun r : Raw => accept [(r.x, 4), (r.x && r.nz 7 0, 3), (r.nz 6 7, 3)] (.iwait r.g (r.f 6 13) (r.f 7 0))) (syllable 0x40 g (packSI d.toNat 0 i.toNat) none) = _
  exact accept_ok hw (by simp (disch := omega) [raw_f, raw_b]) (by simp (disch := omega) [-Bool.and_eq_false_imp, raw_nz, raw_b])

theorem Encoding.trap (g : Guard) (i : BitVec 7) : Encoding.Statement (.trap g i) := by
  intro hw
  have := i.isLt
  refine syllable_ok (by decide) (by omega) ?_
  have hd : ∀ x y n e, decodeBranch (Raw.mk 0x41 x y n e) = (fun r : Raw => accept [(r.x, 4), (r.x && r.nz 7 0, 3), (r.nz 12 7, 3)] (.trap r.g (r.f 7 0))) (Raw.mk 0x41 x y n e) := fun _ _ _ _ => rfl
  show decodeBranch (syllable 0x41 g (i.toNat) none) = _
  refine (hd _ _ _ _).trans ?_
  show (fun r : Raw => accept [(r.x, 4), (r.x && r.nz 7 0, 3), (r.nz 12 7, 3)] (.trap r.g (r.f 7 0))) (syllable 0x41 g (i.toNat) none) = _
  exact accept_ok hw (by simp (disch := omega) [raw_f, raw_b, n_raw]) (by simp (disch := omega) [-Bool.and_eq_false_imp, raw_nz, raw_b, n_raw] <;> omega)

theorem Encoding.brk (g : Guard) (i : BitVec 7) : Encoding.Statement (.brk g i) := by
  intro hw
  have := i.isLt
  refine syllable_ok (by decide) (by omega) ?_
  have hd : ∀ x y n e, decodeBranch (Raw.mk 0x42 x y n e) = (fun r : Raw => accept [(r.x, 4), (r.x && r.nz 7 0, 3), (r.nz 12 7, 3)] (.brk r.g (r.f 7 0))) (Raw.mk 0x42 x y n e) := fun _ _ _ _ => rfl
  show decodeBranch (syllable 0x42 g (i.toNat) none) = _
  refine (hd _ _ _ _).trans ?_
  show (fun r : Raw => accept [(r.x, 4), (r.x && r.nz 7 0, 3), (r.nz 12 7, 3)] (.brk r.g (r.f 7 0))) (syllable 0x42 g (i.toNat) none) = _
  exact accept_ok hw (by simp (disch := omega) [raw_f, raw_b, n_raw]) (by simp (disch := omega) [-Bool.and_eq_false_imp, raw_nz, raw_b, n_raw] <;> omega)

theorem Encoding.eret (g : Guard) : Encoding.Statement (.eret g) := by
  intro hw
  refine syllable_ok (by decide) (by omega) ?_
  have hd : ∀ x y n e, decodeBranch (Raw.mk 0x43 x y n e) = (fun r : Raw => accept [(r.x, 4), (r.nz 19 0, 3)] (.eret r.g)) (Raw.mk 0x43 x y n e) := fun _ _ _ _ => rfl
  show decodeBranch (syllable 0x43 g (0) none) = _
  refine (hd _ _ _ _).trans ?_
  show (fun r : Raw => accept [(r.x, 4), (r.nz 19 0, 3)] (.eret r.g)) (syllable 0x43 g (0) none) = _
  exact accept_ok hw (by simp (disch := omega) [raw_f, raw_b, n_raw]) (by simp (disch := omega) [-Bool.and_eq_false_imp, raw_nz, raw_b, n_raw])

theorem Encoding.ldb (g : Guard) (d : SReg) (h : HReg) (o : SReg) (t : Step) : Encoding.Statement (.ldb g d h o t) := by
  intro hw
  have := step_code_lt t
  have := d.isLt
  have := h.isLt
  have := o.isLt
  refine syllable_ok (by decide) (by simp (disch := omega)) ?_
  have hd : ∀ x y n e, decodeLoad (Raw.mk 0x01 x y n e) = (fun r : Raw => accept [(r.x && r.n 3 0 != 6, 4), (!r.x && r.n 3 0 == 6, 5), (r.n 3 0 == 7, 6)] (.ldb r.g (r.f 6 13) (r.f 4 9) (r.f 6 3) r.step)) (Raw.mk 0x01 x y n e) := fun _ _ _ _ => rfl
  show decodeLoad (syllable 0x01 g (packME d.toNat h.toNat o.toNat t.code) t.word) = _
  refine (hd _ _ _ _).trans ?_
  show (fun r : Raw => accept [(r.x && r.n 3 0 != 6, 4), (!r.x && r.n 3 0 == 6, 5), (r.n 3 0 == 7, 6)] (.ldb r.g (r.f 6 13) (r.f 4 9) (r.f 6 3) r.step)) (syllable 0x01 g (packME d.toNat h.toNat o.toNat t.code) t.word) = _
  exact accept_ok hw (by simp (disch := omega) [raw_f, raw_b, step_eq]) (by simp (disch := omega) [-Bool.and_eq_false_imp, raw_nz, raw_b])

theorem Encoding.ldh (g : Guard) (d : SReg) (h : HReg) (o : SReg) (t : Step) : Encoding.Statement (.ldh g d h o t) := by
  intro hw
  have := step_code_lt t
  have := d.isLt
  have := h.isLt
  have := o.isLt
  refine syllable_ok (by decide) (by simp (disch := omega)) ?_
  have hd : ∀ x y n e, decodeLoad (Raw.mk 0x02 x y n e) = (fun r : Raw => accept [(r.x && r.n 3 0 != 6, 4), (!r.x && r.n 3 0 == 6, 5), (r.n 3 0 == 7, 6)] (.ldh r.g (r.f 6 13) (r.f 4 9) (r.f 6 3) r.step)) (Raw.mk 0x02 x y n e) := fun _ _ _ _ => rfl
  show decodeLoad (syllable 0x02 g (packME d.toNat h.toNat o.toNat t.code) t.word) = _
  refine (hd _ _ _ _).trans ?_
  show (fun r : Raw => accept [(r.x && r.n 3 0 != 6, 4), (!r.x && r.n 3 0 == 6, 5), (r.n 3 0 == 7, 6)] (.ldh r.g (r.f 6 13) (r.f 4 9) (r.f 6 3) r.step)) (syllable 0x02 g (packME d.toNat h.toNat o.toNat t.code) t.word) = _
  exact accept_ok hw (by simp (disch := omega) [raw_f, raw_b, step_eq]) (by simp (disch := omega) [-Bool.and_eq_false_imp, raw_nz, raw_b])

theorem Encoding.ldw (g : Guard) (d : SReg) (h : HReg) (o : SReg) (t : Step) : Encoding.Statement (.ldw g d h o t) := by
  intro hw
  have := step_code_lt t
  have := d.isLt
  have := h.isLt
  have := o.isLt
  refine syllable_ok (by decide) (by simp (disch := omega)) ?_
  have hd : ∀ x y n e, decodeLoad (Raw.mk 0x03 x y n e) = (fun r : Raw => accept [(r.x && r.n 3 0 != 6, 4), (!r.x && r.n 3 0 == 6, 5), (r.n 3 0 == 7, 6)] (.ldw r.g (r.f 6 13) (r.f 4 9) (r.f 6 3) r.step)) (Raw.mk 0x03 x y n e) := fun _ _ _ _ => rfl
  show decodeLoad (syllable 0x03 g (packME d.toNat h.toNat o.toNat t.code) t.word) = _
  refine (hd _ _ _ _).trans ?_
  show (fun r : Raw => accept [(r.x && r.n 3 0 != 6, 4), (!r.x && r.n 3 0 == 6, 5), (r.n 3 0 == 7, 6)] (.ldw r.g (r.f 6 13) (r.f 4 9) (r.f 6 3) r.step)) (syllable 0x03 g (packME d.toNat h.toNat o.toNat t.code) t.word) = _
  exact accept_ok hw (by simp (disch := omega) [raw_f, raw_b, step_eq]) (by simp (disch := omega) [-Bool.and_eq_false_imp, raw_nz, raw_b])

theorem Encoding.ldd (g : Guard) (d : SReg) (h : HReg) (o : SReg) (t : Step) : Encoding.Statement (.ldd g d h o t) := by
  intro hw
  have := step_code_lt t
  have := d.isLt
  have := h.isLt
  have := o.isLt
  refine syllable_ok (by decide) (by simp (disch := omega)) ?_
  have hd : ∀ x y n e, decodeLoad (Raw.mk 0x04 x y n e) = (fun r : Raw => accept [(r.x && r.n 3 0 != 6, 4), (!r.x && r.n 3 0 == 6, 5), (r.n 3 0 == 7, 6)] (.ldd r.g (r.f 6 13) (r.f 4 9) (r.f 6 3) r.step)) (Raw.mk 0x04 x y n e) := fun _ _ _ _ => rfl
  show decodeLoad (syllable 0x04 g (packME d.toNat h.toNat o.toNat t.code) t.word) = _
  refine (hd _ _ _ _).trans ?_
  show (fun r : Raw => accept [(r.x && r.n 3 0 != 6, 4), (!r.x && r.n 3 0 == 6, 5), (r.n 3 0 == 7, 6)] (.ldd r.g (r.f 6 13) (r.f 4 9) (r.f 6 3) r.step)) (syllable 0x04 g (packME d.toNat h.toNat o.toNat t.code) t.word) = _
  exact accept_ok hw (by simp (disch := omega) [raw_f, raw_b, step_eq]) (by simp (disch := omega) [-Bool.and_eq_false_imp, raw_nz, raw_b])

theorem Encoding.ldbz (g : Guard) (d : SReg) (h : HReg) (o : SReg) (t : Step) : Encoding.Statement (.ldbz g d h o t) := by
  intro hw
  have := step_code_lt t
  have := d.isLt
  have := h.isLt
  have := o.isLt
  refine syllable_ok (by decide) (by simp (disch := omega)) ?_
  have hd : ∀ x y n e, decodeLoad (Raw.mk 0x05 x y n e) = (fun r : Raw => accept [(r.x && r.n 3 0 != 6, 4), (!r.x && r.n 3 0 == 6, 5), (r.n 3 0 == 7, 6)] (.ldbz r.g (r.f 6 13) (r.f 4 9) (r.f 6 3) r.step)) (Raw.mk 0x05 x y n e) := fun _ _ _ _ => rfl
  show decodeLoad (syllable 0x05 g (packME d.toNat h.toNat o.toNat t.code) t.word) = _
  refine (hd _ _ _ _).trans ?_
  show (fun r : Raw => accept [(r.x && r.n 3 0 != 6, 4), (!r.x && r.n 3 0 == 6, 5), (r.n 3 0 == 7, 6)] (.ldbz r.g (r.f 6 13) (r.f 4 9) (r.f 6 3) r.step)) (syllable 0x05 g (packME d.toNat h.toNat o.toNat t.code) t.word) = _
  exact accept_ok hw (by simp (disch := omega) [raw_f, raw_b, step_eq]) (by simp (disch := omega) [-Bool.and_eq_false_imp, raw_nz, raw_b])

theorem Encoding.ldhz (g : Guard) (d : SReg) (h : HReg) (o : SReg) (t : Step) : Encoding.Statement (.ldhz g d h o t) := by
  intro hw
  have := step_code_lt t
  have := d.isLt
  have := h.isLt
  have := o.isLt
  refine syllable_ok (by decide) (by simp (disch := omega)) ?_
  have hd : ∀ x y n e, decodeLoad (Raw.mk 0x06 x y n e) = (fun r : Raw => accept [(r.x && r.n 3 0 != 6, 4), (!r.x && r.n 3 0 == 6, 5), (r.n 3 0 == 7, 6)] (.ldhz r.g (r.f 6 13) (r.f 4 9) (r.f 6 3) r.step)) (Raw.mk 0x06 x y n e) := fun _ _ _ _ => rfl
  show decodeLoad (syllable 0x06 g (packME d.toNat h.toNat o.toNat t.code) t.word) = _
  refine (hd _ _ _ _).trans ?_
  show (fun r : Raw => accept [(r.x && r.n 3 0 != 6, 4), (!r.x && r.n 3 0 == 6, 5), (r.n 3 0 == 7, 6)] (.ldhz r.g (r.f 6 13) (r.f 4 9) (r.f 6 3) r.step)) (syllable 0x06 g (packME d.toNat h.toNat o.toNat t.code) t.word) = _
  exact accept_ok hw (by simp (disch := omega) [raw_f, raw_b, step_eq]) (by simp (disch := omega) [-Bool.and_eq_false_imp, raw_nz, raw_b])

theorem Encoding.ldwz (g : Guard) (d : SReg) (h : HReg) (o : SReg) (t : Step) : Encoding.Statement (.ldwz g d h o t) := by
  intro hw
  have := step_code_lt t
  have := d.isLt
  have := h.isLt
  have := o.isLt
  refine syllable_ok (by decide) (by simp (disch := omega)) ?_
  have hd : ∀ x y n e, decodeLoad (Raw.mk 0x07 x y n e) = (fun r : Raw => accept [(r.x && r.n 3 0 != 6, 4), (!r.x && r.n 3 0 == 6, 5), (r.n 3 0 == 7, 6)] (.ldwz r.g (r.f 6 13) (r.f 4 9) (r.f 6 3) r.step)) (Raw.mk 0x07 x y n e) := fun _ _ _ _ => rfl
  show decodeLoad (syllable 0x07 g (packME d.toNat h.toNat o.toNat t.code) t.word) = _
  refine (hd _ _ _ _).trans ?_
  show (fun r : Raw => accept [(r.x && r.n 3 0 != 6, 4), (!r.x && r.n 3 0 == 6, 5), (r.n 3 0 == 7, 6)] (.ldwz r.g (r.f 6 13) (r.f 4 9) (r.f 6 3) r.step)) (syllable 0x07 g (packME d.toNat h.toNat o.toNat t.code) t.word) = _
  exact accept_ok hw (by simp (disch := omega) [raw_f, raw_b, step_eq]) (by simp (disch := omega) [-Bool.and_eq_false_imp, raw_nz, raw_b])

theorem Encoding.stb (g : Guard) (d : SReg) (h : HReg) (o : SReg) (t : Step) : Encoding.Statement (.stb g d h o t) := by
  intro hw
  have := step_code_lt t
  have := d.isLt
  have := h.isLt
  have := o.isLt
  refine syllable_ok (by decide) (by simp (disch := omega)) ?_
  have hd : ∀ x y n e, decodeLoad (Raw.mk 0x08 x y n e) = (fun r : Raw => accept [(r.x && r.n 3 0 != 6, 4), (!r.x && r.n 3 0 == 6, 5), (r.n 3 0 == 7, 6)] (.stb r.g (r.f 6 13) (r.f 4 9) (r.f 6 3) r.step)) (Raw.mk 0x08 x y n e) := fun _ _ _ _ => rfl
  show decodeLoad (syllable 0x08 g (packME d.toNat h.toNat o.toNat t.code) t.word) = _
  refine (hd _ _ _ _).trans ?_
  show (fun r : Raw => accept [(r.x && r.n 3 0 != 6, 4), (!r.x && r.n 3 0 == 6, 5), (r.n 3 0 == 7, 6)] (.stb r.g (r.f 6 13) (r.f 4 9) (r.f 6 3) r.step)) (syllable 0x08 g (packME d.toNat h.toNat o.toNat t.code) t.word) = _
  exact accept_ok hw (by simp (disch := omega) [raw_f, raw_b, step_eq]) (by simp (disch := omega) [-Bool.and_eq_false_imp, raw_nz, raw_b])

theorem Encoding.sth (g : Guard) (d : SReg) (h : HReg) (o : SReg) (t : Step) : Encoding.Statement (.sth g d h o t) := by
  intro hw
  have := step_code_lt t
  have := d.isLt
  have := h.isLt
  have := o.isLt
  refine syllable_ok (by decide) (by simp (disch := omega)) ?_
  have hd : ∀ x y n e, decodeLoad (Raw.mk 0x09 x y n e) = (fun r : Raw => accept [(r.x && r.n 3 0 != 6, 4), (!r.x && r.n 3 0 == 6, 5), (r.n 3 0 == 7, 6)] (.sth r.g (r.f 6 13) (r.f 4 9) (r.f 6 3) r.step)) (Raw.mk 0x09 x y n e) := fun _ _ _ _ => rfl
  show decodeLoad (syllable 0x09 g (packME d.toNat h.toNat o.toNat t.code) t.word) = _
  refine (hd _ _ _ _).trans ?_
  show (fun r : Raw => accept [(r.x && r.n 3 0 != 6, 4), (!r.x && r.n 3 0 == 6, 5), (r.n 3 0 == 7, 6)] (.sth r.g (r.f 6 13) (r.f 4 9) (r.f 6 3) r.step)) (syllable 0x09 g (packME d.toNat h.toNat o.toNat t.code) t.word) = _
  exact accept_ok hw (by simp (disch := omega) [raw_f, raw_b, step_eq]) (by simp (disch := omega) [-Bool.and_eq_false_imp, raw_nz, raw_b])

theorem Encoding.stw (g : Guard) (d : SReg) (h : HReg) (o : SReg) (t : Step) : Encoding.Statement (.stw g d h o t) := by
  intro hw
  have := step_code_lt t
  have := d.isLt
  have := h.isLt
  have := o.isLt
  refine syllable_ok (by decide) (by simp (disch := omega)) ?_
  have hd : ∀ x y n e, decodeLoad (Raw.mk 0x0A x y n e) = (fun r : Raw => accept [(r.x && r.n 3 0 != 6, 4), (!r.x && r.n 3 0 == 6, 5), (r.n 3 0 == 7, 6)] (.stw r.g (r.f 6 13) (r.f 4 9) (r.f 6 3) r.step)) (Raw.mk 0x0A x y n e) := fun _ _ _ _ => rfl
  show decodeLoad (syllable 0x0A g (packME d.toNat h.toNat o.toNat t.code) t.word) = _
  refine (hd _ _ _ _).trans ?_
  show (fun r : Raw => accept [(r.x && r.n 3 0 != 6, 4), (!r.x && r.n 3 0 == 6, 5), (r.n 3 0 == 7, 6)] (.stw r.g (r.f 6 13) (r.f 4 9) (r.f 6 3) r.step)) (syllable 0x0A g (packME d.toNat h.toNat o.toNat t.code) t.word) = _
  exact accept_ok hw (by simp (disch := omega) [raw_f, raw_b, step_eq]) (by simp (disch := omega) [-Bool.and_eq_false_imp, raw_nz, raw_b])

theorem Encoding.std (g : Guard) (d : SReg) (h : HReg) (o : SReg) (t : Step) : Encoding.Statement (.std g d h o t) := by
  intro hw
  have := step_code_lt t
  have := d.isLt
  have := h.isLt
  have := o.isLt
  refine syllable_ok (by decide) (by simp (disch := omega)) ?_
  have hd : ∀ x y n e, decodeLoad (Raw.mk 0x0B x y n e) = (fun r : Raw => accept [(r.x && r.n 3 0 != 6, 4), (!r.x && r.n 3 0 == 6, 5), (r.n 3 0 == 7, 6)] (.std r.g (r.f 6 13) (r.f 4 9) (r.f 6 3) r.step)) (Raw.mk 0x0B x y n e) := fun _ _ _ _ => rfl
  show decodeLoad (syllable 0x0B g (packME d.toNat h.toNat o.toNat t.code) t.word) = _
  refine (hd _ _ _ _).trans ?_
  show (fun r : Raw => accept [(r.x && r.n 3 0 != 6, 4), (!r.x && r.n 3 0 == 6, 5), (r.n 3 0 == 7, 6)] (.std r.g (r.f 6 13) (r.f 4 9) (r.f 6 3) r.step)) (syllable 0x0B g (packME d.toNat h.toNat o.toNat t.code) t.word) = _
  exact accept_ok hw (by simp (disch := omega) [raw_f, raw_b, step_eq]) (by simp (disch := omega) [-Bool.and_eq_false_imp, raw_nz, raw_b])

theorem Encoding.vld (g : Guard) (d : VReg) (h : HReg) (o : SReg) (t : Step) : Encoding.Statement (.vld g d h o t) := by
  intro hw
  have := step_code_lt t
  have := d.isLt
  have := h.isLt
  have := o.isLt
  refine syllable_ok (by decide) (by simp (disch := omega)) ?_
  have hd : ∀ x y n e, decodeLoad (Raw.mk 0x0C x y n e) = (fun r : Raw => accept [(r.x && r.n 3 0 != 6, 4), (!r.x && r.n 3 0 == 6, 5), (r.n 3 0 == 7, 6), (r.nz 1 18, 3)] (.vld r.g (r.f 5 13) (r.f 4 9) (r.f 6 3) r.step)) (Raw.mk 0x0C x y n e) := fun _ _ _ _ => rfl
  show decodeLoad (syllable 0x0C g (packME d.toNat h.toNat o.toNat t.code) t.word) = _
  refine (hd _ _ _ _).trans ?_
  show (fun r : Raw => accept [(r.x && r.n 3 0 != 6, 4), (!r.x && r.n 3 0 == 6, 5), (r.n 3 0 == 7, 6), (r.nz 1 18, 3)] (.vld r.g (r.f 5 13) (r.f 4 9) (r.f 6 3) r.step)) (syllable 0x0C g (packME d.toNat h.toNat o.toNat t.code) t.word) = _
  exact accept_ok hw (by simp (disch := omega) [raw_f, raw_b, step_eq, Nat.mod_eq_of_lt, Nat.div_eq_of_lt]) (by simp (disch := omega) [-Bool.and_eq_false_imp, raw_nz, raw_b, Nat.div_eq_of_lt])

theorem Encoding.vst (g : Guard) (d : VReg) (h : HReg) (o : SReg) (t : Step) : Encoding.Statement (.vst g d h o t) := by
  intro hw
  have := step_code_lt t
  have := d.isLt
  have := h.isLt
  have := o.isLt
  refine syllable_ok (by decide) (by simp (disch := omega)) ?_
  have hd : ∀ x y n e, decodeLoad (Raw.mk 0x0D x y n e) = (fun r : Raw => accept [(r.x && r.n 3 0 != 6, 4), (!r.x && r.n 3 0 == 6, 5), (r.n 3 0 == 7, 6), (r.nz 1 18, 3)] (.vst r.g (r.f 5 13) (r.f 4 9) (r.f 6 3) r.step)) (Raw.mk 0x0D x y n e) := fun _ _ _ _ => rfl
  show decodeLoad (syllable 0x0D g (packME d.toNat h.toNat o.toNat t.code) t.word) = _
  refine (hd _ _ _ _).trans ?_
  show (fun r : Raw => accept [(r.x && r.n 3 0 != 6, 4), (!r.x && r.n 3 0 == 6, 5), (r.n 3 0 == 7, 6), (r.nz 1 18, 3)] (.vst r.g (r.f 5 13) (r.f 4 9) (r.f 6 3) r.step)) (syllable 0x0D g (packME d.toNat h.toNat o.toNat t.code) t.word) = _
  exact accept_ok hw (by simp (disch := omega) [raw_f, raw_b, step_eq, Nat.mod_eq_of_lt, Nat.div_eq_of_lt]) (by simp (disch := omega) [-Bool.and_eq_false_imp, raw_nz, raw_b, Nat.div_eq_of_lt])

theorem Encoding.vldb (g : Guard) (d : VReg) (h : HReg) (o : SReg) (t : Step) : Encoding.Statement (.vldb g d h o t) := by
  intro hw
  have := step_code_lt t
  have := d.isLt
  have := h.isLt
  have := o.isLt
  refine syllable_ok (by decide) (by simp (disch := omega)) ?_
  have hd : ∀ x y n e, decodeLoad (Raw.mk 0x0E x y n e) = (fun r : Raw => accept [(r.x && r.n 3 0 != 6, 4), (!r.x && r.n 3 0 == 6, 5), (r.n 3 0 == 7, 6), (r.nz 1 18, 3)] (.vldb r.g (r.f 5 13) (r.f 4 9) (r.f 6 3) r.step)) (Raw.mk 0x0E x y n e) := fun _ _ _ _ => rfl
  show decodeLoad (syllable 0x0E g (packME d.toNat h.toNat o.toNat t.code) t.word) = _
  refine (hd _ _ _ _).trans ?_
  show (fun r : Raw => accept [(r.x && r.n 3 0 != 6, 4), (!r.x && r.n 3 0 == 6, 5), (r.n 3 0 == 7, 6), (r.nz 1 18, 3)] (.vldb r.g (r.f 5 13) (r.f 4 9) (r.f 6 3) r.step)) (syllable 0x0E g (packME d.toNat h.toNat o.toNat t.code) t.word) = _
  exact accept_ok hw (by simp (disch := omega) [raw_f, raw_b, step_eq, Nat.mod_eq_of_lt, Nat.div_eq_of_lt]) (by simp (disch := omega) [-Bool.and_eq_false_imp, raw_nz, raw_b, Nat.div_eq_of_lt])

theorem Encoding.cbput (g : Guard) (d : VReg) (n : CbReg) : Encoding.Statement (.cbput g d n) := by
  intro hw
  have := d.isLt
  have := n.isLt
  refine syllable_ok (by decide) (by simp (disch := omega)) ?_
  have hd : ∀ x y n e, decodeLoad (Raw.mk 0x40 x y n e) = (fun r : Raw => accept [(r.x && r.n 3 0 != 6, 4), (!r.x && r.n 3 0 == 6, 5), (r.nz 3 0, 3), (r.nz 4 9, 3), (r.nz 1 18, 3), (r.nz 1 8, 7)] (.cbput r.g (r.f 5 13) (r.f 5 3))) (Raw.mk 0x40 x y n e) := fun _ _ _ _ => rfl
  show decodeLoad (syllable 0x40 g (packME d.toNat 0 n.toNat 0) none) = _
  refine (hd _ _ _ _).trans ?_
  show (fun r : Raw => accept [(r.x && r.n 3 0 != 6, 4), (!r.x && r.n 3 0 == 6, 5), (r.nz 3 0, 3), (r.nz 4 9, 3), (r.nz 1 18, 3), (r.nz 1 8, 7)] (.cbput r.g (r.f 5 13) (r.f 5 3))) (syllable 0x40 g (packME d.toNat 0 n.toNat 0) none) = _
  exact accept_ok hw (by simp (disch := omega) [raw_f, raw_b, Nat.mod_eq_of_lt, Nat.div_eq_of_lt]) (by simp (disch := omega) [-Bool.and_eq_false_imp, raw_nz, raw_b, Nat.div_eq_of_lt])

theorem Encoding.cbget (g : Guard) (d : VReg) (n : CbReg) : Encoding.Statement (.cbget g d n) := by
  intro hw
  have := d.isLt
  have := n.isLt
  refine syllable_ok (by decide) (by simp (disch := omega)) ?_
  have hd : ∀ x y n e, decodeLoad (Raw.mk 0x41 x y n e) = (fun r : Raw => accept [(r.x && r.n 3 0 != 6, 4), (!r.x && r.n 3 0 == 6, 5), (r.nz 3 0, 3), (r.nz 4 9, 3), (r.nz 1 18, 3), (r.nz 1 8, 7)] (.cbget r.g (r.f 5 13) (r.f 5 3))) (Raw.mk 0x41 x y n e) := fun _ _ _ _ => rfl
  show decodeLoad (syllable 0x41 g (packME d.toNat 0 n.toNat 0) none) = _
  refine (hd _ _ _ _).trans ?_
  show (fun r : Raw => accept [(r.x && r.n 3 0 != 6, 4), (!r.x && r.n 3 0 == 6, 5), (r.nz 3 0, 3), (r.nz 4 9, 3), (r.nz 1 18, 3), (r.nz 1 8, 7)] (.cbget r.g (r.f 5 13) (r.f 5 3))) (syllable 0x41 g (packME d.toNat 0 n.toNat 0) none) = _
  exact accept_ok hw (by simp (disch := omega) [raw_f, raw_b, Nat.mod_eq_of_lt, Nat.div_eq_of_lt]) (by simp (disch := omega) [-Bool.and_eq_false_imp, raw_nz, raw_b, Nat.div_eq_of_lt])

theorem Encoding.ldc (g : Guard) (d : CbReg) (h : HReg) (o : SReg) (t : Step) : Encoding.Statement (.ldc g d h o t) := by
  intro hw
  have := step_code_lt t
  have := d.isLt
  have := h.isLt
  have := o.isLt
  refine syllable_ok (by decide) (by simp (disch := omega)) ?_
  have hd : ∀ x y n e, decodeLoad (Raw.mk 0x42 x y n e) = (fun r : Raw => accept [(r.x && r.n 3 0 != 6, 4), (!r.x && r.n 3 0 == 6, 5), (r.n 3 0 == 7, 6), (r.nz 1 18, 3)] (.ldc r.g (r.f 5 13) (r.f 4 9) (r.f 6 3) r.step)) (Raw.mk 0x42 x y n e) := fun _ _ _ _ => rfl
  show decodeLoad (syllable 0x42 g (packME d.toNat h.toNat o.toNat t.code) t.word) = _
  refine (hd _ _ _ _).trans ?_
  show (fun r : Raw => accept [(r.x && r.n 3 0 != 6, 4), (!r.x && r.n 3 0 == 6, 5), (r.n 3 0 == 7, 6), (r.nz 1 18, 3)] (.ldc r.g (r.f 5 13) (r.f 4 9) (r.f 6 3) r.step)) (syllable 0x42 g (packME d.toNat h.toNat o.toNat t.code) t.word) = _
  exact accept_ok hw (by simp (disch := omega) [raw_f, raw_b, step_eq]) (by simp (disch := omega) [-Bool.and_eq_false_imp, raw_nz, raw_b] <;> omega)

theorem Encoding.stc (g : Guard) (d : CbReg) (h : HReg) (o : SReg) (t : Step) : Encoding.Statement (.stc g d h o t) := by
  intro hw
  have := step_code_lt t
  have := d.isLt
  have := h.isLt
  have := o.isLt
  refine syllable_ok (by decide) (by simp (disch := omega)) ?_
  have hd : ∀ x y n e, decodeLoad (Raw.mk 0x43 x y n e) = (fun r : Raw => accept [(r.x && r.n 3 0 != 6, 4), (!r.x && r.n 3 0 == 6, 5), (r.n 3 0 == 7, 6), (r.nz 1 18, 3)] (.stc r.g (r.f 5 13) (r.f 4 9) (r.f 6 3) r.step)) (Raw.mk 0x43 x y n e) := fun _ _ _ _ => rfl
  show decodeLoad (syllable 0x43 g (packME d.toNat h.toNat o.toNat t.code) t.word) = _
  refine (hd _ _ _ _).trans ?_
  show (fun r : Raw => accept [(r.x && r.n 3 0 != 6, 4), (!r.x && r.n 3 0 == 6, 5), (r.n 3 0 == 7, 6), (r.nz 1 18, 3)] (.stc r.g (r.f 5 13) (r.f 4 9) (r.f 6 3) r.step)) (syllable 0x43 g (packME d.toNat h.toNat o.toNat t.code) t.word) = _
  exact accept_ok hw (by simp (disch := omega) [raw_f, raw_b, step_eq]) (by simp (disch := omega) [-Bool.and_eq_false_imp, raw_nz, raw_b] <;> omega)

theorem Encoding.cbadvp (g : Guard) (d : CbReg) (o : SReg) : Encoding.Statement (.cbadvp g d o) := by
  intro hw
  have := d.isLt
  have := o.isLt
  refine syllable_ok (by decide) (by simp (disch := omega)) ?_
  have hd : ∀ x y n e, decodeLoad (Raw.mk 0x44 x y n e) = (fun r : Raw => accept [(r.x, 4), (r.nz 3 0, 3), (r.nz 4 9, 3), (r.nz 1 18, 3)] (.cbadvp r.g (r.f 5 13) (r.f 6 3))) (Raw.mk 0x44 x y n e) := fun _ _ _ _ => rfl
  show decodeLoad (syllable 0x44 g (packME d.toNat 0 o.toNat 0) none) = _
  refine (hd _ _ _ _).trans ?_
  show (fun r : Raw => accept [(r.x, 4), (r.nz 3 0, 3), (r.nz 4 9, 3), (r.nz 1 18, 3)] (.cbadvp r.g (r.f 5 13) (r.f 6 3))) (syllable 0x44 g (packME d.toNat 0 o.toNat 0) none) = _
  exact accept_ok hw (by simp (disch := omega) [raw_f, raw_b]) (by simp (disch := omega) [-Bool.and_eq_false_imp, raw_nz, raw_b] <;> omega)

theorem Encoding.cbadvc (g : Guard) (d : CbReg) (o : SReg) : Encoding.Statement (.cbadvc g d o) := by
  intro hw
  have := d.isLt
  have := o.isLt
  refine syllable_ok (by decide) (by simp (disch := omega)) ?_
  have hd : ∀ x y n e, decodeLoad (Raw.mk 0x45 x y n e) = (fun r : Raw => accept [(r.x, 4), (r.nz 3 0, 3), (r.nz 4 9, 3), (r.nz 1 18, 3)] (.cbadvc r.g (r.f 5 13) (r.f 6 3))) (Raw.mk 0x45 x y n e) := fun _ _ _ _ => rfl
  show decodeLoad (syllable 0x45 g (packME d.toNat 0 o.toNat 0) none) = _
  refine (hd _ _ _ _).trans ?_
  show (fun r : Raw => accept [(r.x, 4), (r.nz 3 0, 3), (r.nz 4 9, 3), (r.nz 1 18, 3)] (.cbadvc r.g (r.f 5 13) (r.f 6 3))) (syllable 0x45 g (packME d.toNat 0 o.toNat 0) none) = _
  exact accept_ok hw (by simp (disch := omega) [raw_f, raw_b]) (by simp (disch := omega) [-Bool.and_eq_false_imp, raw_nz, raw_b] <;> omega)

theorem Encoding.cbcfg (g : Guard) (d : CbReg) (o : SReg) (t : Step) : Encoding.Statement (.cbcfg g d o t) := by
  intro hw
  have := step_code_lt t
  have := d.isLt
  have := o.isLt
  have hc : t.word = none := by
    cases t <;> simp_all [WellFormed, limitsOf, lowestCause, Step.code, Step.word]
  have hx := step_cond5 t
  have he := step_eq 0x46 g d.toNat 15 o.toNat t (by omega) (by omega) (by omega)
  rw [hc] at hx he
  refine syllable_ok (by decide) (by simp (disch := omega)) ?_
  show (fun r : Raw => accept [(r.x, 4), (!r.x && r.n 3 0 == 6, 5), (r.n 3 0 == 7, 6), (r.nz 1 18, 3), (r.n 4 9 != 15, 6)] (.cbcfg r.g (r.f 5 13) (r.f 6 3) r.step)) (syllable 0x46 g (packME d.toNat 15 o.toNat t.code) none) = _
  refine accept_ok hw (by rw [he]; simp (disch := omega) [raw_f]) ?_
  simp (disch := omega) [raw_nz] at hx ⊢
  omega

theorem Encoding.wld4 (g : Guard) (d : VReg) (h : HReg) (o : SReg) (t : Step) : Encoding.Statement (.wld4 g d h o t) := by
  intro hw
  have := step_code_lt t
  have := d.isLt
  have := h.isLt
  have := o.isLt
  refine syllable_ok (by decide) (by simp (disch := omega)) ?_
  have hd : ∀ x y n e, decodeLoad (Raw.mk 0x48 x y n e) = (fun r : Raw => accept [(r.x && r.n 3 0 != 6, 4), (!r.x && r.n 3 0 == 6, 5), (r.n 3 0 == 7, 6), (r.nz 1 18, 3)] (.wld4 r.g (r.f 5 13) (r.f 4 9) (r.f 6 3) r.step)) (Raw.mk 0x48 x y n e) := fun _ _ _ _ => rfl
  show decodeLoad (syllable 0x48 g (packME d.toNat h.toNat o.toNat t.code) t.word) = _
  refine (hd _ _ _ _).trans ?_
  show (fun r : Raw => accept [(r.x && r.n 3 0 != 6, 4), (!r.x && r.n 3 0 == 6, 5), (r.n 3 0 == 7, 6), (r.nz 1 18, 3)] (.wld4 r.g (r.f 5 13) (r.f 4 9) (r.f 6 3) r.step)) (syllable 0x48 g (packME d.toNat h.toNat o.toNat t.code) t.word) = _
  exact accept_ok hw (by simp (disch := omega) [raw_f, raw_b, step_eq, Nat.mod_eq_of_lt, Nat.div_eq_of_lt]) (by simp (disch := omega) [-Bool.and_eq_false_imp, raw_nz, raw_b, Nat.div_eq_of_lt])

theorem Encoding.wld8 (g : Guard) (d : VReg) (h : HReg) (o : SReg) (t : Step) : Encoding.Statement (.wld8 g d h o t) := by
  intro hw
  have := step_code_lt t
  have := d.isLt
  have := h.isLt
  have := o.isLt
  refine syllable_ok (by decide) (by simp (disch := omega)) ?_
  have hd : ∀ x y n e, decodeLoad (Raw.mk 0x49 x y n e) = (fun r : Raw => accept [(r.x && r.n 3 0 != 6, 4), (!r.x && r.n 3 0 == 6, 5), (r.n 3 0 == 7, 6), (r.nz 1 18, 3)] (.wld8 r.g (r.f 5 13) (r.f 4 9) (r.f 6 3) r.step)) (Raw.mk 0x49 x y n e) := fun _ _ _ _ => rfl
  show decodeLoad (syllable 0x49 g (packME d.toNat h.toNat o.toNat t.code) t.word) = _
  refine (hd _ _ _ _).trans ?_
  show (fun r : Raw => accept [(r.x && r.n 3 0 != 6, 4), (!r.x && r.n 3 0 == 6, 5), (r.n 3 0 == 7, 6), (r.nz 1 18, 3)] (.wld8 r.g (r.f 5 13) (r.f 4 9) (r.f 6 3) r.step)) (syllable 0x49 g (packME d.toNat h.toNat o.toNat t.code) t.word) = _
  exact accept_ok hw (by simp (disch := omega) [raw_f, raw_b, step_eq, Nat.mod_eq_of_lt, Nat.div_eq_of_lt]) (by simp (disch := omega) [-Bool.and_eq_false_imp, raw_nz, raw_b, Nat.div_eq_of_lt])

theorem Encoding.ldfe (g : Guard) (d : SReg) (h : HReg) (o : SReg) (t : Step) : Encoding.Statement (.ldfe g d h o t) := by
  intro hw
  have := step_code_lt t
  have := d.isLt
  have := h.isLt
  have := o.isLt
  refine syllable_ok (by decide) (by simp (disch := omega)) ?_
  have hd : ∀ x y n e, decodeLoad (Raw.mk 0x60 x y n e) = (fun r : Raw => accept [(r.x && r.n 3 0 != 6, 4), (!r.x && r.n 3 0 == 6, 5), (r.n 3 0 == 7, 6)] (.ldfe r.g (r.f 6 13) (r.f 4 9) (r.f 6 3) r.step)) (Raw.mk 0x60 x y n e) := fun _ _ _ _ => rfl
  show decodeLoad (syllable 0x60 g (packME d.toNat h.toNat o.toNat t.code) t.word) = _
  refine (hd _ _ _ _).trans ?_
  show (fun r : Raw => accept [(r.x && r.n 3 0 != 6, 4), (!r.x && r.n 3 0 == 6, 5), (r.n 3 0 == 7, 6)] (.ldfe r.g (r.f 6 13) (r.f 4 9) (r.f 6 3) r.step)) (syllable 0x60 g (packME d.toNat h.toNat o.toNat t.code) t.word) = _
  exact accept_ok hw (by simp (disch := omega) [raw_f, raw_b, step_eq]) (by simp (disch := omega) [-Bool.and_eq_false_imp, raw_nz, raw_b])

theorem Encoding.stef (g : Guard) (d : SReg) (h : HReg) (o : SReg) (t : Step) : Encoding.Statement (.stef g d h o t) := by
  intro hw
  have := step_code_lt t
  have := d.isLt
  have := h.isLt
  have := o.isLt
  refine syllable_ok (by decide) (by simp (disch := omega)) ?_
  have hd : ∀ x y n e, decodeLoad (Raw.mk 0x61 x y n e) = (fun r : Raw => accept [(r.x && r.n 3 0 != 6, 4), (!r.x && r.n 3 0 == 6, 5), (r.n 3 0 == 7, 6)] (.stef r.g (r.f 6 13) (r.f 4 9) (r.f 6 3) r.step)) (Raw.mk 0x61 x y n e) := fun _ _ _ _ => rfl
  show decodeLoad (syllable 0x61 g (packME d.toNat h.toNat o.toNat t.code) t.word) = _
  refine (hd _ _ _ _).trans ?_
  show (fun r : Raw => accept [(r.x && r.n 3 0 != 6, 4), (!r.x && r.n 3 0 == 6, 5), (r.n 3 0 == 7, 6)] (.stef r.g (r.f 6 13) (r.f 4 9) (r.f 6 3) r.step)) (syllable 0x61 g (packME d.toNat h.toNat o.toNat t.code) t.word) = _
  exact accept_ok hw (by simp (disch := omega) [raw_f, raw_b, step_eq]) (by simp (disch := omega) [-Bool.and_eq_false_imp, raw_nz, raw_b])

theorem Encoding.ldff (g : Guard) (d : SReg) (h : HReg) (o : SReg) (t : Step) : Encoding.Statement (.ldff g d h o t) := by
  intro hw
  have := step_code_lt t
  have := d.isLt
  have := h.isLt
  have := o.isLt
  refine syllable_ok (by decide) (by simp (disch := omega)) ?_
  have hd : ∀ x y n e, decodeLoad (Raw.mk 0x62 x y n e) = (fun r : Raw => accept [(r.x && r.n 3 0 != 6, 4), (!r.x && r.n 3 0 == 6, 5), (r.n 3 0 == 7, 6)] (.ldff r.g (r.f 6 13) (r.f 4 9) (r.f 6 3) r.step)) (Raw.mk 0x62 x y n e) := fun _ _ _ _ => rfl
  show decodeLoad (syllable 0x62 g (packME d.toNat h.toNat o.toNat t.code) t.word) = _
  refine (hd _ _ _ _).trans ?_
  show (fun r : Raw => accept [(r.x && r.n 3 0 != 6, 4), (!r.x && r.n 3 0 == 6, 5), (r.n 3 0 == 7, 6)] (.ldff r.g (r.f 6 13) (r.f 4 9) (r.f 6 3) r.step)) (syllable 0x62 g (packME d.toNat h.toNat o.toNat t.code) t.word) = _
  exact accept_ok hw (by simp (disch := omega) [raw_f, raw_b, step_eq]) (by simp (disch := omega) [-Bool.and_eq_false_imp, raw_nz, raw_b])

theorem Encoding.stff (g : Guard) (d : SReg) (h : HReg) (o : SReg) (t : Step) : Encoding.Statement (.stff g d h o t) := by
  intro hw
  have := step_code_lt t
  have := d.isLt
  have := h.isLt
  have := o.isLt
  refine syllable_ok (by decide) (by simp (disch := omega)) ?_
  have hd : ∀ x y n e, decodeLoad (Raw.mk 0x63 x y n e) = (fun r : Raw => accept [(r.x && r.n 3 0 != 6, 4), (!r.x && r.n 3 0 == 6, 5), (r.n 3 0 == 7, 6)] (.stff r.g (r.f 6 13) (r.f 4 9) (r.f 6 3) r.step)) (Raw.mk 0x63 x y n e) := fun _ _ _ _ => rfl
  show decodeLoad (syllable 0x63 g (packME d.toNat h.toNat o.toNat t.code) t.word) = _
  refine (hd _ _ _ _).trans ?_
  show (fun r : Raw => accept [(r.x && r.n 3 0 != 6, 4), (!r.x && r.n 3 0 == 6, 5), (r.n 3 0 == 7, 6)] (.stff r.g (r.f 6 13) (r.f 4 9) (r.f 6 3) r.step)) (syllable 0x63 g (packME d.toNat h.toNat o.toNat t.code) t.word) = _
  exact accept_ok hw (by simp (disch := omega) [raw_f, raw_b, step_eq]) (by simp (disch := omega) [-Bool.and_eq_false_imp, raw_nz, raw_b])

theorem Encoding.feset (g : Guard) (h : HReg) (o : SReg) (t : Step) : Encoding.Statement (.feset g h o t) := by
  intro hw
  have := step_code_lt t
  have := h.isLt
  have := o.isLt
  refine syllable_ok (by decide) (by simp (disch := omega)) ?_
  have hd : ∀ x y n e, decodeLoad (Raw.mk 0x64 x y n e) = (fun r : Raw => accept [(r.x && r.n 3 0 != 6, 4), (!r.x && r.n 3 0 == 6, 5), (r.n 3 0 == 7, 6), (r.nz 6 13, 3)] (.feset r.g (r.f 4 9) (r.f 6 3) r.step)) (Raw.mk 0x64 x y n e) := fun _ _ _ _ => rfl
  show decodeLoad (syllable 0x64 g (packME 0 h.toNat o.toNat t.code) t.word) = _
  refine (hd _ _ _ _).trans ?_
  show (fun r : Raw => accept [(r.x && r.n 3 0 != 6, 4), (!r.x && r.n 3 0 == 6, 5), (r.n 3 0 == 7, 6), (r.nz 6 13, 3)] (.feset r.g (r.f 4 9) (r.f 6 3) r.step)) (syllable 0x64 g (packME 0 h.toNat o.toNat t.code) t.word) = _
  exact accept_ok hw (by simp (disch := omega) [raw_f, raw_b, step_eq]) (by simp (disch := omega) [-Bool.and_eq_false_imp, raw_nz, raw_b])

theorem Encoding.feclr (g : Guard) (h : HReg) (o : SReg) (t : Step) : Encoding.Statement (.feclr g h o t) := by
  intro hw
  have := step_code_lt t
  have := h.isLt
  have := o.isLt
  refine syllable_ok (by decide) (by simp (disch := omega)) ?_
  have hd : ∀ x y n e, decodeLoad (Raw.mk 0x65 x y n e) = (fun r : Raw => accept [(r.x && r.n 3 0 != 6, 4), (!r.x && r.n 3 0 == 6, 5), (r.n 3 0 == 7, 6), (r.nz 6 13, 3)] (.feclr r.g (r.f 4 9) (r.f 6 3) r.step)) (Raw.mk 0x65 x y n e) := fun _ _ _ _ => rfl
  show decodeLoad (syllable 0x65 g (packME 0 h.toNat o.toNat t.code) t.word) = _
  refine (hd _ _ _ _).trans ?_
  show (fun r : Raw => accept [(r.x && r.n 3 0 != 6, 4), (!r.x && r.n 3 0 == 6, 5), (r.n 3 0 == 7, 6), (r.nz 6 13, 3)] (.feclr r.g (r.f 4 9) (r.f 6 3) r.step)) (syllable 0x65 g (packME 0 h.toNat o.toNat t.code) t.word) = _
  exact accept_ok hw (by simp (disch := omega) [raw_f, raw_b, step_eq]) (by simp (disch := omega) [-Bool.and_eq_false_imp, raw_nz, raw_b])

theorem Encoding.ldacq (g : Guard) (d : SReg) (h : HReg) (o : SReg) (w : Scope) (x : Option W32) : Encoding.Statement (.ldacq g d h o w x) := by
  intro hw
  have := scope_code_lt w
  have := d.isLt
  have := h.isLt
  have := o.isLt
  refine syllable_ok (by decide) (by simp (disch := omega)) ?_
  have hd : ∀ x y n e, decodeLoad (Raw.mk 0x68 x y n e) = (fun r : Raw => accept [(r.nz 1 0, 3)] (.ldacq r.g (r.f 6 13) (r.f 4 9) (r.f 6 3) (Scope.ofCode (r.n 2 1)) r.extOpt)) (Raw.mk 0x68 x y n e) := fun _ _ _ _ => rfl
  show decodeLoad (syllable 0x68 g (packAT d.toNat h.toNat o.toNat w.code 0) x) = _
  refine (hd _ _ _ _).trans ?_
  show (fun r : Raw => accept [(r.nz 1 0, 3)] (.ldacq r.g (r.f 6 13) (r.f 4 9) (r.f 6 3) (Scope.ofCode (r.n 2 1)) r.extOpt)) (syllable 0x68 g (packAT d.toNat h.toNat o.toNat w.code 0) x) = _
  exact accept_ok hw (by simp (disch := omega) [raw_f, raw_b, extOpt_eq, Nat.mod_eq_of_lt, Nat.div_eq_of_lt]) (by simp (disch := omega) [-Bool.and_eq_false_imp, raw_nz, raw_b, Nat.div_eq_of_lt])

theorem Encoding.strel (g : Guard) (d : SReg) (h : HReg) (o : SReg) (w : Scope) (x : Option W32) : Encoding.Statement (.strel g d h o w x) := by
  intro hw
  have := scope_code_lt w
  have := d.isLt
  have := h.isLt
  have := o.isLt
  refine syllable_ok (by decide) (by simp (disch := omega)) ?_
  have hd : ∀ x y n e, decodeLoad (Raw.mk 0x69 x y n e) = (fun r : Raw => accept [(r.nz 1 0, 3)] (.strel r.g (r.f 6 13) (r.f 4 9) (r.f 6 3) (Scope.ofCode (r.n 2 1)) r.extOpt)) (Raw.mk 0x69 x y n e) := fun _ _ _ _ => rfl
  show decodeLoad (syllable 0x69 g (packAT d.toNat h.toNat o.toNat w.code 0) x) = _
  refine (hd _ _ _ _).trans ?_
  show (fun r : Raw => accept [(r.nz 1 0, 3)] (.strel r.g (r.f 6 13) (r.f 4 9) (r.f 6 3) (Scope.ofCode (r.n 2 1)) r.extOpt)) (syllable 0x69 g (packAT d.toNat h.toNat o.toNat w.code 0) x) = _
  exact accept_ok hw (by simp (disch := omega) [raw_f, raw_b, extOpt_eq, Nat.mod_eq_of_lt, Nat.div_eq_of_lt]) (by simp (disch := omega) [-Bool.and_eq_false_imp, raw_nz, raw_b, Nat.div_eq_of_lt])

theorem Encoding.fence (g : Guard) (w : Scope) : Encoding.Statement (.fence g w) := by
  intro hw
  have := scope_code_lt w
  refine syllable_ok (by decide) (by simp (disch := omega)) ?_
  have hd : ∀ x y n e, decodeLoad (Raw.mk 0x6C x y n e) = (fun r : Raw => accept [(r.x, 4), (r.nz 1 0, 3), (r.nz 16 3, 3)] (.fence r.g (Scope.ofCode (r.n 2 1)))) (Raw.mk 0x6C x y n e) := fun _ _ _ _ => rfl
  show decodeLoad (syllable 0x6C g (packAT 0 0 0 w.code 0) none) = _
  refine (hd _ _ _ _).trans ?_
  show (fun r : Raw => accept [(r.x, 4), (r.nz 1 0, 3), (r.nz 16 3, 3)] (.fence r.g (Scope.ofCode (r.n 2 1)))) (syllable 0x6C g (packAT 0 0 0 w.code 0) none) = _
  exact accept_ok hw (by simp (disch := omega) [raw_f, raw_b, Nat.mod_eq_of_lt, Nat.div_eq_of_lt]) (by simp (disch := omega) [-Bool.and_eq_false_imp, raw_nz, raw_b, Nat.div_eq_of_lt])

theorem Encoding.amoaddW (g : Guard) (d : SReg) (h : HReg) (o : SReg) (w : Scope) (q : Bool) (x : Option W32) : Encoding.Statement (.amoaddW g d h o w q x) := by
  intro hw
  have := scope_code_lt w
  have := bool_lt q
  have := d.isLt
  have := h.isLt
  have := o.isLt
  refine syllable_ok (by decide) (by simp (disch := omega)) ?_
  have hd : ∀ x y n e, decodeLoad (Raw.mk 0x80 x y n e) = (fun r : Raw => accept [] (.amoaddW r.g (r.f 6 13) (r.f 4 9) (r.f 6 3) (Scope.ofCode (r.n 2 1)) (r.b 0) r.extOpt)) (Raw.mk 0x80 x y n e) := fun _ _ _ _ => rfl
  show decodeLoad (syllable 0x80 g (packAT d.toNat h.toNat o.toNat w.code q.toNat) x) = _
  refine (hd _ _ _ _).trans ?_
  show (fun r : Raw => accept [] (.amoaddW r.g (r.f 6 13) (r.f 4 9) (r.f 6 3) (Scope.ofCode (r.n 2 1)) (r.b 0) r.extOpt)) (syllable 0x80 g (packAT d.toNat h.toNat o.toNat w.code q.toNat) x) = _
  exact accept_ok hw (by simp (disch := omega) [raw_f, raw_b, extOpt_eq, Nat.mod_eq_of_lt, Nat.div_eq_of_lt]) (by simp (disch := omega) [-Bool.and_eq_false_imp, raw_nz, raw_b, Nat.div_eq_of_lt])

theorem Encoding.amoaddD (g : Guard) (d : SReg) (h : HReg) (o : SReg) (w : Scope) (q : Bool) (x : Option W32) : Encoding.Statement (.amoaddD g d h o w q x) := by
  intro hw
  have := scope_code_lt w
  have := bool_lt q
  have := d.isLt
  have := h.isLt
  have := o.isLt
  refine syllable_ok (by decide) (by simp (disch := omega)) ?_
  have hd : ∀ x y n e, decodeLoad (Raw.mk 0x81 x y n e) = (fun r : Raw => accept [] (.amoaddD r.g (r.f 6 13) (r.f 4 9) (r.f 6 3) (Scope.ofCode (r.n 2 1)) (r.b 0) r.extOpt)) (Raw.mk 0x81 x y n e) := fun _ _ _ _ => rfl
  show decodeLoad (syllable 0x81 g (packAT d.toNat h.toNat o.toNat w.code q.toNat) x) = _
  refine (hd _ _ _ _).trans ?_
  show (fun r : Raw => accept [] (.amoaddD r.g (r.f 6 13) (r.f 4 9) (r.f 6 3) (Scope.ofCode (r.n 2 1)) (r.b 0) r.extOpt)) (syllable 0x81 g (packAT d.toNat h.toNat o.toNat w.code q.toNat) x) = _
  exact accept_ok hw (by simp (disch := omega) [raw_f, raw_b, extOpt_eq, Nat.mod_eq_of_lt, Nat.div_eq_of_lt]) (by simp (disch := omega) [-Bool.and_eq_false_imp, raw_nz, raw_b, Nat.div_eq_of_lt])

theorem Encoding.amoandW (g : Guard) (d : SReg) (h : HReg) (o : SReg) (w : Scope) (q : Bool) (x : Option W32) : Encoding.Statement (.amoandW g d h o w q x) := by
  intro hw
  have := scope_code_lt w
  have := bool_lt q
  have := d.isLt
  have := h.isLt
  have := o.isLt
  refine syllable_ok (by decide) (by simp (disch := omega)) ?_
  have hd : ∀ x y n e, decodeLoad (Raw.mk 0x82 x y n e) = (fun r : Raw => accept [] (.amoandW r.g (r.f 6 13) (r.f 4 9) (r.f 6 3) (Scope.ofCode (r.n 2 1)) (r.b 0) r.extOpt)) (Raw.mk 0x82 x y n e) := fun _ _ _ _ => rfl
  show decodeLoad (syllable 0x82 g (packAT d.toNat h.toNat o.toNat w.code q.toNat) x) = _
  refine (hd _ _ _ _).trans ?_
  show (fun r : Raw => accept [] (.amoandW r.g (r.f 6 13) (r.f 4 9) (r.f 6 3) (Scope.ofCode (r.n 2 1)) (r.b 0) r.extOpt)) (syllable 0x82 g (packAT d.toNat h.toNat o.toNat w.code q.toNat) x) = _
  exact accept_ok hw (by simp (disch := omega) [raw_f, raw_b, extOpt_eq, Nat.mod_eq_of_lt, Nat.div_eq_of_lt]) (by simp (disch := omega) [-Bool.and_eq_false_imp, raw_nz, raw_b, Nat.div_eq_of_lt])

theorem Encoding.amoandD (g : Guard) (d : SReg) (h : HReg) (o : SReg) (w : Scope) (q : Bool) (x : Option W32) : Encoding.Statement (.amoandD g d h o w q x) := by
  intro hw
  have := scope_code_lt w
  have := bool_lt q
  have := d.isLt
  have := h.isLt
  have := o.isLt
  refine syllable_ok (by decide) (by simp (disch := omega)) ?_
  have hd : ∀ x y n e, decodeLoad (Raw.mk 0x83 x y n e) = (fun r : Raw => accept [] (.amoandD r.g (r.f 6 13) (r.f 4 9) (r.f 6 3) (Scope.ofCode (r.n 2 1)) (r.b 0) r.extOpt)) (Raw.mk 0x83 x y n e) := fun _ _ _ _ => rfl
  show decodeLoad (syllable 0x83 g (packAT d.toNat h.toNat o.toNat w.code q.toNat) x) = _
  refine (hd _ _ _ _).trans ?_
  show (fun r : Raw => accept [] (.amoandD r.g (r.f 6 13) (r.f 4 9) (r.f 6 3) (Scope.ofCode (r.n 2 1)) (r.b 0) r.extOpt)) (syllable 0x83 g (packAT d.toNat h.toNat o.toNat w.code q.toNat) x) = _
  exact accept_ok hw (by simp (disch := omega) [raw_f, raw_b, extOpt_eq, Nat.mod_eq_of_lt, Nat.div_eq_of_lt]) (by simp (disch := omega) [-Bool.and_eq_false_imp, raw_nz, raw_b, Nat.div_eq_of_lt])

theorem Encoding.amoorW (g : Guard) (d : SReg) (h : HReg) (o : SReg) (w : Scope) (q : Bool) (x : Option W32) : Encoding.Statement (.amoorW g d h o w q x) := by
  intro hw
  have := scope_code_lt w
  have := bool_lt q
  have := d.isLt
  have := h.isLt
  have := o.isLt
  refine syllable_ok (by decide) (by simp (disch := omega)) ?_
  have hd : ∀ x y n e, decodeLoad (Raw.mk 0x84 x y n e) = (fun r : Raw => accept [] (.amoorW r.g (r.f 6 13) (r.f 4 9) (r.f 6 3) (Scope.ofCode (r.n 2 1)) (r.b 0) r.extOpt)) (Raw.mk 0x84 x y n e) := fun _ _ _ _ => rfl
  show decodeLoad (syllable 0x84 g (packAT d.toNat h.toNat o.toNat w.code q.toNat) x) = _
  refine (hd _ _ _ _).trans ?_
  show (fun r : Raw => accept [] (.amoorW r.g (r.f 6 13) (r.f 4 9) (r.f 6 3) (Scope.ofCode (r.n 2 1)) (r.b 0) r.extOpt)) (syllable 0x84 g (packAT d.toNat h.toNat o.toNat w.code q.toNat) x) = _
  exact accept_ok hw (by simp (disch := omega) [raw_f, raw_b, extOpt_eq, Nat.mod_eq_of_lt, Nat.div_eq_of_lt]) (by simp (disch := omega) [-Bool.and_eq_false_imp, raw_nz, raw_b, Nat.div_eq_of_lt])

theorem Encoding.amoorD (g : Guard) (d : SReg) (h : HReg) (o : SReg) (w : Scope) (q : Bool) (x : Option W32) : Encoding.Statement (.amoorD g d h o w q x) := by
  intro hw
  have := scope_code_lt w
  have := bool_lt q
  have := d.isLt
  have := h.isLt
  have := o.isLt
  refine syllable_ok (by decide) (by simp (disch := omega)) ?_
  have hd : ∀ x y n e, decodeLoad (Raw.mk 0x85 x y n e) = (fun r : Raw => accept [] (.amoorD r.g (r.f 6 13) (r.f 4 9) (r.f 6 3) (Scope.ofCode (r.n 2 1)) (r.b 0) r.extOpt)) (Raw.mk 0x85 x y n e) := fun _ _ _ _ => rfl
  show decodeLoad (syllable 0x85 g (packAT d.toNat h.toNat o.toNat w.code q.toNat) x) = _
  refine (hd _ _ _ _).trans ?_
  show (fun r : Raw => accept [] (.amoorD r.g (r.f 6 13) (r.f 4 9) (r.f 6 3) (Scope.ofCode (r.n 2 1)) (r.b 0) r.extOpt)) (syllable 0x85 g (packAT d.toNat h.toNat o.toNat w.code q.toNat) x) = _
  exact accept_ok hw (by simp (disch := omega) [raw_f, raw_b, extOpt_eq, Nat.mod_eq_of_lt, Nat.div_eq_of_lt]) (by simp (disch := omega) [-Bool.and_eq_false_imp, raw_nz, raw_b, Nat.div_eq_of_lt])

theorem Encoding.amoxorW (g : Guard) (d : SReg) (h : HReg) (o : SReg) (w : Scope) (q : Bool) (x : Option W32) : Encoding.Statement (.amoxorW g d h o w q x) := by
  intro hw
  have := scope_code_lt w
  have := bool_lt q
  have := d.isLt
  have := h.isLt
  have := o.isLt
  refine syllable_ok (by decide) (by simp (disch := omega)) ?_
  have hd : ∀ x y n e, decodeLoad (Raw.mk 0x86 x y n e) = (fun r : Raw => accept [] (.amoxorW r.g (r.f 6 13) (r.f 4 9) (r.f 6 3) (Scope.ofCode (r.n 2 1)) (r.b 0) r.extOpt)) (Raw.mk 0x86 x y n e) := fun _ _ _ _ => rfl
  show decodeLoad (syllable 0x86 g (packAT d.toNat h.toNat o.toNat w.code q.toNat) x) = _
  refine (hd _ _ _ _).trans ?_
  show (fun r : Raw => accept [] (.amoxorW r.g (r.f 6 13) (r.f 4 9) (r.f 6 3) (Scope.ofCode (r.n 2 1)) (r.b 0) r.extOpt)) (syllable 0x86 g (packAT d.toNat h.toNat o.toNat w.code q.toNat) x) = _
  exact accept_ok hw (by simp (disch := omega) [raw_f, raw_b, extOpt_eq, Nat.mod_eq_of_lt, Nat.div_eq_of_lt]) (by simp (disch := omega) [-Bool.and_eq_false_imp, raw_nz, raw_b, Nat.div_eq_of_lt])

theorem Encoding.amoxorD (g : Guard) (d : SReg) (h : HReg) (o : SReg) (w : Scope) (q : Bool) (x : Option W32) : Encoding.Statement (.amoxorD g d h o w q x) := by
  intro hw
  have := scope_code_lt w
  have := bool_lt q
  have := d.isLt
  have := h.isLt
  have := o.isLt
  refine syllable_ok (by decide) (by simp (disch := omega)) ?_
  have hd : ∀ x y n e, decodeLoad (Raw.mk 0x87 x y n e) = (fun r : Raw => accept [] (.amoxorD r.g (r.f 6 13) (r.f 4 9) (r.f 6 3) (Scope.ofCode (r.n 2 1)) (r.b 0) r.extOpt)) (Raw.mk 0x87 x y n e) := fun _ _ _ _ => rfl
  show decodeLoad (syllable 0x87 g (packAT d.toNat h.toNat o.toNat w.code q.toNat) x) = _
  refine (hd _ _ _ _).trans ?_
  show (fun r : Raw => accept [] (.amoxorD r.g (r.f 6 13) (r.f 4 9) (r.f 6 3) (Scope.ofCode (r.n 2 1)) (r.b 0) r.extOpt)) (syllable 0x87 g (packAT d.toNat h.toNat o.toNat w.code q.toNat) x) = _
  exact accept_ok hw (by simp (disch := omega) [raw_f, raw_b, extOpt_eq, Nat.mod_eq_of_lt, Nat.div_eq_of_lt]) (by simp (disch := omega) [-Bool.and_eq_false_imp, raw_nz, raw_b, Nat.div_eq_of_lt])

theorem Encoding.amominW (g : Guard) (d : SReg) (h : HReg) (o : SReg) (w : Scope) (q : Bool) (x : Option W32) : Encoding.Statement (.amominW g d h o w q x) := by
  intro hw
  have := scope_code_lt w
  have := bool_lt q
  have := d.isLt
  have := h.isLt
  have := o.isLt
  refine syllable_ok (by decide) (by simp (disch := omega)) ?_
  have hd : ∀ x y n e, decodeLoad (Raw.mk 0x88 x y n e) = (fun r : Raw => accept [] (.amominW r.g (r.f 6 13) (r.f 4 9) (r.f 6 3) (Scope.ofCode (r.n 2 1)) (r.b 0) r.extOpt)) (Raw.mk 0x88 x y n e) := fun _ _ _ _ => rfl
  show decodeLoad (syllable 0x88 g (packAT d.toNat h.toNat o.toNat w.code q.toNat) x) = _
  refine (hd _ _ _ _).trans ?_
  show (fun r : Raw => accept [] (.amominW r.g (r.f 6 13) (r.f 4 9) (r.f 6 3) (Scope.ofCode (r.n 2 1)) (r.b 0) r.extOpt)) (syllable 0x88 g (packAT d.toNat h.toNat o.toNat w.code q.toNat) x) = _
  exact accept_ok hw (by simp (disch := omega) [raw_f, raw_b, extOpt_eq, Nat.mod_eq_of_lt, Nat.div_eq_of_lt]) (by simp (disch := omega) [-Bool.and_eq_false_imp, raw_nz, raw_b, Nat.div_eq_of_lt])

theorem Encoding.amominD (g : Guard) (d : SReg) (h : HReg) (o : SReg) (w : Scope) (q : Bool) (x : Option W32) : Encoding.Statement (.amominD g d h o w q x) := by
  intro hw
  have := scope_code_lt w
  have := bool_lt q
  have := d.isLt
  have := h.isLt
  have := o.isLt
  refine syllable_ok (by decide) (by simp (disch := omega)) ?_
  have hd : ∀ x y n e, decodeLoad (Raw.mk 0x89 x y n e) = (fun r : Raw => accept [] (.amominD r.g (r.f 6 13) (r.f 4 9) (r.f 6 3) (Scope.ofCode (r.n 2 1)) (r.b 0) r.extOpt)) (Raw.mk 0x89 x y n e) := fun _ _ _ _ => rfl
  show decodeLoad (syllable 0x89 g (packAT d.toNat h.toNat o.toNat w.code q.toNat) x) = _
  refine (hd _ _ _ _).trans ?_
  show (fun r : Raw => accept [] (.amominD r.g (r.f 6 13) (r.f 4 9) (r.f 6 3) (Scope.ofCode (r.n 2 1)) (r.b 0) r.extOpt)) (syllable 0x89 g (packAT d.toNat h.toNat o.toNat w.code q.toNat) x) = _
  exact accept_ok hw (by simp (disch := omega) [raw_f, raw_b, extOpt_eq, Nat.mod_eq_of_lt, Nat.div_eq_of_lt]) (by simp (disch := omega) [-Bool.and_eq_false_imp, raw_nz, raw_b, Nat.div_eq_of_lt])

theorem Encoding.amomaxW (g : Guard) (d : SReg) (h : HReg) (o : SReg) (w : Scope) (q : Bool) (x : Option W32) : Encoding.Statement (.amomaxW g d h o w q x) := by
  intro hw
  have := scope_code_lt w
  have := bool_lt q
  have := d.isLt
  have := h.isLt
  have := o.isLt
  refine syllable_ok (by decide) (by simp (disch := omega)) ?_
  have hd : ∀ x y n e, decodeLoad (Raw.mk 0x8A x y n e) = (fun r : Raw => accept [] (.amomaxW r.g (r.f 6 13) (r.f 4 9) (r.f 6 3) (Scope.ofCode (r.n 2 1)) (r.b 0) r.extOpt)) (Raw.mk 0x8A x y n e) := fun _ _ _ _ => rfl
  show decodeLoad (syllable 0x8A g (packAT d.toNat h.toNat o.toNat w.code q.toNat) x) = _
  refine (hd _ _ _ _).trans ?_
  show (fun r : Raw => accept [] (.amomaxW r.g (r.f 6 13) (r.f 4 9) (r.f 6 3) (Scope.ofCode (r.n 2 1)) (r.b 0) r.extOpt)) (syllable 0x8A g (packAT d.toNat h.toNat o.toNat w.code q.toNat) x) = _
  exact accept_ok hw (by simp (disch := omega) [raw_f, raw_b, extOpt_eq, Nat.mod_eq_of_lt, Nat.div_eq_of_lt]) (by simp (disch := omega) [-Bool.and_eq_false_imp, raw_nz, raw_b, Nat.div_eq_of_lt])

theorem Encoding.amomaxD (g : Guard) (d : SReg) (h : HReg) (o : SReg) (w : Scope) (q : Bool) (x : Option W32) : Encoding.Statement (.amomaxD g d h o w q x) := by
  intro hw
  have := scope_code_lt w
  have := bool_lt q
  have := d.isLt
  have := h.isLt
  have := o.isLt
  refine syllable_ok (by decide) (by simp (disch := omega)) ?_
  have hd : ∀ x y n e, decodeLoad (Raw.mk 0x8B x y n e) = (fun r : Raw => accept [] (.amomaxD r.g (r.f 6 13) (r.f 4 9) (r.f 6 3) (Scope.ofCode (r.n 2 1)) (r.b 0) r.extOpt)) (Raw.mk 0x8B x y n e) := fun _ _ _ _ => rfl
  show decodeLoad (syllable 0x8B g (packAT d.toNat h.toNat o.toNat w.code q.toNat) x) = _
  refine (hd _ _ _ _).trans ?_
  show (fun r : Raw => accept [] (.amomaxD r.g (r.f 6 13) (r.f 4 9) (r.f 6 3) (Scope.ofCode (r.n 2 1)) (r.b 0) r.extOpt)) (syllable 0x8B g (packAT d.toNat h.toNat o.toNat w.code q.toNat) x) = _
  exact accept_ok hw (by simp (disch := omega) [raw_f, raw_b, extOpt_eq, Nat.mod_eq_of_lt, Nat.div_eq_of_lt]) (by simp (disch := omega) [-Bool.and_eq_false_imp, raw_nz, raw_b, Nat.div_eq_of_lt])

theorem Encoding.amominzW (g : Guard) (d : SReg) (h : HReg) (o : SReg) (w : Scope) (q : Bool) (x : Option W32) : Encoding.Statement (.amominzW g d h o w q x) := by
  intro hw
  have := scope_code_lt w
  have := bool_lt q
  have := d.isLt
  have := h.isLt
  have := o.isLt
  refine syllable_ok (by decide) (by simp (disch := omega)) ?_
  have hd : ∀ x y n e, decodeLoad (Raw.mk 0x8C x y n e) = (fun r : Raw => accept [] (.amominzW r.g (r.f 6 13) (r.f 4 9) (r.f 6 3) (Scope.ofCode (r.n 2 1)) (r.b 0) r.extOpt)) (Raw.mk 0x8C x y n e) := fun _ _ _ _ => rfl
  show decodeLoad (syllable 0x8C g (packAT d.toNat h.toNat o.toNat w.code q.toNat) x) = _
  refine (hd _ _ _ _).trans ?_
  show (fun r : Raw => accept [] (.amominzW r.g (r.f 6 13) (r.f 4 9) (r.f 6 3) (Scope.ofCode (r.n 2 1)) (r.b 0) r.extOpt)) (syllable 0x8C g (packAT d.toNat h.toNat o.toNat w.code q.toNat) x) = _
  exact accept_ok hw (by simp (disch := omega) [raw_f, raw_b, extOpt_eq, Nat.mod_eq_of_lt, Nat.div_eq_of_lt]) (by simp (disch := omega) [-Bool.and_eq_false_imp, raw_nz, raw_b, Nat.div_eq_of_lt])

theorem Encoding.amominzD (g : Guard) (d : SReg) (h : HReg) (o : SReg) (w : Scope) (q : Bool) (x : Option W32) : Encoding.Statement (.amominzD g d h o w q x) := by
  intro hw
  have := scope_code_lt w
  have := bool_lt q
  have := d.isLt
  have := h.isLt
  have := o.isLt
  refine syllable_ok (by decide) (by simp (disch := omega)) ?_
  have hd : ∀ x y n e, decodeLoad (Raw.mk 0x8D x y n e) = (fun r : Raw => accept [] (.amominzD r.g (r.f 6 13) (r.f 4 9) (r.f 6 3) (Scope.ofCode (r.n 2 1)) (r.b 0) r.extOpt)) (Raw.mk 0x8D x y n e) := fun _ _ _ _ => rfl
  show decodeLoad (syllable 0x8D g (packAT d.toNat h.toNat o.toNat w.code q.toNat) x) = _
  refine (hd _ _ _ _).trans ?_
  show (fun r : Raw => accept [] (.amominzD r.g (r.f 6 13) (r.f 4 9) (r.f 6 3) (Scope.ofCode (r.n 2 1)) (r.b 0) r.extOpt)) (syllable 0x8D g (packAT d.toNat h.toNat o.toNat w.code q.toNat) x) = _
  exact accept_ok hw (by simp (disch := omega) [raw_f, raw_b, extOpt_eq, Nat.mod_eq_of_lt, Nat.div_eq_of_lt]) (by simp (disch := omega) [-Bool.and_eq_false_imp, raw_nz, raw_b, Nat.div_eq_of_lt])

theorem Encoding.amomaxzW (g : Guard) (d : SReg) (h : HReg) (o : SReg) (w : Scope) (q : Bool) (x : Option W32) : Encoding.Statement (.amomaxzW g d h o w q x) := by
  intro hw
  have := scope_code_lt w
  have := bool_lt q
  have := d.isLt
  have := h.isLt
  have := o.isLt
  refine syllable_ok (by decide) (by simp (disch := omega)) ?_
  have hd : ∀ x y n e, decodeLoad (Raw.mk 0x8E x y n e) = (fun r : Raw => accept [] (.amomaxzW r.g (r.f 6 13) (r.f 4 9) (r.f 6 3) (Scope.ofCode (r.n 2 1)) (r.b 0) r.extOpt)) (Raw.mk 0x8E x y n e) := fun _ _ _ _ => rfl
  show decodeLoad (syllable 0x8E g (packAT d.toNat h.toNat o.toNat w.code q.toNat) x) = _
  refine (hd _ _ _ _).trans ?_
  show (fun r : Raw => accept [] (.amomaxzW r.g (r.f 6 13) (r.f 4 9) (r.f 6 3) (Scope.ofCode (r.n 2 1)) (r.b 0) r.extOpt)) (syllable 0x8E g (packAT d.toNat h.toNat o.toNat w.code q.toNat) x) = _
  exact accept_ok hw (by simp (disch := omega) [raw_f, raw_b, extOpt_eq, Nat.mod_eq_of_lt, Nat.div_eq_of_lt]) (by simp (disch := omega) [-Bool.and_eq_false_imp, raw_nz, raw_b, Nat.div_eq_of_lt])

theorem Encoding.amomaxzD (g : Guard) (d : SReg) (h : HReg) (o : SReg) (w : Scope) (q : Bool) (x : Option W32) : Encoding.Statement (.amomaxzD g d h o w q x) := by
  intro hw
  have := scope_code_lt w
  have := bool_lt q
  have := d.isLt
  have := h.isLt
  have := o.isLt
  refine syllable_ok (by decide) (by simp (disch := omega)) ?_
  have hd : ∀ x y n e, decodeLoad (Raw.mk 0x8F x y n e) = (fun r : Raw => accept [] (.amomaxzD r.g (r.f 6 13) (r.f 4 9) (r.f 6 3) (Scope.ofCode (r.n 2 1)) (r.b 0) r.extOpt)) (Raw.mk 0x8F x y n e) := fun _ _ _ _ => rfl
  show decodeLoad (syllable 0x8F g (packAT d.toNat h.toNat o.toNat w.code q.toNat) x) = _
  refine (hd _ _ _ _).trans ?_
  show (fun r : Raw => accept [] (.amomaxzD r.g (r.f 6 13) (r.f 4 9) (r.f 6 3) (Scope.ofCode (r.n 2 1)) (r.b 0) r.extOpt)) (syllable 0x8F g (packAT d.toNat h.toNat o.toNat w.code q.toNat) x) = _
  exact accept_ok hw (by simp (disch := omega) [raw_f, raw_b, extOpt_eq, Nat.mod_eq_of_lt, Nat.div_eq_of_lt]) (by simp (disch := omega) [-Bool.and_eq_false_imp, raw_nz, raw_b, Nat.div_eq_of_lt])

theorem Encoding.amoswpW (g : Guard) (d : SReg) (h : HReg) (o : SReg) (w : Scope) (q : Bool) (x : Option W32) : Encoding.Statement (.amoswpW g d h o w q x) := by
  intro hw
  have := scope_code_lt w
  have := bool_lt q
  have := d.isLt
  have := h.isLt
  have := o.isLt
  refine syllable_ok (by decide) (by simp (disch := omega)) ?_
  have hd : ∀ x y n e, decodeLoad (Raw.mk 0x90 x y n e) = (fun r : Raw => accept [] (.amoswpW r.g (r.f 6 13) (r.f 4 9) (r.f 6 3) (Scope.ofCode (r.n 2 1)) (r.b 0) r.extOpt)) (Raw.mk 0x90 x y n e) := fun _ _ _ _ => rfl
  show decodeLoad (syllable 0x90 g (packAT d.toNat h.toNat o.toNat w.code q.toNat) x) = _
  refine (hd _ _ _ _).trans ?_
  show (fun r : Raw => accept [] (.amoswpW r.g (r.f 6 13) (r.f 4 9) (r.f 6 3) (Scope.ofCode (r.n 2 1)) (r.b 0) r.extOpt)) (syllable 0x90 g (packAT d.toNat h.toNat o.toNat w.code q.toNat) x) = _
  exact accept_ok hw (by simp (disch := omega) [raw_f, raw_b, extOpt_eq, Nat.mod_eq_of_lt, Nat.div_eq_of_lt]) (by simp (disch := omega) [-Bool.and_eq_false_imp, raw_nz, raw_b, Nat.div_eq_of_lt])

theorem Encoding.amoswpD (g : Guard) (d : SReg) (h : HReg) (o : SReg) (w : Scope) (q : Bool) (x : Option W32) : Encoding.Statement (.amoswpD g d h o w q x) := by
  intro hw
  have := scope_code_lt w
  have := bool_lt q
  have := d.isLt
  have := h.isLt
  have := o.isLt
  refine syllable_ok (by decide) (by simp (disch := omega)) ?_
  have hd : ∀ x y n e, decodeLoad (Raw.mk 0x91 x y n e) = (fun r : Raw => accept [] (.amoswpD r.g (r.f 6 13) (r.f 4 9) (r.f 6 3) (Scope.ofCode (r.n 2 1)) (r.b 0) r.extOpt)) (Raw.mk 0x91 x y n e) := fun _ _ _ _ => rfl
  show decodeLoad (syllable 0x91 g (packAT d.toNat h.toNat o.toNat w.code q.toNat) x) = _
  refine (hd _ _ _ _).trans ?_
  show (fun r : Raw => accept [] (.amoswpD r.g (r.f 6 13) (r.f 4 9) (r.f 6 3) (Scope.ofCode (r.n 2 1)) (r.b 0) r.extOpt)) (syllable 0x91 g (packAT d.toNat h.toNat o.toNat w.code q.toNat) x) = _
  exact accept_ok hw (by simp (disch := omega) [raw_f, raw_b, extOpt_eq, Nat.mod_eq_of_lt, Nat.div_eq_of_lt]) (by simp (disch := omega) [-Bool.and_eq_false_imp, raw_nz, raw_b, Nat.div_eq_of_lt])

theorem Encoding.amocasW (g : Guard) (d : BitVec 5) (h : HReg) (o : SReg) (w : Scope) (q : Bool) (x : Option W32) : Encoding.Statement (.amocasW g d h o w q x) := by
  intro hw
  have := scope_code_lt w
  have := bool_lt q
  have := d.isLt
  have := h.isLt
  have := o.isLt
  refine syllable_ok (by decide) (by simp (disch := omega)) ?_
  have hd : ∀ x y n e, decodeLoad (Raw.mk 0x92 x y n e) = (fun r : Raw => accept [(r.nz 1 13, 7)] (.amocasW r.g (r.f 5 14) (r.f 4 9) (r.f 6 3) (Scope.ofCode (r.n 2 1)) (r.b 0) r.extOpt)) (Raw.mk 0x92 x y n e) := fun _ _ _ _ => rfl
  show decodeLoad (syllable 0x92 g (packAT (2 * d.toNat) h.toNat o.toNat w.code q.toNat) x) = _
  refine (hd _ _ _ _).trans ?_
  show (fun r : Raw => accept [(r.nz 1 13, 7)] (.amocasW r.g (r.f 5 14) (r.f 4 9) (r.f 6 3) (Scope.ofCode (r.n 2 1)) (r.b 0) r.extOpt)) (syllable 0x92 g (packAT (2 * d.toNat) h.toNat o.toNat w.code q.toNat) x) = _
  exact accept_ok hw (by simp (disch := omega) [raw_f, raw_b, extOpt_eq, Nat.mod_eq_of_lt, Nat.div_eq_of_lt]) (by simp (disch := omega) [-Bool.and_eq_false_imp, raw_nz, raw_b, Nat.div_eq_of_lt])

theorem Encoding.amocasD (g : Guard) (d : BitVec 5) (h : HReg) (o : SReg) (w : Scope) (q : Bool) (x : Option W32) : Encoding.Statement (.amocasD g d h o w q x) := by
  intro hw
  have := scope_code_lt w
  have := bool_lt q
  have := d.isLt
  have := h.isLt
  have := o.isLt
  refine syllable_ok (by decide) (by simp (disch := omega)) ?_
  have hd : ∀ x y n e, decodeLoad (Raw.mk 0x93 x y n e) = (fun r : Raw => accept [(r.nz 1 13, 7)] (.amocasD r.g (r.f 5 14) (r.f 4 9) (r.f 6 3) (Scope.ofCode (r.n 2 1)) (r.b 0) r.extOpt)) (Raw.mk 0x93 x y n e) := fun _ _ _ _ => rfl
  show decodeLoad (syllable 0x93 g (packAT (2 * d.toNat) h.toNat o.toNat w.code q.toNat) x) = _
  refine (hd _ _ _ _).trans ?_
  show (fun r : Raw => accept [(r.nz 1 13, 7)] (.amocasD r.g (r.f 5 14) (r.f 4 9) (r.f 6 3) (Scope.ofCode (r.n 2 1)) (r.b 0) r.extOpt)) (syllable 0x93 g (packAT (2 * d.toNat) h.toNat o.toNat w.code q.toNat) x) = _
  exact accept_ok hw (by simp (disch := omega) [raw_f, raw_b, extOpt_eq, Nat.mod_eq_of_lt, Nat.div_eq_of_lt]) (by simp (disch := omega) [-Bool.and_eq_false_imp, raw_nz, raw_b, Nat.div_eq_of_lt])

theorem Encoding.amofaddW (g : Guard) (d : SReg) (h : HReg) (o : SReg) (w : Scope) (q : Bool) (x : Option W32) : Encoding.Statement (.amofaddW g d h o w q x) := by
  intro hw
  have := scope_code_lt w
  have := bool_lt q
  have := d.isLt
  have := h.isLt
  have := o.isLt
  refine syllable_ok (by decide) (by simp (disch := omega)) ?_
  have hd : ∀ x y n e, decodeLoad (Raw.mk 0x94 x y n e) = (fun r : Raw => accept [] (.amofaddW r.g (r.f 6 13) (r.f 4 9) (r.f 6 3) (Scope.ofCode (r.n 2 1)) (r.b 0) r.extOpt)) (Raw.mk 0x94 x y n e) := fun _ _ _ _ => rfl
  show decodeLoad (syllable 0x94 g (packAT d.toNat h.toNat o.toNat w.code q.toNat) x) = _
  refine (hd _ _ _ _).trans ?_
  show (fun r : Raw => accept [] (.amofaddW r.g (r.f 6 13) (r.f 4 9) (r.f 6 3) (Scope.ofCode (r.n 2 1)) (r.b 0) r.extOpt)) (syllable 0x94 g (packAT d.toNat h.toNat o.toNat w.code q.toNat) x) = _
  exact accept_ok hw (by simp (disch := omega) [raw_f, raw_b, extOpt_eq, Nat.mod_eq_of_lt, Nat.div_eq_of_lt]) (by simp (disch := omega) [-Bool.and_eq_false_imp, raw_nz, raw_b, Nat.div_eq_of_lt])

theorem Encoding.tktwait (g : Guard) (d : SReg) (h : HReg) (o : SReg) : Encoding.Statement (.tktwait g d h o) := by
  intro hw
  have := d.isLt
  have := h.isLt
  have := o.isLt
  refine syllable_ok (by decide) (by simp (disch := omega)) ?_
  have hd : ∀ x y n e, decodeLoad (Raw.mk 0xA0 x y n e) = (fun r : Raw => accept [(r.x, 4), (r.nz 1 0, 3), (r.n 2 1 != 2, 6)] (.tktwait r.g (r.f 6 13) (r.f 4 9) (r.f 6 3))) (Raw.mk 0xA0 x y n e) := fun _ _ _ _ => rfl
  show decodeLoad (syllable 0xA0 g (packAT d.toNat h.toNat o.toNat 2 0) none) = _
  refine (hd _ _ _ _).trans ?_
  show (fun r : Raw => accept [(r.x, 4), (r.nz 1 0, 3), (r.n 2 1 != 2, 6)] (.tktwait r.g (r.f 6 13) (r.f 4 9) (r.f 6 3))) (syllable 0xA0 g (packAT d.toNat h.toNat o.toNat 2 0) none) = _
  exact accept_ok hw (by simp (disch := omega) [raw_f, raw_b, Nat.mod_eq_of_lt, Nat.div_eq_of_lt]) (by simp (disch := omega) [-Bool.and_eq_false_imp, raw_nz, raw_b, Nat.div_eq_of_lt])

theorem Encoding.tktdone (g : Guard) (h : HReg) (o : SReg) : Encoding.Statement (.tktdone g h o) := by
  intro hw
  have := h.isLt
  have := o.isLt
  refine syllable_ok (by decide) (by simp (disch := omega)) ?_
  have hd : ∀ x y n e, decodeLoad (Raw.mk 0xA1 x y n e) = (fun r : Raw => accept [(r.x, 4), (r.nz 1 0, 3), (r.nz 6 13, 3), (r.n 2 1 != 2, 6)] (.tktdone r.g (r.f 4 9) (r.f 6 3))) (Raw.mk 0xA1 x y n e) := fun _ _ _ _ => rfl
  show decodeLoad (syllable 0xA1 g (packAT 0 h.toNat o.toNat 2 0) none) = _
  refine (hd _ _ _ _).trans ?_
  show (fun r : Raw => accept [(r.x, 4), (r.nz 1 0, 3), (r.nz 6 13, 3), (r.n 2 1 != 2, 6)] (.tktdone r.g (r.f 4 9) (r.f 6 3))) (syllable 0xA1 g (packAT 0 h.toNat o.toNat 2 0) none) = _
  exact accept_ok hw (by simp (disch := omega) [raw_f, raw_b, Nat.mod_eq_of_lt, Nat.div_eq_of_lt]) (by simp (disch := omega) [-Bool.and_eq_false_imp, raw_nz, raw_b, Nat.div_eq_of_lt])

theorem Encoding.xlat (g : Guard) (d : HReg) (a : SReg) (kind : Bool) : Encoding.Statement (.xlat g d a kind) := by
  intro hw
  have := bool_lt kind
  have := d.isLt
  have := a.isLt
  refine syllable_ok (by decide) (by simp (disch := omega)) ?_
  have hd : ∀ x y n e, decodeLoad (Raw.mk 0xC0 x y n e) = (fun r : Raw => accept [(r.x, 4), (r.x && r.nz 7 0, 3), (r.nz 2 17, 3), (r.nz 6 1, 6)] (.xlat r.g (r.f 4 13) (r.f 6 7) (r.b 0))) (Raw.mk 0xC0 x y n e) := fun _ _ _ _ => rfl
  show decodeLoad (syllable 0xC0 g (packSI d.toNat a.toNat kind.toNat) none) = _
  refine (hd _ _ _ _).trans ?_
  show (fun r : Raw => accept [(r.x, 4), (r.x && r.nz 7 0, 3), (r.nz 2 17, 3), (r.nz 6 1, 6)] (.xlat r.g (r.f 4 13) (r.f 6 7) (r.b 0))) (syllable 0xC0 g (packSI d.toNat a.toNat kind.toNat) none) = _
  exact accept_ok hw (by simp (disch := omega) [raw_f, raw_b]) (by simp (disch := omega) [-Bool.and_eq_false_imp, raw_nz, raw_b] <;> omega)

theorem Encoding.hinv (g : Guard) (d : HReg) : Encoding.Statement (.hinv g d) := by
  intro hw
  have := d.isLt
  refine syllable_ok (by decide) (by simp (disch := omega)) ?_
  have hd : ∀ x y n e, decodeLoad (Raw.mk 0xC1 x y n e) = (fun r : Raw => accept [(r.x, 4), (r.nz 2 17, 3), (r.nz 13 0, 3)] (.hinv r.g (r.f 4 13))) (Raw.mk 0xC1 x y n e) := fun _ _ _ _ => rfl
  show decodeLoad (syllable 0xC1 g (packSI d.toNat 0 0) none) = _
  refine (hd _ _ _ _).trans ?_
  show (fun r : Raw => accept [(r.x, 4), (r.nz 2 17, 3), (r.nz 13 0, 3)] (.hinv r.g (r.f 4 13))) (syllable 0xC1 g (packSI d.toNat 0 0) none) = _
  exact accept_ok hw (by simp (disch := omega) [raw_f, raw_b]) (by simp (disch := omega) [-Bool.and_eq_false_imp, raw_nz, raw_b] <;> omega)

theorem Encoding.hget (g : Guard) (d : SReg) (a : HReg) (sel : BitVec 2) : Encoding.Statement (.hget g d a sel) := by
  intro hw
  have := d.isLt
  have := a.isLt
  have := sel.isLt
  refine syllable_ok (by decide) (by simp (disch := omega)) ?_
  have hd : ∀ x y n e, decodeLoad (Raw.mk 0xC2 x y n e) = (fun r : Raw => accept [(r.x, 4), (r.x && r.nz 7 0, 3), (r.nz 2 11, 3), (r.nz 5 2, 6)] (.hget r.g (r.f 6 13) (r.f 4 7) (r.f 2 0))) (Raw.mk 0xC2 x y n e) := fun _ _ _ _ => rfl
  show decodeLoad (syllable 0xC2 g (packSI d.toNat a.toNat sel.toNat) none) = _
  refine (hd _ _ _ _).trans ?_
  show (fun r : Raw => accept [(r.x, 4), (r.x && r.nz 7 0, 3), (r.nz 2 11, 3), (r.nz 5 2, 6)] (.hget r.g (r.f 6 13) (r.f 4 7) (r.f 2 0))) (syllable 0xC2 g (packSI d.toNat a.toNat sel.toNat) none) = _
  exact accept_ok hw (by simp (disch := omega) [raw_f, raw_b]) (by simp (disch := omega) [-Bool.and_eq_false_imp, raw_nz, raw_b] <;> omega)

theorem Encoding.hchk (g : Guard) (d : SReg) (a : HReg) : Encoding.Statement (.hchk g d a) := by
  intro hw
  have := d.isLt
  have := a.isLt
  refine syllable_ok (by decide) (by simp (disch := omega)) ?_
  have hd : ∀ x y n e, decodeLoad (Raw.mk 0xC3 x y n e) = (fun r : Raw => accept [(r.x, 4), (r.nz 2 11, 3), (r.nz 7 0, 3)] (.hchk r.g (r.f 6 13) (r.f 4 7))) (Raw.mk 0xC3 x y n e) := fun _ _ _ _ => rfl
  show decodeLoad (syllable 0xC3 g (packSI d.toNat a.toNat 0) none) = _
  refine (hd _ _ _ _).trans ?_
  show (fun r : Raw => accept [(r.x, 4), (r.nz 2 11, 3), (r.nz 7 0, 3)] (.hchk r.g (r.f 6 13) (r.f 4 7))) (syllable 0xC3 g (packSI d.toNat a.toNat 0) none) = _
  exact accept_ok hw (by simp (disch := omega) [raw_f, raw_b]) (by simp (disch := omega) [-Bool.and_eq_false_imp, raw_nz, raw_b] <;> omega)

theorem Encoding.scld (g : Guard) (d : SReg) (h : HReg) (o : SReg) (w : Scope) : Encoding.Statement (.scld g d h o w) := by
  intro hw
  have := scope_code_lt w
  have := d.isLt
  have := h.isLt
  have := o.isLt
  refine syllable_ok (by decide) (by simp (disch := omega)) ?_
  have hd : ∀ x y n e, decodeLoad (Raw.mk 0xD0 x y n e) = (fun r : Raw => accept [(r.x, 4), (r.nz 1 0, 3)] (.scld r.g (r.f 6 13) (r.f 4 9) (r.f 6 3) (Scope.ofCode (r.n 2 1)))) (Raw.mk 0xD0 x y n e) := fun _ _ _ _ => rfl
  show decodeLoad (syllable 0xD0 g (packAT d.toNat h.toNat o.toNat w.code 0) none) = _
  refine (hd _ _ _ _).trans ?_
  show (fun r : Raw => accept [(r.x, 4), (r.nz 1 0, 3)] (.scld r.g (r.f 6 13) (r.f 4 9) (r.f 6 3) (Scope.ofCode (r.n 2 1)))) (syllable 0xD0 g (packAT d.toNat h.toNat o.toNat w.code 0) none) = _
  exact accept_ok hw (by simp (disch := omega) [raw_f, raw_b, Nat.mod_eq_of_lt, Nat.div_eq_of_lt]) (by simp (disch := omega) [-Bool.and_eq_false_imp, raw_nz, raw_b, Nat.div_eq_of_lt])

theorem Encoding.scst (g : Guard) (d : SReg) (h : HReg) (o : SReg) (w : Scope) : Encoding.Statement (.scst g d h o w) := by
  intro hw
  have := scope_code_lt w
  have := d.isLt
  have := h.isLt
  have := o.isLt
  refine syllable_ok (by decide) (by simp (disch := omega)) ?_
  have hd : ∀ x y n e, decodeLoad (Raw.mk 0xD1 x y n e) = (fun r : Raw => accept [(r.x, 4), (r.nz 1 0, 3)] (.scst r.g (r.f 6 13) (r.f 4 9) (r.f 6 3) (Scope.ofCode (r.n 2 1)))) (Raw.mk 0xD1 x y n e) := fun _ _ _ _ => rfl
  show decodeLoad (syllable 0xD1 g (packAT d.toNat h.toNat o.toNat w.code 0) none) = _
  refine (hd _ _ _ _).trans ?_
  show (fun r : Raw => accept [(r.x, 4), (r.nz 1 0, 3)] (.scst r.g (r.f 6 13) (r.f 4 9) (r.f 6 3) (Scope.ofCode (r.n 2 1)))) (syllable 0xD1 g (packAT d.toNat h.toNat o.toNat w.code 0) none) = _
  exact accept_ok hw (by simp (disch := omega) [raw_f, raw_b, Nat.mod_eq_of_lt, Nat.div_eq_of_lt]) (by simp (disch := omega) [-Bool.and_eq_false_imp, raw_nz, raw_b, Nat.div_eq_of_lt])

theorem Encoding.scaddW (g : Guard) (d : SReg) (h : HReg) (o : SReg) (w : Scope) : Encoding.Statement (.scaddW g d h o w) := by
  intro hw
  have := scope_code_lt w
  have := d.isLt
  have := h.isLt
  have := o.isLt
  refine syllable_ok (by decide) (by simp (disch := omega)) ?_
  have hd : ∀ x y n e, decodeLoad (Raw.mk 0xD2 x y n e) = (fun r : Raw => accept [(r.x, 4), (r.nz 1 0, 3)] (.scaddW r.g (r.f 6 13) (r.f 4 9) (r.f 6 3) (Scope.ofCode (r.n 2 1)))) (Raw.mk 0xD2 x y n e) := fun _ _ _ _ => rfl
  show decodeLoad (syllable 0xD2 g (packAT d.toNat h.toNat o.toNat w.code 0) none) = _
  refine (hd _ _ _ _).trans ?_
  show (fun r : Raw => accept [(r.x, 4), (r.nz 1 0, 3)] (.scaddW r.g (r.f 6 13) (r.f 4 9) (r.f 6 3) (Scope.ofCode (r.n 2 1)))) (syllable 0xD2 g (packAT d.toNat h.toNat o.toNat w.code 0) none) = _
  exact accept_ok hw (by simp (disch := omega) [raw_f, raw_b, Nat.mod_eq_of_lt, Nat.div_eq_of_lt]) (by simp (disch := omega) [-Bool.and_eq_false_imp, raw_nz, raw_b, Nat.div_eq_of_lt])

theorem Encoding.scaddD (g : Guard) (d : SReg) (h : HReg) (o : SReg) (w : Scope) : Encoding.Statement (.scaddD g d h o w) := by
  intro hw
  have := scope_code_lt w
  have := d.isLt
  have := h.isLt
  have := o.isLt
  refine syllable_ok (by decide) (by simp (disch := omega)) ?_
  have hd : ∀ x y n e, decodeLoad (Raw.mk 0xD3 x y n e) = (fun r : Raw => accept [(r.x, 4), (r.nz 1 0, 3)] (.scaddD r.g (r.f 6 13) (r.f 4 9) (r.f 6 3) (Scope.ofCode (r.n 2 1)))) (Raw.mk 0xD3 x y n e) := fun _ _ _ _ => rfl
  show decodeLoad (syllable 0xD3 g (packAT d.toNat h.toNat o.toNat w.code 0) none) = _
  refine (hd _ _ _ _).trans ?_
  show (fun r : Raw => accept [(r.x, 4), (r.nz 1 0, 3)] (.scaddD r.g (r.f 6 13) (r.f 4 9) (r.f 6 3) (Scope.ofCode (r.n 2 1)))) (syllable 0xD3 g (packAT d.toNat h.toNat o.toNat w.code 0) none) = _
  exact accept_ok hw (by simp (disch := omega) [raw_f, raw_b, Nat.mod_eq_of_lt, Nat.div_eq_of_lt]) (by simp (disch := omega) [-Bool.and_eq_false_imp, raw_nz, raw_b, Nat.div_eq_of_lt])

theorem Encoding.wbinv (g : Guard) (h : HReg) (o : SReg) : Encoding.Statement (.wbinv g h o) := by
  intro hw
  have := h.isLt
  have := o.isLt
  refine syllable_ok (by decide) (by simp (disch := omega)) ?_
  have hd : ∀ x y n e, decodeLoad (Raw.mk 0xE0 x y n e) = (fun r : Raw => accept [(r.x, 4), (r.nz 6 13, 3), (r.nz 3 0, 3)] (.wbinv r.g (r.f 4 9) (r.f 6 3))) (Raw.mk 0xE0 x y n e) := fun _ _ _ _ => rfl
  show decodeLoad (syllable 0xE0 g (packME 0 h.toNat o.toNat 0) none) = _
  refine (hd _ _ _ _).trans ?_
  show (fun r : Raw => accept [(r.x, 4), (r.nz 6 13, 3), (r.nz 3 0, 3)] (.wbinv r.g (r.f 4 9) (r.f 6 3))) (syllable 0xE0 g (packME 0 h.toNat o.toNat 0) none) = _
  exact accept_ok hw (by simp (disch := omega) [raw_f, raw_b]) (by simp (disch := omega) [-Bool.and_eq_false_imp, raw_nz, raw_b])

theorem Encoding.pfl2 (g : Guard) (h : HReg) (o : SReg) : Encoding.Statement (.pfl2 g h o) := by
  intro hw
  have := h.isLt
  have := o.isLt
  refine syllable_ok (by decide) (by simp (disch := omega)) ?_
  have hd : ∀ x y n e, decodeLoad (Raw.mk 0xE1 x y n e) = (fun r : Raw => accept [(r.x, 4), (r.nz 6 13, 3), (r.nz 3 0, 3)] (.pfl2 r.g (r.f 4 9) (r.f 6 3))) (Raw.mk 0xE1 x y n e) := fun _ _ _ _ => rfl
  show decodeLoad (syllable 0xE1 g (packME 0 h.toNat o.toNat 0) none) = _
  refine (hd _ _ _ _).trans ?_
  show (fun r : Raw => accept [(r.x, 4), (r.nz 6 13, 3), (r.nz 3 0, 3)] (.pfl2 r.g (r.f 4 9) (r.f 6 3))) (syllable 0xE1 g (packME 0 h.toNat o.toNat 0) none) = _
  exact accept_ok hw (by simp (disch := omega) [raw_f, raw_b]) (by simp (disch := omega) [-Bool.and_eq_false_imp, raw_nz, raw_b])

theorem Encoding.vadd (g : Guard) (d : VReg) (a : VReg) (b : VReg) (f : Fmt) (x : Option VExt) : Encoding.Statement (.vadd g d a b f x) := by
  intro hw
  have := fmt_code_lt f
  have := d.isLt
  have := a.isLt
  have := b.isLt
  refine syllable_ok (by decide) (by simp (disch := omega)) ?_
  have hd : ∀ x y n e, decodeVector (Raw.mk 0x01 x y n e) = (fun r : Raw => accept [(r.n 4 0 > 9, 6), (r.x && r.extN 4 20 > 9, 6), (r.x && r.extN 3 29 > 4, 6)] (.vadd r.g (r.f 5 14) (r.f 5 9) (r.f 5 4) (Fmt.ofCode (r.n 4 0)) r.vext)) (Raw.mk 0x01 x y n e) := fun _ _ _ _ => rfl
  show decodeVector (syllable 0x01 g (packVR d.toNat a.toNat b.toNat f.code) (VExt.wordOpt x)) = _
  refine (hd _ _ _ _).trans ?_
  show (fun r : Raw => accept [(r.n 4 0 > 9, 6), (r.x && r.extN 4 20 > 9, 6), (r.x && r.extN 3 29 > 4, 6)] (.vadd r.g (r.f 5 14) (r.f 5 9) (r.f 5 4) (Fmt.ofCode (r.n 4 0)) r.vext)) (syllable 0x01 g (packVR d.toNat a.toNat b.toNat f.code) (VExt.wordOpt x)) = _
  exact accept_ok hw (by simp (disch := omega) [raw_f, raw_b, vext_eq]) (by simp (disch := omega) [-Bool.and_eq_false_imp, raw_nz, raw_b, vext_condF, vext_condR])

theorem Encoding.vsub (g : Guard) (d : VReg) (a : VReg) (b : VReg) (f : Fmt) (x : Option VExt) : Encoding.Statement (.vsub g d a b f x) := by
  intro hw
  have := fmt_code_lt f
  have := d.isLt
  have := a.isLt
  have := b.isLt
  refine syllable_ok (by decide) (by simp (disch := omega)) ?_
  have hd : ∀ x y n e, decodeVector (Raw.mk 0x02 x y n e) = (fun r : Raw => accept [(r.n 4 0 > 9, 6), (r.x && r.extN 4 20 > 9, 6), (r.x && r.extN 3 29 > 4, 6)] (.vsub r.g (r.f 5 14) (r.f 5 9) (r.f 5 4) (Fmt.ofCode (r.n 4 0)) r.vext)) (Raw.mk 0x02 x y n e) := fun _ _ _ _ => rfl
  show decodeVector (syllable 0x02 g (packVR d.toNat a.toNat b.toNat f.code) (VExt.wordOpt x)) = _
  refine (hd _ _ _ _).trans ?_
  show (fun r : Raw => accept [(r.n 4 0 > 9, 6), (r.x && r.extN 4 20 > 9, 6), (r.x && r.extN 3 29 > 4, 6)] (.vsub r.g (r.f 5 14) (r.f 5 9) (r.f 5 4) (Fmt.ofCode (r.n 4 0)) r.vext)) (syllable 0x02 g (packVR d.toNat a.toNat b.toNat f.code) (VExt.wordOpt x)) = _
  exact accept_ok hw (by simp (disch := omega) [raw_f, raw_b, vext_eq]) (by simp (disch := omega) [-Bool.and_eq_false_imp, raw_nz, raw_b, vext_condF, vext_condR])

theorem Encoding.vmul (g : Guard) (d : VReg) (a : VReg) (b : VReg) (f : Fmt) (x : Option VExt) : Encoding.Statement (.vmul g d a b f x) := by
  intro hw
  have := fmt_code_lt f
  have := d.isLt
  have := a.isLt
  have := b.isLt
  refine syllable_ok (by decide) (by simp (disch := omega)) ?_
  have hd : ∀ x y n e, decodeVector (Raw.mk 0x03 x y n e) = (fun r : Raw => accept [(r.n 4 0 > 9, 6), (r.x && r.extN 4 20 > 9, 6), (r.x && r.extN 3 29 > 4, 6)] (.vmul r.g (r.f 5 14) (r.f 5 9) (r.f 5 4) (Fmt.ofCode (r.n 4 0)) r.vext)) (Raw.mk 0x03 x y n e) := fun _ _ _ _ => rfl
  show decodeVector (syllable 0x03 g (packVR d.toNat a.toNat b.toNat f.code) (VExt.wordOpt x)) = _
  refine (hd _ _ _ _).trans ?_
  show (fun r : Raw => accept [(r.n 4 0 > 9, 6), (r.x && r.extN 4 20 > 9, 6), (r.x && r.extN 3 29 > 4, 6)] (.vmul r.g (r.f 5 14) (r.f 5 9) (r.f 5 4) (Fmt.ofCode (r.n 4 0)) r.vext)) (syllable 0x03 g (packVR d.toNat a.toNat b.toNat f.code) (VExt.wordOpt x)) = _
  exact accept_ok hw (by simp (disch := omega) [raw_f, raw_b, vext_eq]) (by simp (disch := omega) [-Bool.and_eq_false_imp, raw_nz, raw_b, vext_condF, vext_condR])

theorem Encoding.vfma (g : Guard) (d : VReg) (a : VReg) (b : VReg) (f : Fmt) (x : Option VExt) : Encoding.Statement (.vfma g d a b f x) := by
  intro hw
  have := fmt_code_lt f
  have := d.isLt
  have := a.isLt
  have := b.isLt
  refine syllable_ok (by decide) (by simp (disch := omega)) ?_
  have hd : ∀ x y n e, decodeVector (Raw.mk 0x04 x y n e) = (fun r : Raw => accept [(r.n 4 0 > 9, 6), (r.x && r.extN 4 20 > 9, 6), (r.x && r.extN 3 29 > 4, 6)] (.vfma r.g (r.f 5 14) (r.f 5 9) (r.f 5 4) (Fmt.ofCode (r.n 4 0)) r.vext)) (Raw.mk 0x04 x y n e) := fun _ _ _ _ => rfl
  show decodeVector (syllable 0x04 g (packVR d.toNat a.toNat b.toNat f.code) (VExt.wordOpt x)) = _
  refine (hd _ _ _ _).trans ?_
  show (fun r : Raw => accept [(r.n 4 0 > 9, 6), (r.x && r.extN 4 20 > 9, 6), (r.x && r.extN 3 29 > 4, 6)] (.vfma r.g (r.f 5 14) (r.f 5 9) (r.f 5 4) (Fmt.ofCode (r.n 4 0)) r.vext)) (syllable 0x04 g (packVR d.toNat a.toNat b.toNat f.code) (VExt.wordOpt x)) = _
  exact accept_ok hw (by simp (disch := omega) [raw_f, raw_b, vext_eq]) (by simp (disch := omega) [-Bool.and_eq_false_imp, raw_nz, raw_b, vext_condF, vext_condR])

theorem Encoding.vfms (g : Guard) (d : VReg) (a : VReg) (b : VReg) (f : Fmt) (x : Option VExt) : Encoding.Statement (.vfms g d a b f x) := by
  intro hw
  have := fmt_code_lt f
  have := d.isLt
  have := a.isLt
  have := b.isLt
  refine syllable_ok (by decide) (by simp (disch := omega)) ?_
  have hd : ∀ x y n e, decodeVector (Raw.mk 0x05 x y n e) = (fun r : Raw => accept [(r.n 4 0 > 9, 6), (r.x && r.extN 4 20 > 9, 6), (r.x && r.extN 3 29 > 4, 6)] (.vfms r.g (r.f 5 14) (r.f 5 9) (r.f 5 4) (Fmt.ofCode (r.n 4 0)) r.vext)) (Raw.mk 0x05 x y n e) := fun _ _ _ _ => rfl
  show decodeVector (syllable 0x05 g (packVR d.toNat a.toNat b.toNat f.code) (VExt.wordOpt x)) = _
  refine (hd _ _ _ _).trans ?_
  show (fun r : Raw => accept [(r.n 4 0 > 9, 6), (r.x && r.extN 4 20 > 9, 6), (r.x && r.extN 3 29 > 4, 6)] (.vfms r.g (r.f 5 14) (r.f 5 9) (r.f 5 4) (Fmt.ofCode (r.n 4 0)) r.vext)) (syllable 0x05 g (packVR d.toNat a.toNat b.toNat f.code) (VExt.wordOpt x)) = _
  exact accept_ok hw (by simp (disch := omega) [raw_f, raw_b, vext_eq]) (by simp (disch := omega) [-Bool.and_eq_false_imp, raw_nz, raw_b, vext_condF, vext_condR])

theorem Encoding.vabs (g : Guard) (d : VReg) (a : VReg) (b : VReg) (f : Fmt) (x : Option VExt) : Encoding.Statement (.vabs g d a b f x) := by
  intro hw
  have hz : rndOf x = .rne := by simpa using wf_limit hw (rndOf x != .rne, 3) (by simp [limitsOf, vrPlain, vrCommon])
  have := fmt_code_lt f
  have := d.isLt
  have := a.isLt
  have := b.isLt
  refine syllable_ok (by decide) (by simp (disch := omega)) ?_
  have hd : ∀ x y n e, decodeVector (Raw.mk 0x06 x y n e) = (fun r : Raw => accept [(r.n 4 0 > 9, 6), (r.x && r.extN 4 20 > 9, 6), (r.x && r.extN 3 29 != 0, 3)] (.vabs r.g (r.f 5 14) (r.f 5 9) (r.f 5 4) (Fmt.ofCode (r.n 4 0)) r.vext)) (Raw.mk 0x06 x y n e) := fun _ _ _ _ => rfl
  show decodeVector (syllable 0x06 g (packVR d.toNat a.toNat b.toNat f.code) (VExt.wordOpt x)) = _
  refine (hd _ _ _ _).trans ?_
  show (fun r : Raw => accept [(r.n 4 0 > 9, 6), (r.x && r.extN 4 20 > 9, 6), (r.x && r.extN 3 29 != 0, 3)] (.vabs r.g (r.f 5 14) (r.f 5 9) (r.f 5 4) (Fmt.ofCode (r.n 4 0)) r.vext)) (syllable 0x06 g (packVR d.toNat a.toNat b.toNat f.code) (VExt.wordOpt x)) = _
  exact accept_ok hw (by simp (disch := omega) [raw_f, raw_b, vext_eq]) (by simp (disch := omega) [-Bool.and_eq_false_imp, raw_nz, raw_b, vext_condF, vext_condZ hz])

theorem Encoding.vneg (g : Guard) (d : VReg) (a : VReg) (b : VReg) (f : Fmt) (x : Option VExt) : Encoding.Statement (.vneg g d a b f x) := by
  intro hw
  have hz : rndOf x = .rne := by simpa using wf_limit hw (rndOf x != .rne, 3) (by simp [limitsOf, vrPlain, vrCommon])
  have := fmt_code_lt f
  have := d.isLt
  have := a.isLt
  have := b.isLt
  refine syllable_ok (by decide) (by simp (disch := omega)) ?_
  have hd : ∀ x y n e, decodeVector (Raw.mk 0x07 x y n e) = (fun r : Raw => accept [(r.n 4 0 > 9, 6), (r.x && r.extN 4 20 > 9, 6), (r.x && r.extN 3 29 != 0, 3)] (.vneg r.g (r.f 5 14) (r.f 5 9) (r.f 5 4) (Fmt.ofCode (r.n 4 0)) r.vext)) (Raw.mk 0x07 x y n e) := fun _ _ _ _ => rfl
  show decodeVector (syllable 0x07 g (packVR d.toNat a.toNat b.toNat f.code) (VExt.wordOpt x)) = _
  refine (hd _ _ _ _).trans ?_
  show (fun r : Raw => accept [(r.n 4 0 > 9, 6), (r.x && r.extN 4 20 > 9, 6), (r.x && r.extN 3 29 != 0, 3)] (.vneg r.g (r.f 5 14) (r.f 5 9) (r.f 5 4) (Fmt.ofCode (r.n 4 0)) r.vext)) (syllable 0x07 g (packVR d.toNat a.toNat b.toNat f.code) (VExt.wordOpt x)) = _
  exact accept_ok hw (by simp (disch := omega) [raw_f, raw_b, vext_eq]) (by simp (disch := omega) [-Bool.and_eq_false_imp, raw_nz, raw_b, vext_condF, vext_condZ hz])

theorem Encoding.vmin (g : Guard) (d : VReg) (a : VReg) (b : VReg) (f : Fmt) (x : Option VExt) : Encoding.Statement (.vmin g d a b f x) := by
  intro hw
  have hz : rndOf x = .rne := by simpa using wf_limit hw (rndOf x != .rne, 3) (by simp [limitsOf, vrPlain, vrCommon])
  have := fmt_code_lt f
  have := d.isLt
  have := a.isLt
  have := b.isLt
  refine syllable_ok (by decide) (by simp (disch := omega)) ?_
  have hd : ∀ x y n e, decodeVector (Raw.mk 0x08 x y n e) = (fun r : Raw => accept [(r.n 4 0 > 9, 6), (r.x && r.extN 4 20 > 9, 6), (r.x && r.extN 3 29 != 0, 3)] (.vmin r.g (r.f 5 14) (r.f 5 9) (r.f 5 4) (Fmt.ofCode (r.n 4 0)) r.vext)) (Raw.mk 0x08 x y n e) := fun _ _ _ _ => rfl
  show decodeVector (syllable 0x08 g (packVR d.toNat a.toNat b.toNat f.code) (VExt.wordOpt x)) = _
  refine (hd _ _ _ _).trans ?_
  show (fun r : Raw => accept [(r.n 4 0 > 9, 6), (r.x && r.extN 4 20 > 9, 6), (r.x && r.extN 3 29 != 0, 3)] (.vmin r.g (r.f 5 14) (r.f 5 9) (r.f 5 4) (Fmt.ofCode (r.n 4 0)) r.vext)) (syllable 0x08 g (packVR d.toNat a.toNat b.toNat f.code) (VExt.wordOpt x)) = _
  exact accept_ok hw (by simp (disch := omega) [raw_f, raw_b, vext_eq]) (by simp (disch := omega) [-Bool.and_eq_false_imp, raw_nz, raw_b, vext_condF, vext_condZ hz])

theorem Encoding.vmax (g : Guard) (d : VReg) (a : VReg) (b : VReg) (f : Fmt) (x : Option VExt) : Encoding.Statement (.vmax g d a b f x) := by
  intro hw
  have hz : rndOf x = .rne := by simpa using wf_limit hw (rndOf x != .rne, 3) (by simp [limitsOf, vrPlain, vrCommon])
  have := fmt_code_lt f
  have := d.isLt
  have := a.isLt
  have := b.isLt
  refine syllable_ok (by decide) (by simp (disch := omega)) ?_
  have hd : ∀ x y n e, decodeVector (Raw.mk 0x09 x y n e) = (fun r : Raw => accept [(r.n 4 0 > 9, 6), (r.x && r.extN 4 20 > 9, 6), (r.x && r.extN 3 29 != 0, 3)] (.vmax r.g (r.f 5 14) (r.f 5 9) (r.f 5 4) (Fmt.ofCode (r.n 4 0)) r.vext)) (Raw.mk 0x09 x y n e) := fun _ _ _ _ => rfl
  show decodeVector (syllable 0x09 g (packVR d.toNat a.toNat b.toNat f.code) (VExt.wordOpt x)) = _
  refine (hd _ _ _ _).trans ?_
  show (fun r : Raw => accept [(r.n 4 0 > 9, 6), (r.x && r.extN 4 20 > 9, 6), (r.x && r.extN 3 29 != 0, 3)] (.vmax r.g (r.f 5 14) (r.f 5 9) (r.f 5 4) (Fmt.ofCode (r.n 4 0)) r.vext)) (syllable 0x09 g (packVR d.toNat a.toNat b.toNat f.code) (VExt.wordOpt x)) = _
  exact accept_ok hw (by simp (disch := omega) [raw_f, raw_b, vext_eq]) (by simp (disch := omega) [-Bool.and_eq_false_imp, raw_nz, raw_b, vext_condF, vext_condZ hz])

theorem Encoding.vand (g : Guard) (d : VReg) (a : VReg) (b : VReg) : Encoding.Statement (.vand g d a b) := by
  intro hw
  have := d.isLt
  have := a.isLt
  have := b.isLt
  refine syllable_ok (by decide) (by simp (disch := omega)) ?_
  have hd : ∀ x y n e, decodeVector (Raw.mk 0x10 x y n e) = (fun r : Raw => accept [(r.x, 4), (r.x && r.ext != 0, 3), (r.nz 4 0, 3)] (.vand r.g (r.f 5 14) (r.f 5 9) (r.f 5 4))) (Raw.mk 0x10 x y n e) := fun _ _ _ _ => rfl
  show decodeVector (syllable 0x10 g (packVR d.toNat a.toNat b.toNat 0) none) = _
  refine (hd _ _ _ _).trans ?_
  show (fun r : Raw => accept [(r.x, 4), (r.x && r.ext != 0, 3), (r.nz 4 0, 3)] (.vand r.g (r.f 5 14) (r.f 5 9) (r.f 5 4))) (syllable 0x10 g (packVR d.toNat a.toNat b.toNat 0) none) = _
  exact accept_ok hw (by simp (disch := omega) [raw_f, raw_b]) (by simp (disch := omega) [-Bool.and_eq_false_imp, raw_nz, raw_b])

theorem Encoding.vor (g : Guard) (d : VReg) (a : VReg) (b : VReg) : Encoding.Statement (.vor g d a b) := by
  intro hw
  have := d.isLt
  have := a.isLt
  have := b.isLt
  refine syllable_ok (by decide) (by simp (disch := omega)) ?_
  have hd : ∀ x y n e, decodeVector (Raw.mk 0x11 x y n e) = (fun r : Raw => accept [(r.x, 4), (r.x && r.ext != 0, 3), (r.nz 4 0, 3)] (.vor r.g (r.f 5 14) (r.f 5 9) (r.f 5 4))) (Raw.mk 0x11 x y n e) := fun _ _ _ _ => rfl
  show decodeVector (syllable 0x11 g (packVR d.toNat a.toNat b.toNat 0) none) = _
  refine (hd _ _ _ _).trans ?_
  show (fun r : Raw => accept [(r.x, 4), (r.x && r.ext != 0, 3), (r.nz 4 0, 3)] (.vor r.g (r.f 5 14) (r.f 5 9) (r.f 5 4))) (syllable 0x11 g (packVR d.toNat a.toNat b.toNat 0) none) = _
  exact accept_ok hw (by simp (disch := omega) [raw_f, raw_b]) (by simp (disch := omega) [-Bool.and_eq_false_imp, raw_nz, raw_b])

theorem Encoding.vxor (g : Guard) (d : VReg) (a : VReg) (b : VReg) : Encoding.Statement (.vxor g d a b) := by
  intro hw
  have := d.isLt
  have := a.isLt
  have := b.isLt
  refine syllable_ok (by decide) (by simp (disch := omega)) ?_
  have hd : ∀ x y n e, decodeVector (Raw.mk 0x12 x y n e) = (fun r : Raw => accept [(r.x, 4), (r.x && r.ext != 0, 3), (r.nz 4 0, 3)] (.vxor r.g (r.f 5 14) (r.f 5 9) (r.f 5 4))) (Raw.mk 0x12 x y n e) := fun _ _ _ _ => rfl
  show decodeVector (syllable 0x12 g (packVR d.toNat a.toNat b.toNat 0) none) = _
  refine (hd _ _ _ _).trans ?_
  show (fun r : Raw => accept [(r.x, 4), (r.x && r.ext != 0, 3), (r.nz 4 0, 3)] (.vxor r.g (r.f 5 14) (r.f 5 9) (r.f 5 4))) (syllable 0x12 g (packVR d.toNat a.toNat b.toNat 0) none) = _
  exact accept_ok hw (by simp (disch := omega) [raw_f, raw_b]) (by simp (disch := omega) [-Bool.and_eq_false_imp, raw_nz, raw_b])

theorem Encoding.vshl (g : Guard) (d : VReg) (a : VReg) (b : VReg) (f : Fmt) : Encoding.Statement (.vshl g d a b f) := by
  intro hw
  have := fmt_code_lt f
  have := d.isLt
  have := a.isLt
  have := b.isLt
  refine syllable_ok (by decide) (by simp (disch := omega)) ?_
  have hd : ∀ x y n e, decodeVector (Raw.mk 0x13 x y n e) = (fun r : Raw => accept [(r.x, 4), (r.x && r.ext != 0, 3), (r.n 4 0 > 9, 6)] (.vshl r.g (r.f 5 14) (r.f 5 9) (r.f 5 4) (Fmt.ofCode (r.n 4 0)))) (Raw.mk 0x13 x y n e) := fun _ _ _ _ => rfl
  show decodeVector (syllable 0x13 g (packVR d.toNat a.toNat b.toNat f.code) none) = _
  refine (hd _ _ _ _).trans ?_
  show (fun r : Raw => accept [(r.x, 4), (r.x && r.ext != 0, 3), (r.n 4 0 > 9, 6)] (.vshl r.g (r.f 5 14) (r.f 5 9) (r.f 5 4) (Fmt.ofCode (r.n 4 0)))) (syllable 0x13 g (packVR d.toNat a.toNat b.toNat f.code) none) = _
  exact accept_ok hw (by simp (disch := omega) [raw_f, raw_b]) (by simp (disch := omega) [-Bool.and_eq_false_imp, raw_nz, raw_b])

theorem Encoding.vshr (g : Guard) (d : VReg) (a : VReg) (b : VReg) (f : Fmt) : Encoding.Statement (.vshr g d a b f) := by
  intro hw
  have := fmt_code_lt f
  have := d.isLt
  have := a.isLt
  have := b.isLt
  refine syllable_ok (by decide) (by simp (disch := omega)) ?_
  have hd : ∀ x y n e, decodeVector (Raw.mk 0x14 x y n e) = (fun r : Raw => accept [(r.x, 4), (r.x && r.ext != 0, 3), (r.n 4 0 > 9, 6)] (.vshr r.g (r.f 5 14) (r.f 5 9) (r.f 5 4) (Fmt.ofCode (r.n 4 0)))) (Raw.mk 0x14 x y n e) := fun _ _ _ _ => rfl
  show decodeVector (syllable 0x14 g (packVR d.toNat a.toNat b.toNat f.code) none) = _
  refine (hd _ _ _ _).trans ?_
  show (fun r : Raw => accept [(r.x, 4), (r.x && r.ext != 0, 3), (r.n 4 0 > 9, 6)] (.vshr r.g (r.f 5 14) (r.f 5 9) (r.f 5 4) (Fmt.ofCode (r.n 4 0)))) (syllable 0x14 g (packVR d.toNat a.toNat b.toNat f.code) none) = _
  exact accept_ok hw (by simp (disch := omega) [raw_f, raw_b]) (by simp (disch := omega) [-Bool.and_eq_false_imp, raw_nz, raw_b])

theorem Encoding.vsra (g : Guard) (d : VReg) (a : VReg) (b : VReg) (f : Fmt) : Encoding.Statement (.vsra g d a b f) := by
  intro hw
  have := fmt_code_lt f
  have := d.isLt
  have := a.isLt
  have := b.isLt
  refine syllable_ok (by decide) (by simp (disch := omega)) ?_
  have hd : ∀ x y n e, decodeVector (Raw.mk 0x15 x y n e) = (fun r : Raw => accept [(r.x, 4), (r.x && r.ext != 0, 3), (r.n 4 0 > 9, 6)] (.vsra r.g (r.f 5 14) (r.f 5 9) (r.f 5 4) (Fmt.ofCode (r.n 4 0)))) (Raw.mk 0x15 x y n e) := fun _ _ _ _ => rfl
  show decodeVector (syllable 0x15 g (packVR d.toNat a.toNat b.toNat f.code) none) = _
  refine (hd _ _ _ _).trans ?_
  show (fun r : Raw => accept [(r.x, 4), (r.x && r.ext != 0, 3), (r.n 4 0 > 9, 6)] (.vsra r.g (r.f 5 14) (r.f 5 9) (r.f 5 4) (Fmt.ofCode (r.n 4 0)))) (syllable 0x15 g (packVR d.toNat a.toNat b.toNat f.code) none) = _
  exact accept_ok hw (by simp (disch := omega) [raw_f, raw_b]) (by simp (disch := omega) [-Bool.and_eq_false_imp, raw_nz, raw_b])

theorem Encoding.vcmpeq (g : Guard) (d : VReg) (a : VReg) (b : VReg) (f : Fmt) (x : Option VExt) : Encoding.Statement (.vcmpeq g d a b f x) := by
  intro hw
  have hz : rndOf x = .rne := by simpa using wf_limit hw (rndOf x != .rne, 3) (by simp [limitsOf, vrPlain, vrCommon])
  have := fmt_code_lt f
  have := d.isLt
  have := a.isLt
  have := b.isLt
  refine syllable_ok (by decide) (by simp (disch := omega)) ?_
  have hd : ∀ x y n e, decodeVector (Raw.mk 0x20 x y n e) = (fun r : Raw => accept [(r.n 4 0 > 9, 6), (r.x && r.extN 4 20 > 9, 6), (r.x && r.extN 3 29 != 0, 3)] (.vcmpeq r.g (r.f 5 14) (r.f 5 9) (r.f 5 4) (Fmt.ofCode (r.n 4 0)) r.vext)) (Raw.mk 0x20 x y n e) := fun _ _ _ _ => rfl
  show decodeVector (syllable 0x20 g (packVR d.toNat a.toNat b.toNat f.code) (VExt.wordOpt x)) = _
  refine (hd _ _ _ _).trans ?_
  show (fun r : Raw => accept [(r.n 4 0 > 9, 6), (r.x && r.extN 4 20 > 9, 6), (r.x && r.extN 3 29 != 0, 3)] (.vcmpeq r.g (r.f 5 14) (r.f 5 9) (r.f 5 4) (Fmt.ofCode (r.n 4 0)) r.vext)) (syllable 0x20 g (packVR d.toNat a.toNat b.toNat f.code) (VExt.wordOpt x)) = _
  exact accept_ok hw (by simp (disch := omega) [raw_f, raw_b, vext_eq]) (by simp (disch := omega) [-Bool.and_eq_false_imp, raw_nz, raw_b, vext_condF, vext_condZ hz])

theorem Encoding.vcmplt (g : Guard) (d : VReg) (a : VReg) (b : VReg) (f : Fmt) (x : Option VExt) : Encoding.Statement (.vcmplt g d a b f x) := by
  intro hw
  have hz : rndOf x = .rne := by simpa using wf_limit hw (rndOf x != .rne, 3) (by simp [limitsOf, vrPlain, vrCommon])
  have := fmt_code_lt f
  have := d.isLt
  have := a.isLt
  have := b.isLt
  refine syllable_ok (by decide) (by simp (disch := omega)) ?_
  have hd : ∀ x y n e, decodeVector (Raw.mk 0x21 x y n e) = (fun r : Raw => accept [(r.n 4 0 > 9, 6), (r.x && r.extN 4 20 > 9, 6), (r.x && r.extN 3 29 != 0, 3)] (.vcmplt r.g (r.f 5 14) (r.f 5 9) (r.f 5 4) (Fmt.ofCode (r.n 4 0)) r.vext)) (Raw.mk 0x21 x y n e) := fun _ _ _ _ => rfl
  show decodeVector (syllable 0x21 g (packVR d.toNat a.toNat b.toNat f.code) (VExt.wordOpt x)) = _
  refine (hd _ _ _ _).trans ?_
  show (fun r : Raw => accept [(r.n 4 0 > 9, 6), (r.x && r.extN 4 20 > 9, 6), (r.x && r.extN 3 29 != 0, 3)] (.vcmplt r.g (r.f 5 14) (r.f 5 9) (r.f 5 4) (Fmt.ofCode (r.n 4 0)) r.vext)) (syllable 0x21 g (packVR d.toNat a.toNat b.toNat f.code) (VExt.wordOpt x)) = _
  exact accept_ok hw (by simp (disch := omega) [raw_f, raw_b, vext_eq]) (by simp (disch := omega) [-Bool.and_eq_false_imp, raw_nz, raw_b, vext_condF, vext_condZ hz])

theorem Encoding.vcmple (g : Guard) (d : VReg) (a : VReg) (b : VReg) (f : Fmt) (x : Option VExt) : Encoding.Statement (.vcmple g d a b f x) := by
  intro hw
  have hz : rndOf x = .rne := by simpa using wf_limit hw (rndOf x != .rne, 3) (by simp [limitsOf, vrPlain, vrCommon])
  have := fmt_code_lt f
  have := d.isLt
  have := a.isLt
  have := b.isLt
  refine syllable_ok (by decide) (by simp (disch := omega)) ?_
  have hd : ∀ x y n e, decodeVector (Raw.mk 0x22 x y n e) = (fun r : Raw => accept [(r.n 4 0 > 9, 6), (r.x && r.extN 4 20 > 9, 6), (r.x && r.extN 3 29 != 0, 3)] (.vcmple r.g (r.f 5 14) (r.f 5 9) (r.f 5 4) (Fmt.ofCode (r.n 4 0)) r.vext)) (Raw.mk 0x22 x y n e) := fun _ _ _ _ => rfl
  show decodeVector (syllable 0x22 g (packVR d.toNat a.toNat b.toNat f.code) (VExt.wordOpt x)) = _
  refine (hd _ _ _ _).trans ?_
  show (fun r : Raw => accept [(r.n 4 0 > 9, 6), (r.x && r.extN 4 20 > 9, 6), (r.x && r.extN 3 29 != 0, 3)] (.vcmple r.g (r.f 5 14) (r.f 5 9) (r.f 5 4) (Fmt.ofCode (r.n 4 0)) r.vext)) (syllable 0x22 g (packVR d.toNat a.toNat b.toNat f.code) (VExt.wordOpt x)) = _
  exact accept_ok hw (by simp (disch := omega) [raw_f, raw_b, vext_eq]) (by simp (disch := omega) [-Bool.and_eq_false_imp, raw_nz, raw_b, vext_condF, vext_condZ hz])

theorem Encoding.vsel (g : Guard) (d : VReg) (a : VReg) (b : VReg) (f : Fmt) (x : Option VExt) : Encoding.Statement (.vsel g d a b f x) := by
  intro hw
  have hs : sfClear x = true := by simpa using wf_limit hw (!sfClear x, 3) (by simp [limitsOf, vrPlain])
  have hz : rndOf x = .rne := by simpa using wf_limit hw (rndOf x != .rne, 3) (by simp [limitsOf, vrPlain, vrCommon])
  have := fmt_code_lt f
  have := d.isLt
  have := a.isLt
  have := b.isLt
  refine syllable_ok (by decide) (by simp (disch := omega)) ?_
  have hd : ∀ x y n e, decodeVector (Raw.mk 0x23 x y n e) = (fun r : Raw => accept [(r.n 4 0 > 9, 6), (r.x && r.extN 4 20 != 0, 3), (r.x && r.extN 3 29 != 0, 3)] (.vsel r.g (r.f 5 14) (r.f 5 9) (r.f 5 4) (Fmt.ofCode (r.n 4 0)) r.vext)) (Raw.mk 0x23 x y n e) := fun _ _ _ _ => rfl
  show decodeVector (syllable 0x23 g (packVR d.toNat a.toNat b.toNat f.code) (VExt.wordOpt x)) = _
  refine (hd _ _ _ _).trans ?_
  show (fun r : Raw => accept [(r.n 4 0 > 9, 6), (r.x && r.extN 4 20 != 0, 3), (r.x && r.extN 3 29 != 0, 3)] (.vsel r.g (r.f 5 14) (r.f 5 9) (r.f 5 4) (Fmt.ofCode (r.n 4 0)) r.vext)) (syllable 0x23 g (packVR d.toNat a.toNat b.toNat f.code) (VExt.wordOpt x)) = _
  exact accept_ok hw (by simp (disch := omega) [raw_f, raw_b, vext_eq]) (by simp (disch := omega) [-Bool.and_eq_false_imp, raw_nz, raw_b, vext_condS hs, vext_condZ hz])

theorem Encoding.vmov (g : Guard) (d : VReg) (a : VReg) : Encoding.Statement (.vmov g d a) := by
  intro hw
  have := d.isLt
  have := a.isLt
  refine syllable_ok (by decide) (by simp (disch := omega)) ?_
  have hd : ∀ x y n e, decodeVector (Raw.mk 0x30 x y n e) = (fun r : Raw => accept [(r.x, 4), (r.x && r.ext != 0, 3), (r.nz 9 0, 3)] (.vmov r.g (r.f 5 14) (r.f 5 9))) (Raw.mk 0x30 x y n e) := fun _ _ _ _ => rfl
  show decodeVector (syllable 0x30 g (packVR d.toNat a.toNat 0 0) none) = _
  refine (hd _ _ _ _).trans ?_
  show (fun r : Raw => accept [(r.x, 4), (r.x && r.ext != 0, 3), (r.nz 9 0, 3)] (.vmov r.g (r.f 5 14) (r.f 5 9))) (syllable 0x30 g (packVR d.toNat a.toNat 0 0) none) = _
  exact accept_ok hw (by simp (disch := omega) [raw_f, raw_b]) (by simp (disch := omega) [-Bool.and_eq_false_imp, raw_nz, raw_b])

theorem Encoding.vzero (g : Guard) (d : VReg) : Encoding.Statement (.vzero g d) := by
  intro hw
  have := d.isLt
  refine syllable_ok (by decide) (by simp (disch := omega)) ?_
  have hd : ∀ x y n e, decodeVector (Raw.mk 0x31 x y n e) = (fun r : Raw => accept [(r.x, 4), (r.x && r.ext != 0, 3), (r.nz 14 0, 3)] (.vzero r.g (r.f 5 14))) (Raw.mk 0x31 x y n e) := fun _ _ _ _ => rfl
  show decodeVector (syllable 0x31 g (packVR d.toNat 0 0 0) none) = _
  refine (hd _ _ _ _).trans ?_
  show (fun r : Raw => accept [(r.x, 4), (r.x && r.ext != 0, 3), (r.nz 14 0, 3)] (.vzero r.g (r.f 5 14))) (syllable 0x31 g (packVR d.toNat 0 0 0) none) = _
  exact accept_ok hw (by simp (disch := omega) [raw_f, raw_b]) (by simp (disch := omega) [-Bool.and_eq_false_imp, raw_nz, raw_b])

theorem Encoding.viota (g : Guard) (d : VReg) (a : VReg) (b : VReg) (f : Fmt) (x : Option VExt) : Encoding.Statement (.viota g d a b f x) := by
  intro hw
  have hs : sfClear x = true := by simpa using wf_limit hw (!sfClear x, 3) (by simp [limitsOf, vrPlain])
  have := fmt_code_lt f
  have := d.isLt
  have := a.isLt
  have := b.isLt
  refine syllable_ok (by decide) (by simp (disch := omega)) ?_
  have hd : ∀ x y n e, decodeVector (Raw.mk 0x32 x y n e) = (fun r : Raw => accept [(r.n 4 0 > 9, 6), (r.x && r.extN 4 20 != 0, 3), (r.x && r.extN 3 29 > 4, 6)] (.viota r.g (r.f 5 14) (r.f 5 9) (r.f 5 4) (Fmt.ofCode (r.n 4 0)) r.vext)) (Raw.mk 0x32 x y n e) := fun _ _ _ _ => rfl
  show decodeVector (syllable 0x32 g (packVR d.toNat a.toNat b.toNat f.code) (VExt.wordOpt x)) = _
  refine (hd _ _ _ _).trans ?_
  show (fun r : Raw => accept [(r.n 4 0 > 9, 6), (r.x && r.extN 4 20 != 0, 3), (r.x && r.extN 3 29 > 4, 6)] (.viota r.g (r.f 5 14) (r.f 5 9) (r.f 5 4) (Fmt.ofCode (r.n 4 0)) r.vext)) (syllable 0x32 g (packVR d.toNat a.toNat b.toNat f.code) (VExt.wordOpt x)) = _
  exact accept_ok hw (by simp (disch := omega) [raw_f, raw_b, vext_eq]) (by simp (disch := omega) [-Bool.and_eq_false_imp, raw_nz, raw_b, vext_condS hs, vext_condR])

theorem Encoding.vcvt (g : Guard) (d : VReg) (a : VReg) (b : VReg) (f : Fmt) (x : Option VExt) : Encoding.Statement (.vcvt g d a b f x) := by
  intro hw
  have := fmt_code_lt f
  have := d.isLt
  have := a.isLt
  have := b.isLt
  refine syllable_ok (by decide) (by simp (disch := omega)) ?_
  have hd : ∀ x y n e, decodeVector (Raw.mk 0x60 x y n e) = (fun r : Raw => accept [(r.n 4 0 > 9, 6), (r.x && r.extN 4 20 > 9, 6), (r.x && r.extN 3 29 > 4, 6)] (.vcvt r.g (r.f 5 14) (r.f 5 9) (r.f 5 4) (Fmt.ofCode (r.n 4 0)) r.vext)) (Raw.mk 0x60 x y n e) := fun _ _ _ _ => rfl
  show decodeVector (syllable 0x60 g (packVR d.toNat a.toNat b.toNat f.code) (VExt.wordOpt x)) = _
  refine (hd _ _ _ _).trans ?_
  show (fun r : Raw => accept [(r.n 4 0 > 9, 6), (r.x && r.extN 4 20 > 9, 6), (r.x && r.extN 3 29 > 4, 6)] (.vcvt r.g (r.f 5 14) (r.f 5 9) (r.f 5 4) (Fmt.ofCode (r.n 4 0)) r.vext)) (syllable 0x60 g (packVR d.toNat a.toNat b.toNat f.code) (VExt.wordOpt x)) = _
  exact accept_ok hw (by simp (disch := omega) [raw_f, raw_b, vext_eq]) (by simp (disch := omega) [-Bool.and_eq_false_imp, raw_nz, raw_b, vext_condF, vext_condR])

theorem Encoding.vpack (g : Guard) (d : VReg) (a : VReg) (b : VReg) (f : Fmt) (x : Option VExt) : Encoding.Statement (.vpack g d a b f x) := by
  intro hw
  have := fmt_code_lt f
  have := d.isLt
  have := a.isLt
  have := b.isLt
  refine syllable_ok (by decide) (by simp (disch := omega)) ?_
  have hd : ∀ x y n e, decodeVector (Raw.mk 0x61 x y n e) = (fun r : Raw => accept [(r.n 4 0 > 9, 6), (r.x && r.extN 4 20 > 9, 6), (r.x && r.extN 3 29 > 4, 6)] (.vpack r.g (r.f 5 14) (r.f 5 9) (r.f 5 4) (Fmt.ofCode (r.n 4 0)) r.vext)) (Raw.mk 0x61 x y n e) := fun _ _ _ _ => rfl
  show decodeVector (syllable 0x61 g (packVR d.toNat a.toNat b.toNat f.code) (VExt.wordOpt x)) = _
  refine (hd _ _ _ _).trans ?_
  show (fun r : Raw => accept [(r.n 4 0 > 9, 6), (r.x && r.extN 4 20 > 9, 6), (r.x && r.extN 3 29 > 4, 6)] (.vpack r.g (r.f 5 14) (r.f 5 9) (r.f 5 4) (Fmt.ofCode (r.n 4 0)) r.vext)) (syllable 0x61 g (packVR d.toNat a.toNat b.toNat f.code) (VExt.wordOpt x)) = _
  exact accept_ok hw (by simp (disch := omega) [raw_f, raw_b, vext_eq]) (by simp (disch := omega) [-Bool.and_eq_false_imp, raw_nz, raw_b, vext_condF, vext_condR])

theorem Encoding.vunpk (g : Guard) (d : VReg) (a : VReg) (b : VReg) (f : Fmt) (x : Option VExt) : Encoding.Statement (.vunpk g d a b f x) := by
  intro hw
  have := fmt_code_lt f
  have := d.isLt
  have := a.isLt
  have := b.isLt
  refine syllable_ok (by decide) (by simp (disch := omega)) ?_
  have hd : ∀ x y n e, decodeVector (Raw.mk 0x62 x y n e) = (fun r : Raw => accept [(r.n 4 0 > 9, 6), (r.x && r.extN 4 20 > 9, 6), (r.x && r.extN 3 29 > 4, 6)] (.vunpk r.g (r.f 5 14) (r.f 5 9) (r.f 5 4) (Fmt.ofCode (r.n 4 0)) r.vext)) (Raw.mk 0x62 x y n e) := fun _ _ _ _ => rfl
  show decodeVector (syllable 0x62 g (packVR d.toNat a.toNat b.toNat f.code) (VExt.wordOpt x)) = _
  refine (hd _ _ _ _).trans ?_
  show (fun r : Raw => accept [(r.n 4 0 > 9, 6), (r.x && r.extN 4 20 > 9, 6), (r.x && r.extN 3 29 > 4, 6)] (.vunpk r.g (r.f 5 14) (r.f 5 9) (r.f 5 4) (Fmt.ofCode (r.n 4 0)) r.vext)) (syllable 0x62 g (packVR d.toNat a.toNat b.toNat f.code) (VExt.wordOpt x)) = _
  exact accept_ok hw (by simp (disch := omega) [raw_f, raw_b, vext_eq]) (by simp (disch := omega) [-Bool.and_eq_false_imp, raw_nz, raw_b, vext_condF, vext_condR])

theorem Encoding.vquant (g : Guard) (d : VReg) (a : VReg) (b : VReg) (f : Fmt) (x : Option VExt) : Encoding.Statement (.vquant g d a b f x) := by
  intro hw
  have := fmt_code_lt f
  have := d.isLt
  have := a.isLt
  have := b.isLt
  refine syllable_ok (by decide) (by simp (disch := omega)) ?_
  have hd : ∀ x y n e, decodeVector (Raw.mk 0x63 x y n e) = (fun r : Raw => accept [(r.n 4 0 > 9, 6), (r.x && r.extN 4 20 > 9, 6), (r.x && r.extN 3 29 > 4, 6)] (.vquant r.g (r.f 5 14) (r.f 5 9) (r.f 5 4) (Fmt.ofCode (r.n 4 0)) r.vext)) (Raw.mk 0x63 x y n e) := fun _ _ _ _ => rfl
  show decodeVector (syllable 0x63 g (packVR d.toNat a.toNat b.toNat f.code) (VExt.wordOpt x)) = _
  refine (hd _ _ _ _).trans ?_
  show (fun r : Raw => accept [(r.n 4 0 > 9, 6), (r.x && r.extN 4 20 > 9, 6), (r.x && r.extN 3 29 > 4, 6)] (.vquant r.g (r.f 5 14) (r.f 5 9) (r.f 5 4) (Fmt.ofCode (r.n 4 0)) r.vext)) (syllable 0x63 g (packVR d.toNat a.toNat b.toNat f.code) (VExt.wordOpt x)) = _
  exact accept_ok hw (by simp (disch := omega) [raw_f, raw_b, vext_eq]) (by simp (disch := omega) [-Bool.and_eq_false_imp, raw_nz, raw_b, vext_condF, vext_condR])

theorem Encoding.vdequant (g : Guard) (d : VReg) (a : VReg) (b : VReg) (f : Fmt) (x : Option VExt) : Encoding.Statement (.vdequant g d a b f x) := by
  intro hw
  have := fmt_code_lt f
  have := d.isLt
  have := a.isLt
  have := b.isLt
  refine syllable_ok (by decide) (by simp (disch := omega)) ?_
  have hd : ∀ x y n e, decodeVector (Raw.mk 0x64 x y n e) = (fun r : Raw => accept [(r.n 4 0 > 9, 6), (r.x && r.extN 4 20 > 9, 6), (r.x && r.extN 3 29 > 4, 6)] (.vdequant r.g (r.f 5 14) (r.f 5 9) (r.f 5 4) (Fmt.ofCode (r.n 4 0)) r.vext)) (Raw.mk 0x64 x y n e) := fun _ _ _ _ => rfl
  show decodeVector (syllable 0x64 g (packVR d.toNat a.toNat b.toNat f.code) (VExt.wordOpt x)) = _
  refine (hd _ _ _ _).trans ?_
  show (fun r : Raw => accept [(r.n 4 0 > 9, 6), (r.x && r.extN 4 20 > 9, 6), (r.x && r.extN 3 29 > 4, 6)] (.vdequant r.g (r.f 5 14) (r.f 5 9) (r.f 5 4) (Fmt.ofCode (r.n 4 0)) r.vext)) (syllable 0x64 g (packVR d.toNat a.toNat b.toNat f.code) (VExt.wordOpt x)) = _
  exact accept_ok hw (by simp (disch := omega) [raw_f, raw_b, vext_eq]) (by simp (disch := omega) [-Bool.and_eq_false_imp, raw_nz, raw_b, vext_condF, vext_condR])

theorem Encoding.vtld (g : Guard) (t : BitVec 2) (n : CbReg) : Encoding.Statement (.vtld g t n) := by
  intro hw
  have := t.isLt
  have := n.isLt
  refine syllable_ok (by decide) (by simp (disch := omega)) ?_
  have hd : ∀ x y n e, decodeVector (Raw.mk 0x80 x y n e) = (fun r : Raw => accept [(r.x, 4), (r.x && r.ext != 0, 3), (r.nz 9 0, 3), (r.nz 3 16, 7)] (.vtld r.g (r.f 2 14) (r.f 5 9))) (Raw.mk 0x80 x y n e) := fun _ _ _ _ => rfl
  show decodeVector (syllable 0x80 g (packVR t.toNat n.toNat 0 0) none) = _
  refine (hd _ _ _ _).trans ?_
  show (fun r : Raw => accept [(r.x, 4), (r.x && r.ext != 0, 3), (r.nz 9 0, 3), (r.nz 3 16, 7)] (.vtld r.g (r.f 2 14) (r.f 5 9))) (syllable 0x80 g (packVR t.toNat n.toNat 0 0) none) = _
  exact accept_ok hw (by simp (disch := omega) [raw_f, raw_b]) (by simp (disch := omega) [-Bool.and_eq_false_imp, raw_nz, raw_b] <;> omega)

theorem Encoding.vtcfg (g : Guard) (t : BitVec 2) (a : VReg) (lmode : TailMode) (umode : TailMode) (lo : BitVec 16) (q : BitVec 4) : Encoding.Statement (.vtcfg g t a lmode umode lo q) := by
  intro hw
  have := tail_code_lt lmode
  have := tail_code_lt umode
  have := t.isLt
  have := a.isLt
  have := lo.isLt
  have := q.isLt
  have h1 : (q.toNat * 65536 + lo.toNat) % 4294967296 / 65536 = q.toNat := by omega
  have h2 : (lmode.code + 4 * umode.code) / 4 = umode.code := by omega
  have h3 : (q.toNat * 65536 + lo.toNat) / 65536 = q.toNat := by omega
  refine syllable_ok (by decide) (by simp (disch := omega)) ?_
  have hd : ∀ x y n e, decodeVector (Raw.mk 0x81 x y n e) = (fun r : Raw => accept [(!r.x, 5), (r.nz 4 0, 3), (r.nz 1 8, 3), (r.extN 12 20 != 0, 3), (r.nz 3 16, 7)] (.vtcfg r.g (r.f 2 14) (r.f 5 9) (TailMode.ofCode (r.n 2 4)) (TailMode.ofCode (r.n 2 6)) (r.e 16 0) (r.e 4 16))) (Raw.mk 0x81 x y n e) := fun _ _ _ _ => rfl
  show decodeVector (syllable 0x81 g (packVR t.toNat a.toNat (lmode.code + 4 * umode.code) 0) (some (BitVec.ofNat 32 (q.toNat * 65536 + lo.toNat)))) = _
  refine (hd _ _ _ _).trans ?_
  show (fun r : Raw => accept [(!r.x, 5), (r.nz 4 0, 3), (r.nz 1 8, 3), (r.extN 12 20 != 0, 3), (r.nz 3 16, 7)] (.vtcfg r.g (r.f 2 14) (r.f 5 9) (TailMode.ofCode (r.n 2 4)) (TailMode.ofCode (r.n 2 6)) (r.e 16 0) (r.e 4 16))) (syllable 0x81 g (packVR t.toNat a.toNat (lmode.code + 4 * umode.code) 0) (some (BitVec.ofNat 32 (q.toNat * 65536 + lo.toNat)))) = _
  exact accept_ok hw (by simp (disch := omega) [raw_f, raw_b, raw_e, extN_ofNat, h1, h2, h3]) (by simp (disch := omega) [-Bool.and_eq_false_imp, raw_nz, raw_b, extN_ofNat] <;> omega)

theorem Encoding.vtab (g : Guard) (d : VReg) (a : VReg) (b : VReg) (f : Fmt) (x : Option VExt) : Encoding.Statement (.vtab g d a b f x) := by
  intro hw
  have := fmt_code_lt f
  have := d.isLt
  have := a.isLt
  have := b.isLt
  refine syllable_ok (by decide) (by simp (disch := omega)) ?_
  have hd : ∀ x y n e, decodeVector (Raw.mk 0x82 x y n e) = (fun r : Raw => accept [(r.n 4 0 > 9, 6), (r.x && r.extN 4 20 > 9, 6), (r.x && r.extN 3 29 > 4, 6)] (.vtab r.g (r.f 5 14) (r.f 5 9) (r.f 5 4) (Fmt.ofCode (r.n 4 0)) r.vext)) (Raw.mk 0x82 x y n e) := fun _ _ _ _ => rfl
  show decodeVector (syllable 0x82 g (packVR d.toNat a.toNat b.toNat f.code) (VExt.wordOpt x)) = _
  refine (hd _ _ _ _).trans ?_
  show (fun r : Raw => accept [(r.n 4 0 > 9, 6), (r.x && r.extN 4 20 > 9, 6), (r.x && r.extN 3 29 > 4, 6)] (.vtab r.g (r.f 5 14) (r.f 5 9) (r.f 5 4) (Fmt.ofCode (r.n 4 0)) r.vext)) (syllable 0x82 g (packVR d.toNat a.toNat b.toNat f.code) (VExt.wordOpt x)) = _
  exact accept_ok hw (by simp (disch := omega) [raw_f, raw_b, vext_eq]) (by simp (disch := omega) [-Bool.and_eq_false_imp, raw_nz, raw_b, vext_condF, vext_condR])

theorem Encoding.vredsum (g : Guard) (d : VReg) (a : VReg) (b : VReg) (f : Fmt) (x : Option VExt) : Encoding.Statement (.vredsum g d a b f x) := by
  intro hw
  have := fmt_code_lt f
  have := d.isLt
  have := a.isLt
  have := b.isLt
  refine syllable_ok (by decide) (by simp (disch := omega)) ?_
  have hd : ∀ x y n e, decodeVector (Raw.mk 0xA0 x y n e) = (fun r : Raw => accept [(r.n 4 0 > 9, 6), (r.x && r.extN 4 20 > 9, 6), (r.x && r.extN 3 29 > 4, 6)] (.vredsum r.g (r.f 5 14) (r.f 5 9) (r.f 5 4) (Fmt.ofCode (r.n 4 0)) r.vext)) (Raw.mk 0xA0 x y n e) := fun _ _ _ _ => rfl
  show decodeVector (syllable 0xA0 g (packVR d.toNat a.toNat b.toNat f.code) (VExt.wordOpt x)) = _
  refine (hd _ _ _ _).trans ?_
  show (fun r : Raw => accept [(r.n 4 0 > 9, 6), (r.x && r.extN 4 20 > 9, 6), (r.x && r.extN 3 29 > 4, 6)] (.vredsum r.g (r.f 5 14) (r.f 5 9) (r.f 5 4) (Fmt.ofCode (r.n 4 0)) r.vext)) (syllable 0xA0 g (packVR d.toNat a.toNat b.toNat f.code) (VExt.wordOpt x)) = _
  exact accept_ok hw (by simp (disch := omega) [raw_f, raw_b, vext_eq]) (by simp (disch := omega) [-Bool.and_eq_false_imp, raw_nz, raw_b, vext_condF, vext_condR])

theorem Encoding.vredmax (g : Guard) (d : VReg) (a : VReg) (b : VReg) (f : Fmt) (x : Option VExt) : Encoding.Statement (.vredmax g d a b f x) := by
  intro hw
  have hz : rndOf x = .rne := by simpa using wf_limit hw (rndOf x != .rne, 3) (by simp [limitsOf, vrPlain, vrCommon])
  have := fmt_code_lt f
  have := d.isLt
  have := a.isLt
  have := b.isLt
  refine syllable_ok (by decide) (by simp (disch := omega)) ?_
  have hd : ∀ x y n e, decodeVector (Raw.mk 0xA1 x y n e) = (fun r : Raw => accept [(r.n 4 0 > 9, 6), (r.x && r.extN 4 20 > 9, 6), (r.x && r.extN 3 29 != 0, 3)] (.vredmax r.g (r.f 5 14) (r.f 5 9) (r.f 5 4) (Fmt.ofCode (r.n 4 0)) r.vext)) (Raw.mk 0xA1 x y n e) := fun _ _ _ _ => rfl
  show decodeVector (syllable 0xA1 g (packVR d.toNat a.toNat b.toNat f.code) (VExt.wordOpt x)) = _
  refine (hd _ _ _ _).trans ?_
  show (fun r : Raw => accept [(r.n 4 0 > 9, 6), (r.x && r.extN 4 20 > 9, 6), (r.x && r.extN 3 29 != 0, 3)] (.vredmax r.g (r.f 5 14) (r.f 5 9) (r.f 5 4) (Fmt.ofCode (r.n 4 0)) r.vext)) (syllable 0xA1 g (packVR d.toNat a.toNat b.toNat f.code) (VExt.wordOpt x)) = _
  exact accept_ok hw (by simp (disch := omega) [raw_f, raw_b, vext_eq]) (by simp (disch := omega) [-Bool.and_eq_false_imp, raw_nz, raw_b, vext_condF, vext_condZ hz])

theorem Encoding.vredmin (g : Guard) (d : VReg) (a : VReg) (b : VReg) (f : Fmt) (x : Option VExt) : Encoding.Statement (.vredmin g d a b f x) := by
  intro hw
  have hz : rndOf x = .rne := by simpa using wf_limit hw (rndOf x != .rne, 3) (by simp [limitsOf, vrPlain, vrCommon])
  have := fmt_code_lt f
  have := d.isLt
  have := a.isLt
  have := b.isLt
  refine syllable_ok (by decide) (by simp (disch := omega)) ?_
  have hd : ∀ x y n e, decodeVector (Raw.mk 0xA2 x y n e) = (fun r : Raw => accept [(r.n 4 0 > 9, 6), (r.x && r.extN 4 20 > 9, 6), (r.x && r.extN 3 29 != 0, 3)] (.vredmin r.g (r.f 5 14) (r.f 5 9) (r.f 5 4) (Fmt.ofCode (r.n 4 0)) r.vext)) (Raw.mk 0xA2 x y n e) := fun _ _ _ _ => rfl
  show decodeVector (syllable 0xA2 g (packVR d.toNat a.toNat b.toNat f.code) (VExt.wordOpt x)) = _
  refine (hd _ _ _ _).trans ?_
  show (fun r : Raw => accept [(r.n 4 0 > 9, 6), (r.x && r.extN 4 20 > 9, 6), (r.x && r.extN 3 29 != 0, 3)] (.vredmin r.g (r.f 5 14) (r.f 5 9) (r.f 5 4) (Fmt.ofCode (r.n 4 0)) r.vext)) (syllable 0xA2 g (packVR d.toNat a.toNat b.toNat f.code) (VExt.wordOpt x)) = _
  exact accept_ok hw (by simp (disch := omega) [raw_f, raw_b, vext_eq]) (by simp (disch := omega) [-Bool.and_eq_false_imp, raw_nz, raw_b, vext_condF, vext_condZ hz])

theorem Encoding.vredarg (g : Guard) (d : VReg) (a : VReg) (b : VReg) (f : Fmt) (x : Option VExt) : Encoding.Statement (.vredarg g d a b f x) := by
  intro hw
  have hz : rndOf x = .rne := by simpa using wf_limit hw (rndOf x != .rne, 3) (by simp [limitsOf, vrPlain, vrCommon])
  have := fmt_code_lt f
  have := d.isLt
  have := a.isLt
  have := b.isLt
  refine syllable_ok (by decide) (by simp (disch := omega)) ?_
  have hd : ∀ x y n e, decodeVector (Raw.mk 0xA3 x y n e) = (fun r : Raw => accept [(r.n 4 0 > 9, 6), (r.x && r.extN 4 20 > 9, 6), (r.x && r.extN 3 29 != 0, 3)] (.vredarg r.g (r.f 5 14) (r.f 5 9) (r.f 5 4) (Fmt.ofCode (r.n 4 0)) r.vext)) (Raw.mk 0xA3 x y n e) := fun _ _ _ _ => rfl
  show decodeVector (syllable 0xA3 g (packVR d.toNat a.toNat b.toNat f.code) (VExt.wordOpt x)) = _
  refine (hd _ _ _ _).trans ?_
  show (fun r : Raw => accept [(r.n 4 0 > 9, 6), (r.x && r.extN 4 20 > 9, 6), (r.x && r.extN 3 29 != 0, 3)] (.vredarg r.g (r.f 5 14) (r.f 5 9) (r.f 5 4) (Fmt.ofCode (r.n 4 0)) r.vext)) (syllable 0xA3 g (packVR d.toNat a.toNat b.toNat f.code) (VExt.wordOpt x)) = _
  exact accept_ok hw (by simp (disch := omega) [raw_f, raw_b, vext_eq]) (by simp (disch := omega) [-Bool.and_eq_false_imp, raw_nz, raw_b, vext_condF, vext_condZ hz])

theorem Encoding.vscan (g : Guard) (d : VReg) (a : VReg) (b : VReg) (f : Fmt) (x : Option VExt) : Encoding.Statement (.vscan g d a b f x) := by
  intro hw
  have := fmt_code_lt f
  have := d.isLt
  have := a.isLt
  have := b.isLt
  refine syllable_ok (by decide) (by simp (disch := omega)) ?_
  have hd : ∀ x y n e, decodeVector (Raw.mk 0xA4 x y n e) = (fun r : Raw => accept [(r.n 4 0 > 9, 6), (r.x && r.extN 4 20 > 9, 6), (r.x && r.extN 3 29 > 4, 6)] (.vscan r.g (r.f 5 14) (r.f 5 9) (r.f 5 4) (Fmt.ofCode (r.n 4 0)) r.vext)) (Raw.mk 0xA4 x y n e) := fun _ _ _ _ => rfl
  show decodeVector (syllable 0xA4 g (packVR d.toNat a.toNat b.toNat f.code) (VExt.wordOpt x)) = _
  refine (hd _ _ _ _).trans ?_
  show (fun r : Raw => accept [(r.n 4 0 > 9, 6), (r.x && r.extN 4 20 > 9, 6), (r.x && r.extN 3 29 > 4, 6)] (.vscan r.g (r.f 5 14) (r.f 5 9) (r.f 5 4) (Fmt.ofCode (r.n 4 0)) r.vext)) (syllable 0xA4 g (packVR d.toNat a.toNat b.toNat f.code) (VExt.wordOpt x)) = _
  exact accept_ok hw (by simp (disch := omega) [raw_f, raw_b, vext_eq]) (by simp (disch := omega) [-Bool.and_eq_false_imp, raw_nz, raw_b, vext_condF, vext_condR])

theorem Encoding.vbcast (g : Guard) (d : VReg) (a : VReg) (b : VReg) (f : Fmt) (x : Option VExt) : Encoding.Statement (.vbcast g d a b f x) := by
  intro hw
  have hs : sfClear x = true := by simpa using wf_limit hw (!sfClear x, 3) (by simp [limitsOf, vrPlain])
  have hz : rndOf x = .rne := by simpa using wf_limit hw (rndOf x != .rne, 3) (by simp [limitsOf, vrPlain, vrCommon])
  have := fmt_code_lt f
  have := d.isLt
  have := a.isLt
  have := b.isLt
  refine syllable_ok (by decide) (by simp (disch := omega)) ?_
  have hd : ∀ x y n e, decodeVector (Raw.mk 0xB0 x y n e) = (fun r : Raw => accept [(r.n 4 0 > 9, 6), (r.x && r.extN 4 20 != 0, 3), (r.x && r.extN 3 29 != 0, 3)] (.vbcast r.g (r.f 5 14) (r.f 5 9) (r.f 5 4) (Fmt.ofCode (r.n 4 0)) r.vext)) (Raw.mk 0xB0 x y n e) := fun _ _ _ _ => rfl
  show decodeVector (syllable 0xB0 g (packVR d.toNat a.toNat b.toNat f.code) (VExt.wordOpt x)) = _
  refine (hd _ _ _ _).trans ?_
  show (fun r : Raw => accept [(r.n 4 0 > 9, 6), (r.x && r.extN 4 20 != 0, 3), (r.x && r.extN 3 29 != 0, 3)] (.vbcast r.g (r.f 5 14) (r.f 5 9) (r.f 5 4) (Fmt.ofCode (r.n 4 0)) r.vext)) (syllable 0xB0 g (packVR d.toNat a.toNat b.toNat f.code) (VExt.wordOpt x)) = _
  exact accept_ok hw (by simp (disch := omega) [raw_f, raw_b, vext_eq]) (by simp (disch := omega) [-Bool.and_eq_false_imp, raw_nz, raw_b, vext_condS hs, vext_condZ hz])

theorem Encoding.vins (g : Guard) (d : VReg) (a : VReg) (b : VReg) (f : Fmt) (x : Option VExt) : Encoding.Statement (.vins g d a b f x) := by
  intro hw
  have hs : sfClear x = true := by simpa using wf_limit hw (!sfClear x, 3) (by simp [limitsOf, vrPlain])
  have hz : rndOf x = .rne := by simpa using wf_limit hw (rndOf x != .rne, 3) (by simp [limitsOf, vrPlain, vrCommon])
  have := fmt_code_lt f
  have := d.isLt
  have := a.isLt
  have := b.isLt
  refine syllable_ok (by decide) (by simp (disch := omega)) ?_
  have hd : ∀ x y n e, decodeVector (Raw.mk 0xB1 x y n e) = (fun r : Raw => accept [(r.n 4 0 > 9, 6), (r.x && r.extN 4 20 != 0, 3), (r.x && r.extN 3 29 != 0, 3)] (.vins r.g (r.f 5 14) (r.f 5 9) (r.f 5 4) (Fmt.ofCode (r.n 4 0)) r.vext)) (Raw.mk 0xB1 x y n e) := fun _ _ _ _ => rfl
  show decodeVector (syllable 0xB1 g (packVR d.toNat a.toNat b.toNat f.code) (VExt.wordOpt x)) = _
  refine (hd _ _ _ _).trans ?_
  show (fun r : Raw => accept [(r.n 4 0 > 9, 6), (r.x && r.extN 4 20 != 0, 3), (r.x && r.extN 3 29 != 0, 3)] (.vins r.g (r.f 5 14) (r.f 5 9) (r.f 5 4) (Fmt.ofCode (r.n 4 0)) r.vext)) (syllable 0xB1 g (packVR d.toNat a.toNat b.toNat f.code) (VExt.wordOpt x)) = _
  exact accept_ok hw (by simp (disch := omega) [raw_f, raw_b, vext_eq]) (by simp (disch := omega) [-Bool.and_eq_false_imp, raw_nz, raw_b, vext_condS hs, vext_condZ hz])

theorem Encoding.vext (g : Guard) (d : VReg) (a : VReg) (b : VReg) (f : Fmt) (x : Option VExt) : Encoding.Statement (.vext g d a b f x) := by
  intro hw
  have hs : sfClear x = true := by simpa using wf_limit hw (!sfClear x, 3) (by simp [limitsOf, vrPlain])
  have hz : rndOf x = .rne := by simpa using wf_limit hw (rndOf x != .rne, 3) (by simp [limitsOf, vrPlain, vrCommon])
  have := fmt_code_lt f
  have := d.isLt
  have := a.isLt
  have := b.isLt
  refine syllable_ok (by decide) (by simp (disch := omega)) ?_
  have hd : ∀ x y n e, decodeVector (Raw.mk 0xB2 x y n e) = (fun r : Raw => accept [(r.n 4 0 > 9, 6), (r.x && r.extN 4 20 != 0, 3), (r.x && r.extN 3 29 != 0, 3)] (.vext r.g (r.f 5 14) (r.f 5 9) (r.f 5 4) (Fmt.ofCode (r.n 4 0)) r.vext)) (Raw.mk 0xB2 x y n e) := fun _ _ _ _ => rfl
  show decodeVector (syllable 0xB2 g (packVR d.toNat a.toNat b.toNat f.code) (VExt.wordOpt x)) = _
  refine (hd _ _ _ _).trans ?_
  show (fun r : Raw => accept [(r.n 4 0 > 9, 6), (r.x && r.extN 4 20 != 0, 3), (r.x && r.extN 3 29 != 0, 3)] (.vext r.g (r.f 5 14) (r.f 5 9) (r.f 5 4) (Fmt.ofCode (r.n 4 0)) r.vext)) (syllable 0xB2 g (packVR d.toNat a.toNat b.toNat f.code) (VExt.wordOpt x)) = _
  exact accept_ok hw (by simp (disch := omega) [raw_f, raw_b, vext_eq]) (by simp (disch := omega) [-Bool.and_eq_false_imp, raw_nz, raw_b, vext_condS hs, vext_condZ hz])

theorem Encoding.vperm (g : Guard) (d : VReg) (a : VReg) (b : VReg) (f : Fmt) (x : Option VExt) : Encoding.Statement (.vperm g d a b f x) := by
  intro hw
  have hs : sfClear x = true := by simpa using wf_limit hw (!sfClear x, 3) (by simp [limitsOf, vrPlain])
  have hz : rndOf x = .rne := by simpa using wf_limit hw (rndOf x != .rne, 3) (by simp [limitsOf, vrPlain, vrCommon])
  have := fmt_code_lt f
  have := d.isLt
  have := a.isLt
  have := b.isLt
  refine syllable_ok (by decide) (by simp (disch := omega)) ?_
  have hd : ∀ x y n e, decodeVector (Raw.mk 0xB3 x y n e) = (fun r : Raw => accept [(r.n 4 0 > 9, 6), (r.x && r.extN 4 20 != 0, 3), (r.x && r.extN 3 29 != 0, 3)] (.vperm r.g (r.f 5 14) (r.f 5 9) (r.f 5 4) (Fmt.ofCode (r.n 4 0)) r.vext)) (Raw.mk 0xB3 x y n e) := fun _ _ _ _ => rfl
  show decodeVector (syllable 0xB3 g (packVR d.toNat a.toNat b.toNat f.code) (VExt.wordOpt x)) = _
  refine (hd _ _ _ _).trans ?_
  show (fun r : Raw => accept [(r.n 4 0 > 9, 6), (r.x && r.extN 4 20 != 0, 3), (r.x && r.extN 3 29 != 0, 3)] (.vperm r.g (r.f 5 14) (r.f 5 9) (r.f 5 4) (Fmt.ofCode (r.n 4 0)) r.vext)) (syllable 0xB3 g (packVR d.toNat a.toNat b.toNat f.code) (VExt.wordOpt x)) = _
  exact accept_ok hw (by simp (disch := omega) [raw_f, raw_b, vext_eq]) (by simp (disch := omega) [-Bool.and_eq_false_imp, raw_nz, raw_b, vext_condS hs, vext_condZ hz])

theorem Encoding.vslide (g : Guard) (d : VReg) (a : VReg) (b : VReg) (f : Fmt) (x : Option VExt) : Encoding.Statement (.vslide g d a b f x) := by
  intro hw
  have hs : sfClear x = true := by simpa using wf_limit hw (!sfClear x, 3) (by simp [limitsOf, vrPlain])
  have hz : rndOf x = .rne := by simpa using wf_limit hw (rndOf x != .rne, 3) (by simp [limitsOf, vrPlain, vrCommon])
  have := fmt_code_lt f
  have := d.isLt
  have := a.isLt
  have := b.isLt
  refine syllable_ok (by decide) (by simp (disch := omega)) ?_
  have hd : ∀ x y n e, decodeVector (Raw.mk 0xB4 x y n e) = (fun r : Raw => accept [(r.n 4 0 > 9, 6), (r.x && r.extN 4 20 != 0, 3), (r.x && r.extN 3 29 != 0, 3)] (.vslide r.g (r.f 5 14) (r.f 5 9) (r.f 5 4) (Fmt.ofCode (r.n 4 0)) r.vext)) (Raw.mk 0xB4 x y n e) := fun _ _ _ _ => rfl
  show decodeVector (syllable 0xB4 g (packVR d.toNat a.toNat b.toNat f.code) (VExt.wordOpt x)) = _
  refine (hd _ _ _ _).trans ?_
  show (fun r : Raw => accept [(r.n 4 0 > 9, 6), (r.x && r.extN 4 20 != 0, 3), (r.x && r.extN 3 29 != 0, 3)] (.vslide r.g (r.f 5 14) (r.f 5 9) (r.f 5 4) (Fmt.ofCode (r.n 4 0)) r.vext)) (syllable 0xB4 g (packVR d.toNat a.toNat b.toNat f.code) (VExt.wordOpt x)) = _
  exact accept_ok hw (by simp (disch := omega) [raw_f, raw_b, vext_eq]) (by simp (disch := omega) [-Bool.and_eq_false_imp, raw_nz, raw_b, vext_condS hs, vext_condZ hz])

theorem Encoding.vrev (g : Guard) (d : VReg) (a : VReg) (b : VReg) (f : Fmt) (x : Option VExt) : Encoding.Statement (.vrev g d a b f x) := by
  intro hw
  have hs : sfClear x = true := by simpa using wf_limit hw (!sfClear x, 3) (by simp [limitsOf, vrPlain])
  have hz : rndOf x = .rne := by simpa using wf_limit hw (rndOf x != .rne, 3) (by simp [limitsOf, vrPlain, vrCommon])
  have := fmt_code_lt f
  have := d.isLt
  have := a.isLt
  have := b.isLt
  refine syllable_ok (by decide) (by simp (disch := omega)) ?_
  have hd : ∀ x y n e, decodeVector (Raw.mk 0xB5 x y n e) = (fun r : Raw => accept [(r.n 4 0 > 9, 6), (r.x && r.extN 4 20 != 0, 3), (r.x && r.extN 3 29 != 0, 3)] (.vrev r.g (r.f 5 14) (r.f 5 9) (r.f 5 4) (Fmt.ofCode (r.n 4 0)) r.vext)) (Raw.mk 0xB5 x y n e) := fun _ _ _ _ => rfl
  show decodeVector (syllable 0xB5 g (packVR d.toNat a.toNat b.toNat f.code) (VExt.wordOpt x)) = _
  refine (hd _ _ _ _).trans ?_
  show (fun r : Raw => accept [(r.n 4 0 > 9, 6), (r.x && r.extN 4 20 != 0, 3), (r.x && r.extN 3 29 != 0, 3)] (.vrev r.g (r.f 5 14) (r.f 5 9) (r.f 5 4) (Fmt.ofCode (r.n 4 0)) r.vext)) (syllable 0xB5 g (packVR d.toNat a.toNat b.toNat f.code) (VExt.wordOpt x)) = _
  exact accept_ok hw (by simp (disch := omega) [raw_f, raw_b, vext_eq]) (by simp (disch := omega) [-Bool.and_eq_false_imp, raw_nz, raw_b, vext_condS hs, vext_condZ hz])

theorem Encoding.mpush (g : Guard) (m : BitVec 8) (s : Bool) : Encoding.Statement (.mpush g m s) := by
  intro hw
  have := bool_lt s
  have := m.isLt
  refine syllable_ok (by decide) (by simp (disch := omega)) ?_
  have hd : ∀ x y n e, decodeMatrix (Raw.mk 0x01 x y n e) = (fun r : Raw => accept [(r.x, 4), (r.nz 8 0, 3), (r.nz 2 8, 3)] (.mpush r.g (r.f 8 11) (r.b 10))) (Raw.mk 0x01 x y n e) := fun _ _ _ _ => rfl
  show decodeMatrix (syllable 0x01 g (packMB m.toNat s.toNat 0) none) = _
  refine (hd _ _ _ _).trans ?_
  show (fun r : Raw => accept [(r.x, 4), (r.nz 8 0, 3), (r.nz 2 8, 3)] (.mpush r.g (r.f 8 11) (r.b 10))) (syllable 0x01 g (packMB m.toNat s.toNat 0) none) = _
  exact accept_ok hw (by simp (disch := omega) [raw_f, raw_b]) (by simp (disch := omega) [-Bool.and_eq_false_imp, raw_nz, raw_b])

theorem Encoding.mstep (g : Guard) (m : BitVec 8) (s : Bool) : Encoding.Statement (.mstep g m s) := by
  intro hw
  have := bool_lt s
  have := m.isLt
  refine syllable_ok (by decide) (by simp (disch := omega)) ?_
  have hd : ∀ x y n e, decodeMatrix (Raw.mk 0x02 x y n e) = (fun r : Raw => accept [(r.x, 4), (r.nz 8 0, 3), (r.nz 2 8, 3)] (.mstep r.g (r.f 8 11) (r.b 10))) (Raw.mk 0x02 x y n e) := fun _ _ _ _ => rfl
  show decodeMatrix (syllable 0x02 g (packMB m.toNat s.toNat 0) none) = _
  refine (hd _ _ _ _).trans ?_
  show (fun r : Raw => accept [(r.x, 4), (r.nz 8 0, 3), (r.nz 2 8, 3)] (.mstep r.g (r.f 8 11) (r.b 10))) (syllable 0x02 g (packMB m.toNat s.toNat 0) none) = _
  exact accept_ok hw (by simp (disch := omega) [raw_f, raw_b]) (by simp (disch := omega) [-Bool.and_eq_false_imp, raw_nz, raw_b])

theorem Encoding.macc (g : Guard) (m : BitVec 8) (s : Bool) (y : RowStep) : Encoding.Statement (.macc g m s y) := by
  intro hw
  have := bool_lt s
  have := rowStep_code_lt y
  have := m.isLt
  refine syllable_ok (by decide) (by simp (disch := omega)) ?_
  have hd : ∀ x y n e, decodeMatrix (Raw.mk 0x03 x y n e) = (fun r : Raw => accept [(r.x, 4), (r.nz 8 0, 3), (r.n 2 8 == 3, 6)] (.macc r.g (r.f 8 11) (r.b 10) (RowStep.ofCode (r.n 2 8)))) (Raw.mk 0x03 x y n e) := fun _ _ _ _ => rfl
  show decodeMatrix (syllable 0x03 g (packMB m.toNat s.toNat y.code) none) = _
  refine (hd _ _ _ _).trans ?_
  show (fun r : Raw => accept [(r.x, 4), (r.nz 8 0, 3), (r.n 2 8 == 3, 6)] (.macc r.g (r.f 8 11) (r.b 10) (RowStep.ofCode (r.n 2 8)))) (syllable 0x03 g (packMB m.toNat s.toNat y.code) none) = _
  exact accept_ok hw (by simp (disch := omega) [raw_f, raw_b]) (by simp (disch := omega) [-Bool.and_eq_false_imp, raw_nz, raw_b])

theorem Encoding.mdrain (g : Guard) (m : BitVec 8) (s : Bool) (y : RowStep) : Encoding.Statement (.mdrain g m s y) := by
  intro hw
  have := bool_lt s
  have := rowStep_code_lt y
  have := m.isLt
  refine syllable_ok (by decide) (by simp (disch := omega)) ?_
  have hd : ∀ x y n e, decodeMatrix (Raw.mk 0x04 x y n e) = (fun r : Raw => accept [(r.x, 4), (r.nz 8 0, 3), (r.n 2 8 == 3, 6)] (.mdrain r.g (r.f 8 11) (r.b 10) (RowStep.ofCode (r.n 2 8)))) (Raw.mk 0x04 x y n e) := fun _ _ _ _ => rfl
  show decodeMatrix (syllable 0x04 g (packMB m.toNat s.toNat y.code) none) = _
  refine (hd _ _ _ _).trans ?_
  show (fun r : Raw => accept [(r.x, 4), (r.nz 8 0, 3), (r.n 2 8 == 3, 6)] (.mdrain r.g (r.f 8 11) (r.b 10) (RowStep.ofCode (r.n 2 8)))) (syllable 0x04 g (packMB m.toNat s.toNat y.code) none) = _
  exact accept_ok hw (by simp (disch := omega) [raw_f, raw_b]) (by simp (disch := omega) [-Bool.and_eq_false_imp, raw_nz, raw_b])

theorem Encoding.mclr (g : Guard) (m : BitVec 8) (s : Bool) : Encoding.Statement (.mclr g m s) := by
  intro hw
  have := bool_lt s
  have := m.isLt
  refine syllable_ok (by decide) (by simp (disch := omega)) ?_
  have hd : ∀ x y n e, decodeMatrix (Raw.mk 0x05 x y n e) = (fun r : Raw => accept [(r.x, 4), (r.nz 8 0, 3), (r.nz 2 8, 3)] (.mclr r.g (r.f 8 11) (r.b 10))) (Raw.mk 0x05 x y n e) := fun _ _ _ _ => rfl
  show decodeMatrix (syllable 0x05 g (packMB m.toNat s.toNat 0) none) = _
  refine (hd _ _ _ _).trans ?_
  show (fun r : Raw => accept [(r.x, 4), (r.nz 8 0, 3), (r.nz 2 8, 3)] (.mclr r.g (r.f 8 11) (r.b 10))) (syllable 0x05 g (packMB m.toNat s.toNat 0) none) = _
  exact accept_ok hw (by simp (disch := omega) [raw_f, raw_b]) (by simp (disch := omega) [-Bool.and_eq_false_imp, raw_nz, raw_b])

theorem Encoding.mfill (g : Guard) (m : BitVec 8) (s : Bool) (y : RowStep) : Encoding.Statement (.mfill g m s y) := by
  intro hw
  have := bool_lt s
  have := rowStep_code_lt y
  have := m.isLt
  refine syllable_ok (by decide) (by simp (disch := omega)) ?_
  have hd : ∀ x y n e, decodeMatrix (Raw.mk 0x06 x y n e) = (fun r : Raw => accept [(r.x, 4), (r.nz 8 0, 3), (r.n 2 8 == 3, 6)] (.mfill r.g (r.f 8 11) (r.b 10) (RowStep.ofCode (r.n 2 8)))) (Raw.mk 0x06 x y n e) := fun _ _ _ _ => rfl
  show decodeMatrix (syllable 0x06 g (packMB m.toNat s.toNat y.code) none) = _
  refine (hd _ _ _ _).trans ?_
  show (fun r : Raw => accept [(r.x, 4), (r.nz 8 0, 3), (r.n 2 8 == 3, 6)] (.mfill r.g (r.f 8 11) (r.b 10) (RowStep.ofCode (r.n 2 8)))) (syllable 0x06 g (packMB m.toNat s.toNat y.code) none) = _
  exact accept_ok hw (by simp (disch := omega) [raw_f, raw_b]) (by simp (disch := omega) [-Bool.and_eq_false_imp, raw_nz, raw_b])

theorem Encoding.mcfg (g : Guard) (scb : CbReg) (af : Fmt) (acc : BitVec 6) (dcb : CbReg) (df : Fmt) (rnd : Rnd) : Encoding.Statement (.mcfg g scb af acc dcb df rnd) := by
  intro hw
  have := fmt_code_lt af
  have := fmt_code_lt df
  have := rnd_code_lt rnd
  have := scb.isLt
  have := acc.isLt
  have := dcb.isLt
  have : df.code ≤ 8 := by
    have hl : lowestCause (limitsOf (.mcfg g scb af acc dcb df rnd)) = none := by simpa [WellFormed] using hw
    rw [lowestCause_none] at hl
    cases df <;> first | decide | simp [limitsOf] at hl
  have : rnd.code ≤ 4 := by cases rnd <;> decide
  have h1 : (dcb.toNat * 134217728 + df.code * 8388608 + rnd.code * 1048576) % 4294967296 / 134217728 = dcb.toNat := by omega
  have h2 : (dcb.toNat * 134217728 + df.code * 8388608 + rnd.code * 1048576) % 4294967296 / 8388608 % 16 = df.code := by omega
  have h3 : (dcb.toNat * 134217728 + df.code * 8388608 + rnd.code * 1048576) % 4294967296 / 1048576 % 8 = rnd.code := by omega
  refine syllable_ok (by decide) (by simp (disch := omega)) ?_
  have hd : ∀ x y n e, decodeMatrix (Raw.mk 0x20 x y n e) = (fun r : Raw => accept [(!r.x, 5), (r.nz 4 0, 3), (r.extN 20 0 != 0, 3), (r.n 4 10 > 9, 6), (r.extN 4 23 > 8, 6), (r.extN 3 20 > 4, 6)] (.mcfg r.g (r.f 5 14) (Fmt.ofCode (r.n 4 10)) (r.f 6 4) (r.e 5 27) (Fmt.ofCode (r.extN 4 23)) (Rnd.ofCode (r.extN 3 20)))) (Raw.mk 0x20 x y n e) := fun _ _ _ _ => rfl
  show decodeMatrix (syllable 0x20 g (packMC scb.toNat af.code acc.toNat) (some (BitVec.ofNat 32 (dcb.toNat * 134217728 + df.code * 8388608 + rnd.code * 1048576)))) = _
  refine (hd _ _ _ _).trans ?_
  show (fun r : Raw => accept [(!r.x, 5), (r.nz 4 0, 3), (r.extN 20 0 != 0, 3), (r.n 4 10 > 9, 6), (r.extN 4 23 > 8, 6), (r.extN 3 20 > 4, 6)] (.mcfg r.g (r.f 5 14) (Fmt.ofCode (r.n 4 10)) (r.f 6 4) (r.e 5 27) (Fmt.ofCode (r.extN 4 23)) (Rnd.ofCode (r.extN 3 20)))) (syllable 0x20 g (packMC scb.toNat af.code acc.toNat) (some (BitVec.ofNat 32 (dcb.toNat * 134217728 + df.code * 8388608 + rnd.code * 1048576)))) = _
  exact accept_ok hw (by simp (disch := omega) [raw_f, raw_b, raw_e, extN_ofNat, h1, h2, h3]) (by simp (disch := omega) [-Bool.and_eq_false_imp, raw_nz, raw_b, extN_ofNat, h1, h2, h3] <;> omega)

theorem Encoding.mmode (g : Guard) (rank : Bool) : Encoding.Statement (.mmode g rank) := by
  intro hw
  have := bool_lt rank
  refine syllable_ok (by decide) (by simp (disch := omega)) ?_
  have hd : ∀ x y n e, decodeMatrix (Raw.mk 0x21 x y n e) = (fun r : Raw => accept [(r.x, 4), (r.nz 11 0, 3), (r.nz 7 12, 3)] (.mmode r.g (r.b 11))) (Raw.mk 0x21 x y n e) := fun _ _ _ _ => rfl
  show decodeMatrix (syllable 0x21 g (packMB rank.toNat 0 0) none) = _
  refine (hd _ _ _ _).trans ?_
  show (fun r : Raw => accept [(r.x, 4), (r.nz 11 0, 3), (r.nz 7 12, 3)] (.mmode r.g (r.b 11))) (syllable 0x21 g (packMB rank.toNat 0 0) none) = _
  exact accept_ok hw (by simp (disch := omega) [raw_f, raw_b]) (by simp (disch := omega) [-Bool.and_eq_false_imp, raw_nz, raw_b, Bool.toNat_le])

theorem Encoding.mrowReg (g : Guard) (a : SReg) : Encoding.Statement (.mrowReg g a) := by
  intro hw
  have := a.isLt
  refine syllable_ok (by decide) (by simp (disch := omega)) ?_
  have hd : ∀ x y n e, decodeMatrix (Raw.mk 0x22 x y n e) = (fun r : Raw => if r.b 10 then accept [(r.x, 4), (r.nz 10 0, 3)] (.mrowImm r.g (r.f 8 11)) else accept [(r.x, 4), (r.nz 10 0, 3), (r.nz 2 17, 3)] (.mrowReg r.g (r.f 6 11))) (Raw.mk 0x22 x y n e) := fun _ _ _ _ => rfl
  show decodeMatrix (syllable 0x22 g (packMB a.toNat 0 0) none) = _
  refine (hd _ _ _ _).trans ?_
  show (fun r : Raw => if r.b 10 then accept [(r.x, 4), (r.nz 10 0, 3)] (.mrowImm r.g (r.f 8 11)) else accept [(r.x, 4), (r.nz 10 0, 3), (r.nz 2 17, 3)] (.mrowReg r.g (r.f 6 11))) (syllable 0x22 g (packMB a.toNat 0 0) none) = _
  refine (if_neg (by simp (disch := omega) [raw_b])).trans ?_
  exact accept_ok hw (by simp (disch := omega) [raw_f, raw_b]) (by simp (disch := omega) [-Bool.and_eq_false_imp, raw_nz, raw_b] <;> omega)

theorem Encoding.mrowImm (g : Guard) (k : BitVec 8) : Encoding.Statement (.mrowImm g k) := by
  intro hw
  have := k.isLt
  refine syllable_ok (by decide) (by simp (disch := omega)) ?_
  have hd : ∀ x y n e, decodeMatrix (Raw.mk 0x22 x y n e) = (fun r : Raw => if r.b 10 then accept [(r.x, 4), (r.nz 10 0, 3)] (.mrowImm r.g (r.f 8 11)) else accept [(r.x, 4), (r.nz 10 0, 3), (r.nz 2 17, 3)] (.mrowReg r.g (r.f 6 11))) (Raw.mk 0x22 x y n e) := fun _ _ _ _ => rfl
  show decodeMatrix (syllable 0x22 g (packMB k.toNat 1 0) none) = _
  refine (hd _ _ _ _).trans ?_
  show (fun r : Raw => if r.b 10 then accept [(r.x, 4), (r.nz 10 0, 3)] (.mrowImm r.g (r.f 8 11)) else accept [(r.x, 4), (r.nz 10 0, 3), (r.nz 2 17, 3)] (.mrowReg r.g (r.f 6 11))) (syllable 0x22 g (packMB k.toNat 1 0) none) = _
  refine (if_pos (by simp (disch := omega) [raw_b])).trans ?_
  exact accept_ok hw (by simp (disch := omega) [raw_f, raw_b]) (by simp (disch := omega) [-Bool.and_eq_false_imp, raw_nz, raw_b])

theorem Encoding.tbind (g : Guard) (t : TbReg) (h : HReg) (o : SReg) (excl : Bool) : Encoding.Statement (.tbind g t h o excl) := by
  intro hw
  have := bool_lt excl
  have := t.isLt
  have := h.isLt
  have := o.isLt
  refine syllable_ok (by decide) (by simp (disch := omega)) ?_
  have hd : ∀ x y n e, decodeMatrix (Raw.mk 0x40 x y n e) = (fun r : Raw => accept [(r.x, 4), (r.nz 4 1, 6)] (.tbind r.g (r.f 4 15) (r.f 4 11) (r.f 6 5) (r.b 0))) (Raw.mk 0x40 x y n e) := fun _ _ _ _ => rfl
  show decodeMatrix (syllable 0x40 g (packTB t.toNat h.toNat o.toNat excl.toNat) none) = _
  refine (hd _ _ _ _).trans ?_
  show (fun r : Raw => accept [(r.x, 4), (r.nz 4 1, 6)] (.tbind r.g (r.f 4 15) (r.f 4 11) (r.f 6 5) (r.b 0))) (syllable 0x40 g (packTB t.toNat h.toNat o.toNat excl.toNat) none) = _
  exact accept_ok hw (by simp (disch := omega) [raw_f, raw_b]) (by simp (disch := omega) [-Bool.and_eq_false_imp, raw_nz, raw_b, Bool.toNat_le])

theorem Encoding.tunbind (g : Guard) (t : TbReg) : Encoding.Statement (.tunbind g t) := by
  intro hw
  have := t.isLt
  refine syllable_ok (by decide) (by simp (disch := omega)) ?_
  have hd : ∀ x y n e, decodeMatrix (Raw.mk 0x41 x y n e) = (fun r : Raw => accept [(r.x, 4), (r.nz 15 0, 3)] (.tunbind r.g (r.f 4 15))) (Raw.mk 0x41 x y n e) := fun _ _ _ _ => rfl
  show decodeMatrix (syllable 0x41 g (packTB t.toNat 0 0 0) none) = _
  refine (hd _ _ _ _).trans ?_
  show (fun r : Raw => accept [(r.x, 4), (r.nz 15 0, 3)] (.tunbind r.g (r.f 4 15))) (syllable 0x41 g (packTB t.toNat 0 0 0) none) = _
  exact accept_ok hw (by simp (disch := omega) [raw_f, raw_b]) (by simp (disch := omega) [-Bool.and_eq_false_imp, raw_nz, raw_b])

theorem Encoding.tpin (g : Guard) (t : TbReg) : Encoding.Statement (.tpin g t) := by
  intro hw
  have := t.isLt
  refine syllable_ok (by decide) (by simp (disch := omega)) ?_
  have hd : ∀ x y n e, decodeMatrix (Raw.mk 0x42 x y n e) = (fun r : Raw => accept [(r.x, 4), (r.nz 15 0, 3)] (.tpin r.g (r.f 4 15))) (Raw.mk 0x42 x y n e) := fun _ _ _ _ => rfl
  show decodeMatrix (syllable 0x42 g (packTB t.toNat 0 0 0) none) = _
  refine (hd _ _ _ _).trans ?_
  show (fun r : Raw => accept [(r.x, 4), (r.nz 15 0, 3)] (.tpin r.g (r.f 4 15))) (syllable 0x42 g (packTB t.toNat 0 0 0) none) = _
  exact accept_ok hw (by simp (disch := omega) [raw_f, raw_b]) (by simp (disch := omega) [-Bool.and_eq_false_imp, raw_nz, raw_b])

theorem Encoding.tunpin (g : Guard) (t : TbReg) : Encoding.Statement (.tunpin g t) := by
  intro hw
  have := t.isLt
  refine syllable_ok (by decide) (by simp (disch := omega)) ?_
  have hd : ∀ x y n e, decodeMatrix (Raw.mk 0x43 x y n e) = (fun r : Raw => accept [(r.x, 4), (r.nz 15 0, 3)] (.tunpin r.g (r.f 4 15))) (Raw.mk 0x43 x y n e) := fun _ _ _ _ => rfl
  show decodeMatrix (syllable 0x43 g (packTB t.toNat 0 0 0) none) = _
  refine (hd _ _ _ _).trans ?_
  show (fun r : Raw => accept [(r.x, 4), (r.nz 15 0, 3)] (.tunpin r.g (r.f 4 15))) (syllable 0x43 g (packTB t.toNat 0 0 0) none) = _
  exact accept_ok hw (by simp (disch := omega) [raw_f, raw_b]) (by simp (disch := omega) [-Bool.and_eq_false_imp, raw_nz, raw_b])

theorem Encoding.tpf (g : Guard) (h : HReg) (o : SReg) : Encoding.Statement (.tpf g h o) := by
  intro hw
  have := h.isLt
  have := o.isLt
  refine syllable_ok (by decide) (by simp (disch := omega)) ?_
  have hd : ∀ x y n e, decodeMatrix (Raw.mk 0x44 x y n e) = (fun r : Raw => accept [(r.x, 4), (r.nz 4 15, 3), (r.nz 5 0, 3)] (.tpf r.g (r.f 4 11) (r.f 6 5))) (Raw.mk 0x44 x y n e) := fun _ _ _ _ => rfl
  show decodeMatrix (syllable 0x44 g (packTB 0 h.toNat o.toNat 0) none) = _
  refine (hd _ _ _ _).trans ?_
  show (fun r : Raw => accept [(r.x, 4), (r.nz 4 15, 3), (r.nz 5 0, 3)] (.tpf r.g (r.f 4 11) (r.f 6 5))) (syllable 0x44 g (packTB 0 h.toNat o.toNat 0) none) = _
  exact accept_ok hw (by simp (disch := omega) [raw_f, raw_b]) (by simp (disch := omega) [-Bool.and_eq_false_imp, raw_nz, raw_b])

theorem Encoding.tinvAddr (g : Guard) (h : HReg) (o : SReg) : Encoding.Statement (.tinvAddr g h o) := by
  intro hw
  have := h.isLt
  have := o.isLt
  refine syllable_ok (by decide) (by simp (disch := omega)) ?_
  have hd : ∀ x y n e, decodeMatrix (Raw.mk 0x45 x y n e) = (fun r : Raw => if r.n 5 0 == 1 then accept [(r.x, 4), (r.nz 10 5, 3)] (.tinvBinding r.g (r.f 4 15)) else accept [(r.x, 4), (r.n 5 0 == 0 && r.nz 4 15, 3), (r.n 5 0 > 1, 6)] (.tinvAddr r.g (r.f 4 11) (r.f 6 5))) (Raw.mk 0x45 x y n e) := fun _ _ _ _ => rfl
  show decodeMatrix (syllable 0x45 g (packTB 0 h.toNat o.toNat 0) none) = _
  refine (hd _ _ _ _).trans ?_
  show (fun r : Raw => if r.n 5 0 == 1 then accept [(r.x, 4), (r.nz 10 5, 3)] (.tinvBinding r.g (r.f 4 15)) else accept [(r.x, 4), (r.n 5 0 == 0 && r.nz 4 15, 3), (r.n 5 0 > 1, 6)] (.tinvAddr r.g (r.f 4 11) (r.f 6 5))) (syllable 0x45 g (packTB 0 h.toNat o.toNat 0) none) = _
  refine (if_neg (by simp (disch := omega) [raw_b])).trans ?_
  exact accept_ok hw (by simp (disch := omega) [raw_f, raw_b]) (by simp (disch := omega) [-Bool.and_eq_false_imp, raw_nz, raw_b])

theorem Encoding.tinvBinding (g : Guard) (t : TbReg) : Encoding.Statement (.tinvBinding g t) := by
  intro hw
  have := t.isLt
  refine syllable_ok (by decide) (by simp (disch := omega)) ?_
  have hd : ∀ x y n e, decodeMatrix (Raw.mk 0x45 x y n e) = (fun r : Raw => if r.n 5 0 == 1 then accept [(r.x, 4), (r.nz 10 5, 3)] (.tinvBinding r.g (r.f 4 15)) else accept [(r.x, 4), (r.n 5 0 == 0 && r.nz 4 15, 3), (r.n 5 0 > 1, 6)] (.tinvAddr r.g (r.f 4 11) (r.f 6 5))) (Raw.mk 0x45 x y n e) := fun _ _ _ _ => rfl
  show decodeMatrix (syllable 0x45 g (packTB t.toNat 0 0 1) none) = _
  refine (hd _ _ _ _).trans ?_
  show (fun r : Raw => if r.n 5 0 == 1 then accept [(r.x, 4), (r.nz 10 5, 3)] (.tinvBinding r.g (r.f 4 15)) else accept [(r.x, 4), (r.n 5 0 == 0 && r.nz 4 15, 3), (r.n 5 0 > 1, 6)] (.tinvAddr r.g (r.f 4 11) (r.f 6 5))) (syllable 0x45 g (packTB t.toNat 0 0 1) none) = _
  refine (if_pos (by simp (disch := omega) [raw_b])).trans ?_
  exact accept_ok hw (by simp (disch := omega) [raw_f, raw_b]) (by simp (disch := omega) [-Bool.and_eq_false_imp, raw_nz, raw_b])

theorem Encoding.twst (g : Guard) (t : TbReg) (o : SReg) (v : BitVec 8) : Encoding.Statement (.twst g t o v) := by
  intro hw
  have := t.isLt
  have := o.isLt
  have := v.isLt
  refine syllable_ok (by decide) (by simp (disch := omega)) ?_
  have hd : ∀ x y n e, decodeMatrix (Raw.mk 0x46 x y n e) = (fun r : Raw => if r.n 5 0 == 1 then accept [(!r.x, 5), (r.nz 4 11, 3), (r.extN 27 5 != 0, 3)] (.twstRow r.g (r.f 4 15) (r.f 6 5) (r.e 5 0)) else accept [(r.n 5 0 > 1, 6), (!r.x, 5), (r.nz 4 11, 3), (r.extN 24 8 != 0, 3)] (.twst r.g (r.f 4 15) (r.f 6 5) (r.e 8 0))) (Raw.mk 0x46 x y n e) := fun _ _ _ _ => rfl
  show decodeMatrix (syllable 0x46 g (packTB t.toNat 0 o.toNat 0) (some (BitVec.ofNat 32 v.toNat))) = _
  refine (hd _ _ _ _).trans ?_
  show (fun r : Raw => if r.n 5 0 == 1 then accept [(!r.x, 5), (r.nz 4 11, 3), (r.extN 27 5 != 0, 3)] (.twstRow r.g (r.f 4 15) (r.f 6 5) (r.e 5 0)) else accept [(r.n 5 0 > 1, 6), (!r.x, 5), (r.nz 4 11, 3), (r.extN 24 8 != 0, 3)] (.twst r.g (r.f 4 15) (r.f 6 5) (r.e 8 0))) (syllable 0x46 g (packTB t.toNat 0 o.toNat 0) (some (BitVec.ofNat 32 v.toNat))) = _
  refine (if_neg (by simp (disch := omega) [raw_b])).trans ?_
  exact accept_ok hw (by simp (disch := omega) [raw_f, raw_b, raw_e, extN_ofNat, -BitVec.ofNat_toNat, bv_self]) (by simp (disch := omega) [-Bool.and_eq_false_imp, raw_nz, raw_b, extN_ofNat, -BitVec.ofNat_toNat] <;> omega)

theorem Encoding.twstRow (g : Guard) (t : TbReg) (o : SReg) (n : CbReg) : Encoding.Statement (.twstRow g t o n) := by
  intro hw
  have := t.isLt
  have := o.isLt
  have := n.isLt
  refine syllable_ok (by decide) (by simp (disch := omega)) ?_
  have hd : ∀ x y n e, decodeMatrix (Raw.mk 0x46 x y n e) = (fun r : Raw => if r.n 5 0 == 1 then accept [(!r.x, 5), (r.nz 4 11, 3), (r.extN 27 5 != 0, 3)] (.twstRow r.g (r.f 4 15) (r.f 6 5) (r.e 5 0)) else accept [(r.n 5 0 > 1, 6), (!r.x, 5), (r.nz 4 11, 3), (r.extN 24 8 != 0, 3)] (.twst r.g (r.f 4 15) (r.f 6 5) (r.e 8 0))) (Raw.mk 0x46 x y n e) := fun _ _ _ _ => rfl
  show decodeMatrix (syllable 0x46 g (packTB t.toNat 0 o.toNat 1) (some (BitVec.ofNat 32 n.toNat))) = _
  refine (hd _ _ _ _).trans ?_
  show (fun r : Raw => if r.n 5 0 == 1 then accept [(!r.x, 5), (r.nz 4 11, 3), (r.extN 27 5 != 0, 3)] (.twstRow r.g (r.f 4 15) (r.f 6 5) (r.e 5 0)) else accept [(r.n 5 0 > 1, 6), (!r.x, 5), (r.nz 4 11, 3), (r.extN 24 8 != 0, 3)] (.twst r.g (r.f 4 15) (r.f 6 5) (r.e 8 0))) (syllable 0x46 g (packTB t.toNat 0 o.toNat 1) (some (BitVec.ofNat 32 n.toNat))) = _
  refine (if_pos (by simp (disch := omega) [raw_b])).trans ?_
  exact accept_ok hw (by simp (disch := omega) [raw_f, raw_b, raw_e, extN_ofNat, -BitVec.ofNat_toNat, bv_self]) (by simp (disch := omega) [-Bool.and_eq_false_imp, raw_nz, raw_b, extN_ofNat, -BitVec.ofNat_toNat] <;> omega)

theorem Encoding.tstat (g : Guard) (t : TbReg) (d : SReg) : Encoding.Statement (.tstat g t d) := by
  intro hw
  have := t.isLt
  have := d.isLt
  refine syllable_ok (by decide) (by simp (disch := omega)) ?_
  have hd : ∀ x y n e, decodeMatrix (Raw.mk 0x47 x y n e) = (fun r : Raw => accept [(r.x, 4), (r.nz 4 11, 3), (r.nz 5 0, 3)] (.tstat r.g (r.f 4 15) (r.f 6 5))) (Raw.mk 0x47 x y n e) := fun _ _ _ _ => rfl
  show decodeMatrix (syllable 0x47 g (packTB t.toNat 0 d.toNat 0) none) = _
  refine (hd _ _ _ _).trans ?_
  show (fun r : Raw => accept [(r.x, 4), (r.nz 4 11, 3), (r.nz 5 0, 3)] (.tstat r.g (r.f 4 15) (r.f 6 5))) (syllable 0x47 g (packTB t.toNat 0 d.toNat 0) none) = _
  exact accept_ok hw (by simp (disch := omega) [raw_f, raw_b]) (by simp (disch := omega) [-Bool.and_eq_false_imp, raw_nz, raw_b])

theorem Encoding.cpy (g : Guard) (t : TlReg) (a : SReg) (b : SReg) (fill : Bool) (x : Option W32) : Encoding.Statement (.cpy g t a b fill x) := by
  intro hw
  have := bool_lt fill
  have := t.isLt
  have := a.isLt
  have := b.isLt
  refine syllable_ok (by decide) (by simp (disch := omega)) ?_
  have hd : ∀ x y n e, decodeEngine (Raw.mk 0x01 x y n e) = (fun r : Raw => accept [(r.nz 2 1, 6)] (.cpy r.g (r.f 4 15) (r.f 6 9) (r.f 6 3) (r.b 0) r.extOpt)) (Raw.mk 0x01 x y n e) := fun _ _ _ _ => rfl
  show decodeEngine (syllable 0x01 g (packEN t.toNat a.toNat b.toNat fill.toNat) x) = _
  refine (hd _ _ _ _).trans ?_
  show (fun r : Raw => accept [(r.nz 2 1, 6)] (.cpy r.g (r.f 4 15) (r.f 6 9) (r.f 6 3) (r.b 0) r.extOpt)) (syllable 0x01 g (packEN t.toNat a.toNat b.toNat fill.toNat) x) = _
  exact accept_ok hw (by simp (disch := omega) [raw_f, raw_b, extOpt_eq]) (by simp (disch := omega) [-Bool.and_eq_false_imp, raw_nz, raw_b, Bool.toNat_le])

theorem Encoding.cpy2 (g : Guard) (t : TlReg) (a : SReg) : Encoding.Statement (.cpy2 g t a) := by
  intro hw
  have := t.isLt
  have := a.isLt
  refine syllable_ok (by decide) (by simp (disch := omega)) ?_
  have hd : ∀ x y n e, decodeEngine (Raw.mk 0x02 x y n e) = (fun r : Raw => accept [(r.x, 4), (r.nz 9 0, 3)] (.cpy2 r.g (r.f 4 15) (r.f 6 9))) (Raw.mk 0x02 x y n e) := fun _ _ _ _ => rfl
  show decodeEngine (syllable 0x02 g (packEN t.toNat a.toNat 0 0) none) = _
  refine (hd _ _ _ _).trans ?_
  show (fun r : Raw => accept [(r.x, 4), (r.nz 9 0, 3)] (.cpy2 r.g (r.f 4 15) (r.f 6 9))) (syllable 0x02 g (packEN t.toNat a.toNat 0 0) none) = _
  exact accept_ok hw (by simp (disch := omega) [raw_f, raw_b]) (by simp (disch := omega) [-Bool.and_eq_false_imp, raw_nz, raw_b])

theorem Encoding.gath (g : Guard) (t : TlReg) (a : SReg) (b : SReg) (k : BitVec 3) (x : Option W32) : Encoding.Statement (.gath g t a b k x) := by
  intro hw
  have := t.isLt
  have := a.isLt
  have := b.isLt
  have := k.isLt
  refine syllable_ok (by decide) (by simp (disch := omega)) ?_
  have hd : ∀ x y n e, decodeEngine (Raw.mk 0x03 x y n e) = (fun r : Raw => accept [] (.gath r.g (r.f 4 15) (r.f 6 9) (r.f 6 3) (r.f 3 0) r.extOpt)) (Raw.mk 0x03 x y n e) := fun _ _ _ _ => rfl
  show decodeEngine (syllable 0x03 g (packEN t.toNat a.toNat b.toNat k.toNat) x) = _
  refine (hd _ _ _ _).trans ?_
  show (fun r : Raw => accept [] (.gath r.g (r.f 4 15) (r.f 6 9) (r.f 6 3) (r.f 3 0) r.extOpt)) (syllable 0x03 g (packEN t.toNat a.toNat b.toNat k.toNat) x) = _
  exact accept_ok hw (by simp (disch := omega) [raw_f, raw_b, extOpt_eq]) (by simp (disch := omega) [-Bool.and_eq_false_imp, raw_nz, raw_b])

theorem Encoding.scat (g : Guard) (t : TlReg) (a : SReg) (b : SReg) (k : BitVec 3) (x : Option W32) : Encoding.Statement (.scat g t a b k x) := by
  intro hw
  have := t.isLt
  have := a.isLt
  have := b.isLt
  have := k.isLt
  refine syllable_ok (by decide) (by simp (disch := omega)) ?_
  have hd : ∀ x y n e, decodeEngine (Raw.mk 0x04 x y n e) = (fun r : Raw => accept [] (.scat r.g (r.f 4 15) (r.f 6 9) (r.f 6 3) (r.f 3 0) r.extOpt)) (Raw.mk 0x04 x y n e) := fun _ _ _ _ => rfl
  show decodeEngine (syllable 0x04 g (packEN t.toNat a.toNat b.toNat k.toNat) x) = _
  refine (hd _ _ _ _).trans ?_
  show (fun r : Raw => accept [] (.scat r.g (r.f 4 15) (r.f 6 9) (r.f 6 3) (r.f 3 0) r.extOpt)) (syllable 0x04 g (packEN t.toNat a.toNat b.toNat k.toNat) x) = _
  exact accept_ok hw (by simp (disch := omega) [raw_f, raw_b, extOpt_eq]) (by simp (disch := omega) [-Bool.and_eq_false_imp, raw_nz, raw_b])

theorem Encoding.kvw (g : Guard) (t : TlReg) (a : SReg) (x : Option W32) : Encoding.Statement (.kvw g t a x) := by
  intro hw
  have := t.isLt
  have := a.isLt
  refine syllable_ok (by decide) (by simp (disch := omega)) ?_
  have hd : ∀ x y n e, decodeEngine (Raw.mk 0x05 x y n e) = (fun r : Raw => accept [(r.nz 9 0, 3)] (.kvw r.g (r.f 4 15) (r.f 6 9) r.extOpt)) (Raw.mk 0x05 x y n e) := fun _ _ _ _ => rfl
  show decodeEngine (syllable 0x05 g (packEN t.toNat a.toNat 0 0) x) = _
  refine (hd _ _ _ _).trans ?_
  show (fun r : Raw => accept [(r.nz 9 0, 3)] (.kvw r.g (r.f 4 15) (r.f 6 9) r.extOpt)) (syllable 0x05 g (packEN t.toNat a.toNat 0 0) x) = _
  exact accept_ok hw (by simp (disch := omega) [raw_f, raw_b, extOpt_eq]) (by simp (disch := omega) [-Bool.and_eq_false_imp, raw_nz, raw_b])

theorem Encoding.cpyr (g : Guard) (t : TlReg) (a : SReg) : Encoding.Statement (.cpyr g t a) := by
  intro hw
  have := t.isLt
  have := a.isLt
  refine syllable_ok (by decide) (by simp (disch := omega)) ?_
  have hd : ∀ x y n e, decodeEngine (Raw.mk 0x06 x y n e) = (fun r : Raw => accept [(r.x, 4), (r.nz 9 0, 3)] (.cpyr r.g (r.f 4 15) (r.f 6 9))) (Raw.mk 0x06 x y n e) := fun _ _ _ _ => rfl
  show decodeEngine (syllable 0x06 g (packEN t.toNat a.toNat 0 0) none) = _
  refine (hd _ _ _ _).trans ?_
  show (fun r : Raw => accept [(r.x, 4), (r.nz 9 0, 3)] (.cpyr r.g (r.f 4 15) (r.f 6 9))) (syllable 0x06 g (packEN t.toNat a.toNat 0 0) none) = _
  exact accept_ok hw (by simp (disch := omega) [raw_f, raw_b]) (by simp (disch := omega) [-Bool.and_eq_false_imp, raw_nz, raw_b])

theorem Encoding.cred (g : Guard) (t : TlReg) (a : SReg) : Encoding.Statement (.cred g t a) := by
  intro hw
  have := t.isLt
  have := a.isLt
  refine syllable_ok (by decide) (by simp (disch := omega)) ?_
  have hd : ∀ x y n e, decodeEngine (Raw.mk 0x40 x y n e) = (fun r : Raw => accept [(r.x, 4), (r.nz 9 0, 3)] (.cred r.g (r.f 4 15) (r.f 6 9))) (Raw.mk 0x40 x y n e) := fun _ _ _ _ => rfl
  show decodeEngine (syllable 0x40 g (packEN t.toNat a.toNat 0 0) none) = _
  refine (hd _ _ _ _).trans ?_
  show (fun r : Raw => accept [(r.x, 4), (r.nz 9 0, 3)] (.cred r.g (r.f 4 15) (r.f 6 9))) (syllable 0x40 g (packEN t.toNat a.toNat 0 0) none) = _
  exact accept_ok hw (by simp (disch := omega) [raw_f, raw_b]) (by simp (disch := omega) [-Bool.and_eq_false_imp, raw_nz, raw_b])

theorem Encoding.cgath (g : Guard) (t : TlReg) (a : SReg) : Encoding.Statement (.cgath g t a) := by
  intro hw
  have := t.isLt
  have := a.isLt
  refine syllable_ok (by decide) (by simp (disch := omega)) ?_
  have hd : ∀ x y n e, decodeEngine (Raw.mk 0x41 x y n e) = (fun r : Raw => accept [(r.x, 4), (r.nz 9 0, 3)] (.cgath r.g (r.f 4 15) (r.f 6 9))) (Raw.mk 0x41 x y n e) := fun _ _ _ _ => rfl
  show decodeEngine (syllable 0x41 g (packEN t.toNat a.toNat 0 0) none) = _
  refine (hd _ _ _ _).trans ?_
  show (fun r : Raw => accept [(r.x, 4), (r.nz 9 0, 3)] (.cgath r.g (r.f 4 15) (r.f 6 9))) (syllable 0x41 g (packEN t.toNat a.toNat 0 0) none) = _
  exact accept_ok hw (by simp (disch := omega) [raw_f, raw_b]) (by simp (disch := omega) [-Bool.and_eq_false_imp, raw_nz, raw_b])

theorem Encoding.bul (g : Guard) (t : TlReg) (a : SReg) (dup : Bool) (x : Option (BitVec 8)) : Encoding.Statement (.bul g t a dup x) := by
  intro hw
  have := bool_lt dup
  have := t.isLt
  have := a.isLt
  refine syllable_ok (by decide) (by simp (disch := omega)) ?_
  have hd : ∀ x y n e, decodeEngine (Raw.mk 0xA0 x y n e) = (fun r : Raw => accept [(r.nz 2 1, 6), (r.nz 6 3, 3), (r.x && r.extN 24 8 != 0, 3)] (.bul r.g (r.f 4 15) (r.f 6 9) (r.b 0) (r.extOpt8))) (Raw.mk 0xA0 x y n e) := fun _ _ _ _ => rfl
  show decodeEngine (syllable 0xA0 g (packEN t.toNat a.toNat 0 dup.toNat) (x.map (fun c => BitVec.ofNat 32 c.toNat))) = _
  refine (hd _ _ _ _).trans ?_
  show (fun r : Raw => accept [(r.nz 2 1, 6), (r.nz 6 3, 3), (r.x && r.extN 24 8 != 0, 3)] (.bul r.g (r.f 4 15) (r.f 6 9) (r.b 0) (r.extOpt8))) (syllable 0xA0 g (packEN t.toNat a.toNat 0 dup.toNat) (x.map (fun c => BitVec.ofNat 32 c.toNat))) = _
  exact accept_ok hw (by simp (disch := omega) [raw_f, raw_b, extOpt8_eq, raw_e, extN_ofNat, -BitVec.ofNat_toNat, bv_self]) (by simp (disch := omega) [-Bool.and_eq_false_imp, raw_nz, raw_b, Bool.toNat_le, extOpt8_cond, extN_ofNat, -BitVec.ofNat_toNat])

theorem Encoding.tlwait (g : Guard) (t : TlReg) (a : SReg) (q : PReg) : Encoding.Statement (.tlwait g t a q) := by
  intro hw
  have := t.isLt
  have := a.isLt
  have := q.isLt
  refine syllable_ok (by decide) (by simp (disch := omega)) ?_
  have hd : ∀ x y n e, decodeEngine (Raw.mk 0x60 x y n e) = (fun r : Raw => accept [(r.x, 4), (r.nz 6 3, 3)] (.tlwait r.g (r.f 4 15) (r.f 6 9) (r.f 3 0))) (Raw.mk 0x60 x y n e) := fun _ _ _ _ => rfl
  show decodeEngine (syllable 0x60 g (packEN t.toNat a.toNat 0 q.toNat) none) = _
  refine (hd _ _ _ _).trans ?_
  show (fun r : Raw => accept [(r.x, 4), (r.nz 6 3, 3)] (.tlwait r.g (r.f 4 15) (r.f 6 9) (r.f 3 0))) (syllable 0x60 g (packEN t.toNat a.toNat 0 q.toNat) none) = _
  exact accept_ok hw (by simp (disch := omega) [raw_f, raw_b]) (by simp (disch := omega) [-Bool.and_eq_false_imp, raw_nz, raw_b])

theorem Encoding.tlget (g : Guard) (t : TlReg) (d : SReg) (sel : TlSel) : Encoding.Statement (.tlget g t d sel) := by
  intro hw
  have := tlSel_code_lt sel
  have := t.isLt
  have := d.isLt
  have : sel.code ≤ 2 := by cases sel <;> decide
  refine syllable_ok (by decide) (by simp (disch := omega)) ?_
  have hd : ∀ x y n e, decodeEngine (Raw.mk 0x61 x y n e) = (fun r : Raw => accept [(r.x, 4), (r.nz 6 3, 3), (r.n 3 0 > 2, 6)] (.tlget r.g (r.f 4 15) (r.f 6 9) (TlSel.ofCode (r.n 3 0)))) (Raw.mk 0x61 x y n e) := fun _ _ _ _ => rfl
  show decodeEngine (syllable 0x61 g (packEN t.toNat d.toNat 0 sel.code) none) = _
  refine (hd _ _ _ _).trans ?_
  show (fun r : Raw => accept [(r.x, 4), (r.nz 6 3, 3), (r.n 3 0 > 2, 6)] (.tlget r.g (r.f 4 15) (r.f 6 9) (TlSel.ofCode (r.n 3 0)))) (syllable 0x61 g (packEN t.toNat d.toNat 0 sel.code) none) = _
  exact accept_ok hw (by simp (disch := omega) [raw_f, raw_b]) (by simp (disch := omega) [-Bool.and_eq_false_imp, raw_nz, raw_b] <;> omega)

theorem Encoding.tlsig (g : Guard) (t : TlReg) (a : SReg) : Encoding.Statement (.tlsig g t a) := by
  intro hw
  have := t.isLt
  have := a.isLt
  refine syllable_ok (by decide) (by simp (disch := omega)) ?_
  have hd : ∀ x y n e, decodeEngine (Raw.mk 0x62 x y n e) = (fun r : Raw => accept [(r.x, 4), (r.nz 9 0, 3)] (.tlsig r.g (r.f 4 15) (r.f 6 9))) (Raw.mk 0x62 x y n e) := fun _ _ _ _ => rfl
  show decodeEngine (syllable 0x62 g (packEN t.toNat a.toNat 0 0) none) = _
  refine (hd _ _ _ _).trans ?_
  show (fun r : Raw => accept [(r.x, 4), (r.nz 9 0, 3)] (.tlsig r.g (r.f 4 15) (r.f 6 9))) (syllable 0x62 g (packEN t.toNat a.toNat 0 0) none) = _
  exact accept_ok hw (by simp (disch := omega) [raw_f, raw_b]) (by simp (disch := omega) [-Bool.and_eq_false_imp, raw_nz, raw_b])

theorem Encoding.gjoin (g : Guard) (a : SReg) (b : SReg) : Encoding.Statement (.gjoin g a b) := by
  intro hw
  have := a.isLt
  have := b.isLt
  refine syllable_ok (by decide) (by simp (disch := omega)) ?_
  have hd : ∀ x y n e, decodeEngine (Raw.mk 0x80 x y n e) = (fun r : Raw => accept [(r.x, 4), (r.nz 4 15, 3), (r.nz 3 0, 3)] (.gjoin r.g (r.f 6 9) (r.f 6 3))) (Raw.mk 0x80 x y n e) := fun _ _ _ _ => rfl
  show decodeEngine (syllable 0x80 g (packEN 0 a.toNat b.toNat 0) none) = _
  refine (hd _ _ _ _).trans ?_
  show (fun r : Raw => accept [(r.x, 4), (r.nz 4 15, 3), (r.nz 3 0, 3)] (.gjoin r.g (r.f 6 9) (r.f 6 3))) (syllable 0x80 g (packEN 0 a.toNat b.toNat 0) none) = _
  exact accept_ok hw (by simp (disch := omega) [raw_f, raw_b]) (by simp (disch := omega) [-Bool.and_eq_false_imp, raw_nz, raw_b])

theorem Encoding.gleave (g : Guard) (a : SReg) : Encoding.Statement (.gleave g a) := by
  intro hw
  have := a.isLt
  refine syllable_ok (by decide) (by simp (disch := omega)) ?_
  have hd : ∀ x y n e, decodeEngine (Raw.mk 0x81 x y n e) = (fun r : Raw => accept [(r.x, 4), (r.nz 4 15, 3), (r.nz 9 0, 3)] (.gleave r.g (r.f 6 9))) (Raw.mk 0x81 x y n e) := fun _ _ _ _ => rfl
  show decodeEngine (syllable 0x81 g (packEN 0 a.toNat 0 0) none) = _
  refine (hd _ _ _ _).trans ?_
  show (fun r : Raw => accept [(r.x, 4), (r.nz 4 15, 3), (r.nz 9 0, 3)] (.gleave r.g (r.f 6 9))) (syllable 0x81 g (packEN 0 a.toNat 0 0) none) = _
  exact accept_ok hw (by simp (disch := omega) [raw_f, raw_b]) (by simp (disch := omega) [-Bool.and_eq_false_imp, raw_nz, raw_b])

theorem Encoding.gbar (g : Guard) (a : SReg) (q : PReg) : Encoding.Statement (.gbar g a q) := by
  intro hw
  have := a.isLt
  have := q.isLt
  refine syllable_ok (by decide) (by simp (disch := omega)) ?_
  have hd : ∀ x y n e, decodeEngine (Raw.mk 0x82 x y n e) = (fun r : Raw => accept [(r.x, 4), (r.nz 4 15, 3), (r.nz 6 3, 3)] (.gbar r.g (r.f 6 9) (r.f 3 0))) (Raw.mk 0x82 x y n e) := fun _ _ _ _ => rfl
  show decodeEngine (syllable 0x82 g (packEN 0 a.toNat 0 q.toNat) none) = _
  refine (hd _ _ _ _).trans ?_
  show (fun r : Raw => accept [(r.x, 4), (r.nz 4 15, 3), (r.nz 6 3, 3)] (.gbar r.g (r.f 6 9) (r.f 3 0))) (syllable 0x82 g (packEN 0 a.toNat 0 q.toNat) none) = _
  exact accept_ok hw (by simp (disch := omega) [raw_f, raw_b]) (by simp (disch := omega) [-Bool.and_eq_false_imp, raw_nz, raw_b])

theorem Encoding.gwait (g : Guard) (d : SReg) (q : PReg) (a : SReg) : Encoding.Statement (.gwait g d q a) := by
  intro hw
  have := d.isLt
  have := q.isLt
  have := a.isLt
  refine syllable_ok (by decide) (by simp (disch := omega)) ?_
  have hd : ∀ x y n e, decodeEngine (Raw.mk 0x83 x y n e) = (fun r : Raw => accept [(r.x, 4), (r.nz 4 15, 3)] (.gwait r.g (r.f 6 3) (r.f 3 0) (r.f 6 9))) (Raw.mk 0x83 x y n e) := fun _ _ _ _ => rfl
  show decodeEngine (syllable 0x83 g (packEN 0 a.toNat d.toNat q.toNat) none) = _
  refine (hd _ _ _ _).trans ?_
  show (fun r : Raw => accept [(r.x, 4), (r.nz 4 15, 3)] (.gwait r.g (r.f 6 3) (r.f 3 0) (r.f 6 9))) (syllable 0x83 g (packEN 0 a.toNat d.toNat q.toNat) none) = _
  exact accept_ok hw (by simp (disch := omega) [raw_f, raw_b]) (by simp (disch := omega) [-Bool.and_eq_false_imp, raw_nz, raw_b])

theorem Encoding.tspawn (g : Guard) (a : SReg) : Encoding.Statement (.tspawn g a) := by
  intro hw
  have := a.isLt
  refine syllable_ok (by decide) (by simp (disch := omega)) ?_
  have hd : ∀ x y n e, decodeEngine (Raw.mk 0x88 x y n e) = (fun r : Raw => accept [(r.x, 4), (r.nz 4 15, 3), (r.nz 9 0, 3)] (.tspawn r.g (r.f 6 9))) (Raw.mk 0x88 x y n e) := fun _ _ _ _ => rfl
  show decodeEngine (syllable 0x88 g (packEN 0 a.toNat 0 0) none) = _
  refine (hd _ _ _ _).trans ?_
  show (fun r : Raw => accept [(r.x, 4), (r.nz 4 15, 3), (r.nz 9 0, 3)] (.tspawn r.g (r.f 6 9))) (syllable 0x88 g (packEN 0 a.toNat 0 0) none) = _
  exact accept_ok hw (by simp (disch := omega) [raw_f, raw_b]) (by simp (disch := omega) [-Bool.and_eq_false_imp, raw_nz, raw_b])

theorem Encoding.tdec (g : Guard) (a : SReg) : Encoding.Statement (.tdec g a) := by
  intro hw
  have := a.isLt
  refine syllable_ok (by decide) (by simp (disch := omega)) ?_
  have hd : ∀ x y n e, decodeEngine (Raw.mk 0x89 x y n e) = (fun r : Raw => accept [(r.x, 4), (r.nz 4 15, 3), (r.nz 9 0, 3)] (.tdec r.g (r.f 6 9))) (Raw.mk 0x89 x y n e) := fun _ _ _ _ => rfl
  show decodeEngine (syllable 0x89 g (packEN 0 a.toNat 0 0) none) = _
  refine (hd _ _ _ _).trans ?_
  show (fun r : Raw => accept [(r.x, 4), (r.nz 4 15, 3), (r.nz 9 0, 3)] (.tdec r.g (r.f 6 9))) (syllable 0x89 g (packEN 0 a.toNat 0 0) none) = _
  exact accept_ok hw (by simp (disch := omega) [raw_f, raw_b]) (by simp (disch := omega) [-Bool.and_eq_false_imp, raw_nz, raw_b])

theorem Encoding.tarm (g : Guard) (a : SReg) (b : SReg) : Encoding.Statement (.tarm g a b) := by
  intro hw
  have := a.isLt
  have := b.isLt
  refine syllable_ok (by decide) (by simp (disch := omega)) ?_
  have hd : ∀ x y n e, decodeEngine (Raw.mk 0x8A x y n e) = (fun r : Raw => accept [(r.x, 4), (r.nz 4 15, 3), (r.nz 3 0, 3)] (.tarm r.g (r.f 6 9) (r.f 6 3))) (Raw.mk 0x8A x y n e) := fun _ _ _ _ => rfl
  show decodeEngine (syllable 0x8A g (packEN 0 a.toNat b.toNat 0) none) = _
  refine (hd _ _ _ _).trans ?_
  show (fun r : Raw => accept [(r.x, 4), (r.nz 4 15, 3), (r.nz 3 0, 3)] (.tarm r.g (r.f 6 9) (r.f 6 3))) (syllable 0x8A g (packEN 0 a.toNat b.toNat 0) none) = _
  exact accept_ok hw (by simp (disch := omega) [raw_f, raw_b]) (by simp (disch := omega) [-Bool.and_eq_false_imp, raw_nz, raw_b])

theorem Encoding.moveNull (src : MoveSrc) (g : BitVec 2) : Encoding.Statement (.moveNull src g) := by
  intro _; exact move_ok _ src g (by decide)

theorem Encoding.moveRowk (src : MoveSrc) (g : BitVec 2) : Encoding.Statement (.moveRowk src g) := by
  intro _; exact move_ok _ src g (by decide)

theorem Encoding.moveFmaA (src : MoveSrc) (g : BitVec 2) : Encoding.Statement (.moveFmaA src g) := by
  intro _; exact move_ok _ src g (by decide)

theorem Encoding.moveFmaT (src : MoveSrc) (g : BitVec 2) : Encoding.Statement (.moveFmaT src g) := by
  intro _; exact move_ok _ src g (by decide)

theorem Encoding.moveAcc (src : MoveSrc) (g : BitVec 2) : Encoding.Statement (.moveAcc src g) := by
  intro _; exact move_ok _ src g (by decide)

theorem Encoding.moveOut (src : MoveSrc) (g : BitVec 2) : Encoding.Statement (.moveOut src g) := by
  intro _; exact move_ok _ src g (by decide)

theorem Encoding.moveLcSet (src : MoveSrc) (g : BitVec 2) : Encoding.Statement (.moveLcSet src g) := by
  intro _; exact move_ok _ src g (by decide)

theorem Encoding.moveLcT (src : MoveSrc) (g : BitVec 2) : Encoding.Statement (.moveLcT src g) := by
  intro _; exact move_ok _ src g (by decide)

theorem Encoding.moveBr (src : MoveSrc) (g : BitVec 2) : Encoding.Statement (.moveBr src g) := by
  intro _; exact move_ok _ src g (by decide)

theorem Encoding.moveEnd (src : MoveSrc) (g : BitVec 2) : Encoding.Statement (.moveEnd src g) := by
  intro _; exact move_ok _ src g (by decide)

theorem Encoding.moveAcc1 (src : MoveSrc) (g : BitVec 2) : Encoding.Statement (.moveAcc1 src g) := by
  intro _; exact move_ok _ src g (by decide)

theorem Encoding.moveFmaT1 (src : MoveSrc) (g : BitVec 2) : Encoding.Statement (.moveFmaT1 src g) := by
  intro _; exact move_ok _ src g (by decide)

theorem Encoding.moveAddA (src : MoveSrc) (g : BitVec 2) : Encoding.Statement (.moveAddA src g) := by
  intro _; exact move_ok _ src g (by decide)

theorem Encoding.moveAddT (src : MoveSrc) (g : BitVec 2) : Encoding.Statement (.moveAddT src g) := by
  intro _; exact move_ok _ src g (by decide)

theorem Encoding.moveMulA (src : MoveSrc) (g : BitVec 2) : Encoding.Statement (.moveMulA src g) := by
  intro _; exact move_ok _ src g (by decide)

theorem Encoding.moveMulT (src : MoveSrc) (g : BitVec 2) : Encoding.Statement (.moveMulT src g) := by
  intro _; exact move_ok _ src g (by decide)

theorem Encoding.moveCmpA (src : MoveSrc) (g : BitVec 2) : Encoding.Statement (.moveCmpA src g) := by
  intro _; exact move_ok _ src g (by decide)

theorem Encoding.moveCmpT (src : MoveSrc) (g : BitVec 2) : Encoding.Statement (.moveCmpT src g) := by
  intro _; exact move_ok _ src g (by decide)

theorem Encoding.bundleDispatch : Encoding.Statement (.bundleDispatch) := by
  intro _; trivial

theorem Encoding.bundleIssue : Encoding.Statement (.bundleIssue) := by
  intro _; trivial

theorem Encoding.syncMet : Encoding.Statement (.syncMet) := by
  intro _; trivial

theorem Encoding.resultLanding : Encoding.Statement (.resultLanding) := by
  intro _; trivial

theorem Encoding.cbFire : Encoding.Statement (.cbFire) := by
  intro _; trivial

theorem Encoding.cbCountRise : Encoding.Statement (.cbCountRise) := by
  intro _; trivial

theorem Encoding.replyArrival : Encoding.Statement (.replyArrival) := by
  intro _; trivial

theorem Encoding.segmentExpansionComplete : Encoding.Statement (.segmentExpansionComplete) := by
  intro _; trivial

theorem Encoding.segmentRefillComplete : Encoding.Statement (.segmentRefillComplete) := by
  intro _; trivial

theorem Encoding.tableSwap : Encoding.Statement (.tableSwap) := by
  intro _; trivial

theorem Encoding.xlatComplete : Encoding.Statement (.xlatComplete) := by
  intro _; trivial

theorem Encoding.pginvWrite : Encoding.Statement (.pginvWrite) := by
  intro _; trivial

theorem Encoding.invalidationComplete : Encoding.Statement (.invalidationComplete) := by
  intro _; trivial

theorem Encoding.waymaskWrite : Encoding.Statement (.waymaskWrite) := by
  intro _; trivial

theorem Encoding.felWrite : Encoding.Statement (.felWrite) := by
  intro _; trivial

theorem Encoding.mb7Write : Encoding.Statement (.mb7Write) := by
  intro _; trivial

theorem Encoding.mailboxWrite : Encoding.Statement (.mailboxWrite) := by
  intro _; trivial

theorem Encoding.registerWrite : Encoding.Statement (.registerWrite) := by
  intro _; trivial

theorem Encoding.tileFillComplete : Encoding.Statement (.tileFillComplete) := by
  intro _; trivial

theorem Encoding.replicaCopyComplete : Encoding.Statement (.replicaCopyComplete) := by
  intro _; trivial

theorem Encoding.prefetchFillStart : Encoding.Statement (.prefetchFillStart) := by
  intro _; trivial

theorem Encoding.scrub : Encoding.Statement (.scrub) := by
  intro _; trivial

theorem Encoding.uncorrectableError : Encoding.Statement (.uncorrectableError) := by
  intro _; trivial

theorem Encoding.preemptionRequest : Encoding.Statement (.preemptionRequest) := by
  intro _; trivial

theorem Encoding.preemption : Encoding.Statement (.preemption) := by
  intro _; trivial

theorem Encoding.preemptionOverdue : Encoding.Statement (.preemptionOverdue) := by
  intro _; trivial

theorem Encoding.continuationPickup : Encoding.Statement (.continuationPickup) := by
  intro _; trivial

theorem Encoding.continuationKill : Encoding.Statement (.continuationKill) := by
  intro _; trivial

theorem Encoding.readyAgeing : Encoding.Statement (.readyAgeing) := by
  intro _; trivial

theorem Encoding.timeSliceSwitch : Encoding.Statement (.timeSliceSwitch) := by
  intro _; trivial

theorem Encoding.launchQueueTake : Encoding.Statement (.launchQueueTake) := by
  intro _; trivial

theorem Encoding.graphReplayStart : Encoding.Statement (.graphReplayStart) := by
  intro _; trivial

theorem Encoding.graphReplayComplete : Encoding.Statement (.graphReplayComplete) := by
  intro _; trivial

theorem Encoding.nodeDecrement : Encoding.Statement (.nodeDecrement) := by
  intro _; trivial

theorem Encoding.nodeArm : Encoding.Statement (.nodeArm) := by
  intro _; trivial

theorem Encoding.engineCommandStart : Encoding.Statement (.engineCommandStart) := by
  intro _; trivial

theorem Encoding.commandRetire : Encoding.Statement (.commandRetire) := by
  intro _; trivial

theorem Encoding.remoteWindowWrite : Encoding.Statement (.remoteWindowWrite) := by
  intro _; trivial

theorem Encoding.collectiveResult : Encoding.Statement (.collectiveResult) := by
  intro _; trivial

theorem Encoding.migration : Encoding.Statement (.migration) := by
  intro _; trivial

theorem Encoding.migrationPagePull : Encoding.Statement (.migrationPagePull) := by
  intro _; trivial

theorem Encoding.bankUnitAccept : Encoding.Statement (.bankUnitAccept) := by
  intro _; trivial

theorem Encoding.bankUnitResult : Encoding.Statement (.bankUnitResult) := by
  intro _; trivial

theorem Encoding.bankRequestPromotion : Encoding.Statement (.bankRequestPromotion) := by
  intro _; trivial

theorem Encoding.homeApply : Encoding.Statement (.homeApply) := by
  intro _; trivial

theorem Encoding.hotLineWithdraw : Encoding.Statement (.hotLineWithdraw) := by
  intro _; trivial

theorem Encoding.switchCombine : Encoding.Statement (.switchCombine) := by
  intro _; trivial

theorem Encoding.combineHoldExpiry : Encoding.Statement (.combineHoldExpiry) := by
  intro _; trivial

theorem Encoding.combinedReplySplit : Encoding.Statement (.combinedReplySplit) := by
  intro _; trivial

theorem Encoding.sailWheelApply : Encoding.Statement (.sailWheelApply) := by
  intro _; trivial

theorem Encoding.rateLimitedSend : Encoding.Statement (.rateLimitedSend) := by
  intro _; trivial

theorem Encoding.fabricLinkFailure : Encoding.Statement (.fabricLinkFailure) := by
  intro _; trivial

theorem Encoding.supplySag : Encoding.Statement (.supplySag) := by
  intro _; trivial

theorem Encoding.timerMatch : Encoding.Statement (.timerMatch) := by
  intro _; trivial

theorem Encoding.faultReport : Encoding.Statement (.faultReport) := by
  intro _; trivial

theorem Encoding.bhSchedStop : Encoding.Statement (.bhSchedStop) := by
  intro _; trivial

theorem Encoding.bhPreempt : Encoding.Statement (.bhPreempt) := by
  intro _; trivial

theorem Encoding.bhQuiesceAbandon : Encoding.Statement (.bhQuiesceAbandon) := by
  intro _; trivial

theorem Encoding.quiesceComplete : Encoding.Statement (.quiesceComplete) := by
  intro _; trivial

theorem Encoding.sluiceClose : Encoding.Statement (.sluiceClose) := by
  intro _; trivial

theorem Encoding.sluiceCloseComplete : Encoding.Statement (.sluiceCloseComplete) := by
  intro _; trivial

theorem Encoding.retentionSave : Encoding.Statement (.retentionSave) := by
  intro _; trivial

theorem Encoding.retentionSaveComplete : Encoding.Statement (.retentionSaveComplete) := by
  intro _; trivial

theorem Encoding.clockGate : Encoding.Statement (.clockGate) := by
  intro _; trivial

theorem Encoding.clockStopped : Encoding.Statement (.clockStopped) := by
  intro _; trivial

theorem Encoding.railOff : Encoding.Statement (.railOff) := by
  intro _; trivial

theorem Encoding.railDown : Encoding.Statement (.railDown) := by
  intro _; trivial

theorem Encoding.railOn : Encoding.Statement (.railOn) := by
  intro _; trivial

theorem Encoding.railUp : Encoding.Statement (.railUp) := by
  intro _; trivial

theorem Encoding.clockUngate : Encoding.Statement (.clockUngate) := by
  intro _; trivial

theorem Encoding.pllLock : Encoding.Statement (.pllLock) := by
  intro _; trivial

theorem Encoding.bhWipe : Encoding.Statement (.bhWipe) := by
  intro _; trivial

theorem Encoding.wipeComplete : Encoding.Statement (.wipeComplete) := by
  intro _; trivial

theorem Encoding.retentionRestore : Encoding.Statement (.retentionRestore) := by
  intro _; trivial

theorem Encoding.retentionRestoreComplete : Encoding.Statement (.retentionRestoreComplete) := by
  intro _; trivial

theorem Encoding.sluiceOpen : Encoding.Statement (.sluiceOpen) := by
  intro _; trivial

theorem Encoding.sluiceOpenComplete : Encoding.Statement (.sluiceOpenComplete) := by
  intro _; trivial

theorem Encoding.bhSchedResume : Encoding.Statement (.bhSchedResume) := by
  intro _; trivial

theorem Encoding.bhWakeWrite : Encoding.Statement (.bhWakeWrite) := by
  intro _; trivial

theorem Encoding.coreRestart : Encoding.Statement (.coreRestart) := by
  intro _; trivial

theorem Encoding.pwrlimWrite : Encoding.Statement (.pwrlimWrite) := by
  intro _; trivial

theorem Encoding.ptabWrite : Encoding.Statement (.ptabWrite) := by
  intro _; trivial

theorem Encoding.contextDescriptorWrite : Encoding.Statement (.contextDescriptorWrite) := by
  intro _; trivial

theorem Encoding.bhReset : Encoding.Statement (.bhReset) := by
  intro _; trivial

theorem Encoding.gkeyDestroy : Encoding.Statement (.gkeyDestroy) := by
  intro _; trivial

theorem Encoding.lifecycleRequest : Encoding.Statement (.lifecycleRequest) := by
  intro _; trivial

theorem Encoding.moduleReset : Encoding.Statement (.moduleReset) := by
  intro _; trivial

theorem Encoding.lifetimeCounterCommit : Encoding.Statement (.lifetimeCounterCommit) := by
  intro _; trivial

theorem Encoding.vfWake : Encoding.Statement (.vfWake) := by
  intro _; trivial

theorem Encoding.vfHinv : Encoding.Statement (.vfHinv) := by
  intro _; trivial

theorem Encoding.consentSubmit : Encoding.Statement (.consentSubmit) := by
  intro _; trivial

theorem Encoding.attestationRequest : Encoding.Statement (.attestationRequest) := by
  intro _; trivial

theorem Encoding.atsInvalidation : Encoding.Statement (.atsInvalidation) := by
  intro _; trivial

theorem Encoding.vfFlr : Encoding.Statement (.vfFlr) := by
  intro _; trivial

theorem Encoding.pfFlr : Encoding.Statement (.pfFlr) := by
  intro _; trivial

theorem Encoding.peerRequest : Encoding.Statement (.peerRequest) := by
  intro _; trivial

theorem Encoding.scairHeartbeat : Encoding.Statement (.scairHeartbeat) := by
  intro _; trivial

theorem Encoding.scairXoff : Encoding.Statement (.scairXoff) := by
  intro _; trivial

theorem Encoding.scairXon : Encoding.Statement (.scairXon) := by
  intro _; trivial

theorem Encoding.scairReplayRequest : Encoding.Statement (.scairReplayRequest) := by
  intro _; trivial

theorem Encoding.scairLinkDown : Encoding.Statement (.scairLinkDown) := by
  intro _; trivial

theorem Encoding.scairFlitCrcFailure : Encoding.Statement (.scairFlitCrcFailure) := by
  intro _; trivial

theorem Encoding.orderlyPowerDown : Encoding.Statement (.orderlyPowerDown) := by
  intro _; trivial

theorem Encoding.migrationBackgroundPush : Encoding.Statement (.migrationBackgroundPush) := by
  intro _; trivial

theorem Encoding.debugFreezeResume : Encoding.Statement (.debugFreezeResume) := by
  intro _; trivial

end Sys2Proof.Laws
end

