-- ==== Sys2Proof/Laws/Units.lean ====
section
/-! SUPPORT. Bulkheads after an update, folds over the cores of a bulkhead, and what the shared operations do: requests,
stores, commit points and waits. -/

set_option Elab.async false

namespace Sys2Proof.Laws
open Sys2Proof.Machine Sys2Proof

@[simp] theorem bulk_setBulk (s : State) (b : Nat) (x : Bulkhead) : (s.setBulk b x).bulk b = x := mget_mput_self _ _ _ _
theorem bulk_setBulk_other (s : State) {b d : Nat} (x : Bulkhead) (h : d ≠ b) : (s.setBulk b x).bulk d = s.bulk d := mget_mput_other _ _ _ h
@[simp] theorem bulk_pend (s : State) (i : Instr) (a : EvArgs) (b : Nat) : (s.pend i a).bulk b = s.bulk b := rfl
@[simp] theorem bulk_pendOnce (s : State) (i : Instr) (a : EvArgs) (b : Nat) : (s.pendOnce i a).bulk b = s.bulk b := by unfold State.pendOnce; split <;> rfl
@[simp] theorem mem_pendOnce (s : State) (i : Instr) (a : EvArgs) : (s.pendOnce i a).mem = s.mem := by unfold State.pendOnce; split <;> rfl
@[simp] theorem cores_pendOnce (s : State) (i : Instr) (a : EvArgs) : (s.pendOnce i a).cores = s.cores := by unfold State.pendOnce; split <;> rfl
@[simp] theorem bulk_unpend (s : State) (i : Instr) (a : EvArgs) (b : Nat) : (s.unpend i a).bulk b = s.bulk b := rfl
@[simp] theorem mem_unpend (s : State) (i : Instr) (a : EvArgs) : (s.unpend i a).mem = s.mem := rfl
@[simp] theorem bulk_setCore (s : State) (c : Nat) (k : Core) (b : Nat) : (s.setCore c k).bulk b = s.bulk b := rfl
@[simp] theorem bulk_modCore (s : State) (c : Nat) (f : Core → Core) (b : Nat) : (s.modCore c f).bulk b = s.bulk b := rfl
@[simp] theorem core_setBulk (s : State) (b : Nat) (x : Bulkhead) (c : Nat) : (s.setBulk b x).core c = s.core c := rfl
/-- A fold whose every step leaves something alone leaves it alone. -/
theorem foldl_keep {α β γ : Type} (f : α → β → α) (p : α → γ) (h : ∀ a b, p (f a b) = p a) (l : List β) (a : α) : p (l.foldl f a) = p a := by
  induction l generalizing a with
  | nil => rfl
  | cons x l ih => simp [ih, h]
@[simp] theorem requestPreempt_bulk (s : State) (c b : Nat) : (requestPreempt s c).bulk b = s.bulk b := by unfold requestPreempt; split <;> rfl
@[simp] theorem requestPreempt_mem (s : State) (c : Nat) : (requestPreempt s c).mem = s.mem := by unfold requestPreempt; split <;> rfl
@[simp] theorem requestPreempts_bulk (s : State) (l : List Nat) (b : Nat) : (l.foldl requestPreempt s).bulk b = s.bulk b := foldl_keep _ (fun s => s.bulk b) (by simp) l s
@[simp] theorem requestPreempts_mem (s : State) (l : List Nat) : (l.foldl requestPreempt s).mem = s.mem := foldl_keep _ (fun s => s.mem) (by simp) l s
theorem coresOf_mem (b c : Nat) : c ∈ coresOf b ↔ c / 8 = b := by
  simp [coresOf]; constructor
  · rintro ⟨a, h, rfl⟩; omega
  · intro h; exact ⟨c % 8, by omega, by omega⟩
theorem foldl_modCore (l : List Nat) (hl : l.Nodup) (f : Nat → Core → Core) (s : State) (c : Nat) :
   (l.foldl (fun t c => t.modCore c (f c)) s).core c = if c ∈ l then f c (s.core c) else s.core c := by
  induction l generalizing s with
  | nil => simp
  | cons x l ih =>
    simp at hl
    rw [List.foldl_cons, ih hl.2]
    by_cases h : c = x
    · subst h; simp [hl.1]
    · simp [h, core_modCore_other _ _ h]
theorem coresOf_nodup (b : Nat) : (coresOf b).Nodup := by
  simp [coresOf, List.range, List.range.loop]
/-! Requests. -/

/-- What neither the fabric nor the pending events hold, the stages of a route and a departure leave alone. -/
theorem enterStage_keep {γ : Type} (p : State → γ) (hp : ∀ s i a, p (s.pend i a) = p s) (hf : ∀ s f, p { s with fabric := f } = p s)
    (s : State) (n : Nat) (r : Req) : p (s.enterStage r n) = p s := by
  induction n generalizing r with
  | zero => exact (hp _ _ _).trans (hf _ _)
  | succ n ih =>
    unfold State.enterStage
    split
    · exact (hp _ _ _).trans (hf _ _)
    · split
      · exact ih _
      · refine (foldl_keep _ p (fun t q => ?_) _ _).trans ((hp _ _ _).trans (hf _ _))
        repeat' split
        all_goals first | exact hp _ _ _ | rfl
theorem depart_keep {γ : Type} (p : State → γ) (hp : ∀ s i a, p (s.pend i a) = p s) (hf : ∀ s f, p { s with fabric := f } = p s)
    (s : State) (r : Req) : p (s.depart r) = p s := by
  unfold State.depart
  split
  · exact enterStage_keep p hp hf _ _ _
  · exact hp _ _ _
/-- The same of a request that is sent. -/
theorem send_keep {γ : Type} (p : State → γ) (hp : ∀ s i a, p (s.pend i a) = p s) (hf : ∀ s f, p { s with fabric := f } = p s)
    (hn : ∀ s n, p { s with nextReq := n } = p s) (s : State) (r : Req) : p (s.send r).2 = p s := by
  unfold State.send
  dsimp only
  split
  · exact (hp _ _ _).trans ((hf { s with nextReq := s.nextReq + 1 } _).trans (hn _ _))
  · exact (depart_keep p hp hf _ _).trans ((hf { s with nextReq := s.nextReq + 1 } _).trans (hn _ _))
@[simp] theorem send_mem (s : State) (r : Req) : (s.send r).2.mem = s.mem := send_keep (·.mem) (fun _ _ _ => rfl) (fun _ _ => rfl) (fun _ _ => rfl) s r
@[simp] theorem send_cores (s : State) (r : Req) : (s.send r).2.cores = s.cores := send_keep (·.cores) (fun _ _ _ => rfl) (fun _ _ => rfl) (fun _ _ => rfl) s r
@[simp] theorem send_cur (s : State) (r : Req) : (s.send r).2.cur = s.cur := send_keep (·.cur) (fun _ _ _ => rfl) (fun _ _ => rfl) (fun _ _ => rfl) s r
@[simp] theorem send_now (s : State) (r : Req) : (s.send r).2.now = s.now := send_keep (·.now) (fun _ _ _ => rfl) (fun _ _ => rfl) (fun _ _ => rfl) s r
@[simp] theorem send_engines (s : State) (r : Req) : (s.send r).2.engines = s.engines := send_keep (·.engines) (fun _ _ _ => rfl) (fun _ _ => rfl) (fun _ _ => rfl) s r
@[simp] theorem send_core (s : State) (r : Req) (c : Nat) : (s.send r).2.core c = s.core c := by simp [State.core]
@[simp] theorem send_me (s : State) (r : Req) : (s.send r).2.me = s.me := by unfold State.me; rw [send_core, send_cur]
@[simp] theorem send_id (s : State) (r : Req) : (s.send r).1 = s.nextReq := rfl

/-! Commit points and stores (R339). -/

/-- A store that names no register leaves memory to its home. -/
theorem performOne_mem (s : State) (c : Nat) (g : Gated) (h : g.space = none) : (performOne s c g).mem = s.mem := by
  unfold performOne; rw [h]
  split <;> first | rfl | simp_all
theorem gated_mem (c : Nat) (l : List Gated) (h : ∀ g ∈ l, g.space = none) (s : State) :
    (l.foldl (fun (t : State) g => performOne t c g) s).mem = s.mem := by
  induction l generalizing s with
  | nil => rfl
  | cons g l ih => exact (ih (fun x hx => h x (.tail _ hx)) _).trans (performOne_mem _ _ _ (h g (.head _)))
theorem commitGated_mem (s : State) (c n : Nat) (h : ∀ g ∈ (s.core c).mark.gated, g.space = none) : (commitGated s c n).mem = s.mem :=
  (gated_mem _ _ h _).trans (modCore_mem _ _ _)
theorem commitDisarm_mem (s : State) (c : Nat) (h : ∀ g ∈ (s.core c).mark.gated, g.space = none) : (commitDisarm s c).mem = s.mem :=
  (modCore_mem _ _ _).trans (commitGated_mem s c 0 h)
/-- Without an armed mark a store is performed at once. -/
theorem performStore_disarmed (s : State) (c seq : Nat) (g : Gated) (h : (s.core c).mark.armed = false) :
    performStore s c seq g = performOne s c g := by
  simp [performStore, h]
/-- A commit point with an empty buffer changes only the mark. -/
theorem commitGated_empty (s : State) (c n : Nat) (h : (s.core c).mark.gated = []) :
    commitGated s c n = s.modCore c (fun k => { k with mark := { k.mark with gated := [], commit := max k.mark.commit n } }) := by
  simp [commitGated, h]

/-! Waits (R25, R230, R239). -/

theorem ask_stalls (s : State) (r : Req) (o : Word) : (s.ask r o).now.stalled = true := by
  unfold State.ask; split <;> rfl
/-- Sorting adds nothing. -/
theorem insertBy_subset (key : Flight → Nat) (f : Flight) (l : List Flight) : ∀ g ∈ insertBy key f l, g = f ∨ g ∈ l := by
  induction l with
  | nil => simp [insertBy]
  | cons h l ih =>
    unfold insertBy
    split
    · simp
    · intro g hg
      rcases List.mem_cons.mp hg with rfl | hg
      · simp
      · rcases ih g hg with rfl | hg <;> simp [*]
theorem sortBy_subset (key : Flight → Nat) (l : List Flight) : ∀ g ∈ sortBy key l, g ∈ l := by
  have key' (l acc : List Flight) : ∀ g ∈ l.foldl (fun acc f => insertBy key f acc) acc, g ∈ acc ∨ g ∈ l := by
    induction l generalizing acc with
    | nil => simp
    | cons f l ih =>
      intro g hg
      rcases ih _ g hg with hg | hg
      · rcases insertBy_subset _ _ _ g hg with rfl | hg <;> simp [*]
      · simp [hg]
  intro g hg
  simpa using key' l [] g hg
/-- An event that is recorded arms no mark. -/
theorem recordEvent_armed (k : Core) (f : Flight) : (k.recordEvent f).mark.armed = k.mark.armed := by
  unfold Core.recordEvent; split
  · rfl
  · dsimp only; split <;> rfl
/-- A posted store that becomes due, with no mark armed, leaves as a request. -/
theorem landPost_keep (s : State) (c : Nat) (f : Flight) (h : (match f.what with | .post _ | .through _ => true | _ => false) = true)
    (ha : (s.core c).mark.armed = false) :
    (landOne s c f).mem = s.mem ∧ ((landOne s c f).core c).mark.armed = false := by
  unfold landOne
  dsimp only
  split at h
  · next hw =>
    rw [hw]; dsimp only
    rw [performStore_disarmed _ _ _ _ (by simp [recordEvent_armed, ha])]
    simp [performOne, recordEvent_armed, ha]
  · next hw => rw [hw]; simp [Core.passGated, recordEvent_armed, ha]
  · cases h
theorem settlePosts_mem (s : State) (c : Nat) (ha : (s.core c).mark.armed = false) : (settlePosts s c).mem = s.mem := by
  unfold settlePosts
  have key (l : List Flight) (hl : ∀ f ∈ l, (match f.what with | .post _ | .through _ => true | _ => false) = true) (t : State)
      (ht : (t.core c).mark.armed = false) : (l.foldl (fun t f => landOne t c f) t).mem = t.mem := by
    induction l generalizing t with
    | nil => rfl
    | cons f l ih =>
      obtain ⟨h1, h2⟩ := landPost_keep t c f (hl f (.head _)) ht
      exact (ih (fun g hg => hl g (.tail _ hg)) _ h2).trans h1
  refine (key _ (fun f hf => ?_) _ (by simp [ha])).trans (setCore_mem _ _ _)
  have := (List.mem_filter.mp (sortBy_subset _ _ f hf)).2
  exact (Bool.and_eq_true_iff.mp this).2
theorem ask_mem (s : State) (r : Req) (o : Word) (ha : s.me.mark.armed = false) : (s.ask r o).mem = s.mem := by
  unfold State.ask; split
  · rfl
  · exact (send_mem _ _).trans (settlePosts_mem _ _ ha)
theorem using_ok (s : State) (t : Target) (body : Target → State) : s.using (.ok t) body = body t := rfl
theorem using_wait (s : State) (body : Target → State) : s.using .wait body = s.stall := rfl
theorem using_trap (s : State) (t : TrapRec) (body : Target → State) : s.using (.trap t) body = s.trap t := rfl
/-- A consumer that has its elements fires. -/
theorem consuming_fires (s : State) (cb n : Nat) (body : State → Cb → State) (hc : (s.me.cbReg cb).conf = true)
    (hn : n ≤ (s.me.cbReg cb).cap) (h : n ≤ (s.me.cbReg cb).cnt) :
    s.consuming cb n body = body (s.modMe (fun k => k.setCb cb ((s.me.cbReg cb).consume n))) (s.me.cbReg cb) := by
  simp [State.consuming, cbLimit, hc, Nat.not_lt.mpr hn, Nat.not_lt.mpr h]
/-- A producer that has room fires. -/
theorem producing_fires (s : State) (cb n : Nat) (body : State → Cb → State) (hc : (s.me.cbReg cb).conf = true)
    (hn : n ≤ (s.me.cbReg cb).cap) (h : n ≤ (s.me.cbReg cb).room) :
    s.producing cb n body = body (s.modMe (fun k => k.setCb cb ((s.me.cbReg cb).produce n))) (s.me.cbReg cb) := by
  simp [State.producing, cbLimit, hc, Nat.not_lt.mpr hn, Nat.not_lt.mpr h]

/-! Memory. -/

@[simp] theorem physWrite_mem (s : State) (part pa : Nat) (bs : List Byte) : (s.physWrite part pa bs).mem = s.mem.write pa bs := rfl
theorem physWrite_wf (s : State) (part pa : Nat) (bs : List Byte) (h : s.mem.wf = true) : (s.physWrite part pa bs).mem.wf = true :=
  write_wf _ _ _ h
@[simp] theorem scratchWrite_s (k : Core) (o : Nat) (bs : List Byte) : (k.scratchWrite o bs).s = k.s := rfl
@[simp] theorem scratchWrite_p (k : Core) (o : Nat) (bs : List Byte) : (k.scratchWrite o bs).p = k.p := rfl
@[simp] theorem scratchWrite_v (k : Core) (o : Nat) (bs : List Byte) : (k.scratchWrite o bs).v = k.v := rfl
@[simp] theorem scratchWrite_flights (k : Core) (o : Nat) (bs : List Byte) : (k.scratchWrite o bs).flights = k.flights := rfl
theorem scratchWrite_wf (k : Core) (o : Nat) (bs : List Byte) (h : k.scratch.wf = true) : (k.scratchWrite o bs).scratch.wf = true :=
  write_wf _ _ _ h

/-- Charges, lines and copies hold no bytes of memory. -/
@[simp] theorem charge_mem (s : State) (x b n : Nat) : (s.charge x b n).mem = s.mem := by unfold State.charge; split <;> rfl
@[simp] theorem chargeLine_mem (s : State) (l : Line) : (s.chargeLine l).mem = s.mem := by unfold State.chargeLine; split <;> simp
@[simp] theorem dropCopies_mem (s : State) (x n : Nat) : (dropCopies s x n).mem = s.mem := by
  unfold dropCopies; simp only [charge_mem]; split <;> rfl
@[simp] theorem evict_mem (s : State) (n : Nat) : (s.evict n).mem = s.mem := by simp [State.evict]
@[simp] theorem allocate_mem (s : State) (x slice n : Nat) (forced : Bool) (ways : Option Nat) :
    (s.allocate x slice n forced ways).mem = s.mem := by
  unfold State.allocate; dsimp only
  repeat' split
  all_goals simp
@[simp] theorem touchLine_mem (s : State) (x hi slice n : Nat) (ways : Option Nat) : (s.touchLine x hi slice n ways).mem = s.mem := by
  unfold State.touchLine; dsimp only
  repeat' split
  all_goals simp
@[simp] theorem retest_mem (s : State) (pa n : Nat) (adr : Nat → Nat) : (s.retest pa n adr).mem = s.mem :=
  foldl_keep _ State.mem (by simp) _ _
@[simp] theorem sendFlit_mem (s : State) (p vl kind dst part adr : Nat) (bs : List Byte) : (s.sendFlit p vl kind dst part adr bs).mem = s.mem := rfl
@[simp] theorem report_mem (s : State) (reason source ctx info adr data : Nat) :
    (s.report reason source ctx info adr data).mem = s.mem := rfl
@[simp] theorem refusal_mem (s : State) (x va n : Nat) (a : MemAgent) (w : Bool) (root : Option (Nat × Nat)) (src : Option Nat) :
    (s.refusal x va n a w root src).mem = s.mem := by
  unfold State.refusal
  split
  · rfl
  · dsimp only; split
    all_goals first | rfl | (split <;> rfl)
theorem writesLines_mem (s : State) (x part hi pa : Nat) (bs : List Byte) (ways : Option Nat) :
    (s.writesLines x part hi pa bs ways).mem = s.mem.write pa bs := by
  unfold State.writesLines
  simp only [retest_mem, physWrite_mem]
  congr 1
  exact (foldl_keep _ State.mem (by simp) _ _).trans (foldl_keep _ State.mem (by simp) _ _)

/-- Writes at a home, and writes by virtual address, keep the canonical form of memory. -/
theorem homeWrite_wf (s : State) (x part home hi pa : Nat) (bs : List Byte) (atomic : Bool) (ways : Option Nat) (h : s.mem.wf = true) :
    (s.homeWrite x part home hi pa bs atomic ways).2.mem.wf = true := by
  unfold State.homeWrite
  repeat' split
  all_goals first | exact h | exact write_wf _ _ _ h | (rw [writesLines_mem]; exact write_wf _ _ _ h) |
    (rw [retest_mem]; exact write_wf _ _ _ h)
theorem vwrite_wf (s t : State) (x va : Nat) (bs : List Byte) (a : MemAgent) (h : s.mem.wf = true) (ht : s.vwrite x va bs a = .ok t) :
    t.mem.wf = true := by
  unfold State.vwrite at ht
  split at ht
  · cases ht
  · dsimp only at ht
    repeat' split at ht
    all_goals first
      | (cases ht; done)
      | (obtain rfl := Except.ok.inj ht; exact homeWrite_wf _ _ _ _ _ _ _ _ _ h)
/-- Pulling a page (R346) keeps the canonical form of memory. -/
theorem pullPage_wf (s : State) (x page : Nat) (plain : Bool) (data : List Byte) (h : s.mem.wf = true) :
    (pullPage s x page plain data).mem.wf = true := by
  have h0 (l : Leaf) : (if data.isEmpty = true then s else s.physWrite (s.ctxPart x) l.frame (data.take l.bytes)).mem.wf = true := by
    split
    · exact h
    · rw [physWrite_mem]; exact write_wf _ _ _ h
  unfold pullPage; dsimp only
  split
  · split
    · exact h
    · split
      · rw [physWrite_mem]; exact write_wf _ _ _ (h0 _)
      · exact h0 _
  · exact h
theorem pullNow_wf (s : State) (x va : Nat) (root : Option (Nat × Nat)) (h : s.mem.wf = true) : (s.pullNow x va root).mem.wf = true := by
  unfold State.pullNow; split
  · exact pullPage_wf _ _ _ _ _ h
  · exact h
theorem vwriteTry_wf (s : State) (x va : Nat) (w : Word) (a : MemAgent) (h : s.mem.wf = true) : (s.vwriteTry x va w a).mem.wf = true := by
  have h0 := pullNow_wf s x va none h
  unfold State.vwriteTry; dsimp only; split
  · next h' => exact vwrite_wf _ _ _ _ _ _ h0 h'
  · rw [refusal_mem]; exact h0
end Sys2Proof.Laws
end

