-- ==== Sys2Proof/Tests/Slice0.lean ====
section
/-! SUPPORT. Tests: terms that WellFormed refuses, words written out from the encodings of the spec, single steps with
results worked out by hand from the spec, and for each statement a state that meets its hypotheses. -/

namespace Sys2Proof.Tests

set_option Elab.async false
open Sys2Proof Sys2Proof.Machine

/-! WellFormed: for each condition of R56 that a term can meet, a term that meets it, with its cause. -/

def refuses (l : List (Instr × Nat)) : Bool := l.all (fun e => lowestCause (limitsOf e.1) == some e.2 && !WellFormed e.1)
def ve (c : VReg) (r : Rnd) (f : Fmt) (i : BitVec 20) : Option VExt := some { c := c, rnd := r, sf := f, imm := i }

theorem test_refuses_scalar_and_memory : refuses [
    (.shli 0 1 2 (.ext 64), 6), (.shri 0 1 2 (.short 127), 6), (.srai 0 1 2 (.ext 0x80000000), 6), (.shliW 0 1 2 32, 6), (.shriW 0 1 2 64, 6), (.sraiW 0 1 2 127, 6),
    (.sext 0 1 2 0, 6), (.sext 0 1 2 64, 6), (.zext 0 1 2 0, 6), (.zext 0 1 2 100, 6), (.sysr 0 1 0x00B, 6), (.sysw 0 1 0x015, 6),
    (.sysx 0 1 0x080, 6), (.sysr 0 1 0x028, 6), (.sysr 0 1 0x037, 6), (.iwait 0 1 0, 6), (.iwait 0 1 32, 6), (.trap 0 64, 6),
    (.brk 0 64, 6), (.cbcfg 0 1 2 (.bytes 16), 5), (.xlat 0 15 1 false, 7), (.hinv 0 15, 7)] = true := by decide

theorem test_refuses_vector_arithmetic : refuses [
    (.vadd 0 1 2 3 .i4 none, 6), (.vadd 0 1 2 3 .f32 (ve 0 .rne .f16 0), 6), (.vadd 0 1 2 3 .f32 (ve 1 .rne .f32 0), 3),
    (.vadd 0 1 2 3 .f32 (ve 0 .rne .f32 1), 3), (.vsub 0 1 2 3 .i4 none, 6), (.vsub 0 1 2 3 .f32 (ve 0 .rne .f16 0), 6),
    (.vsub 0 1 2 3 .f32 (ve 1 .rne .f32 0), 3), (.vsub 0 1 2 3 .f32 (ve 0 .rne .f32 1), 3), (.vmul 0 1 2 3 .i4 none, 6),
    (.vmul 0 1 2 3 .f32 (ve 0 .rne .f16 0), 6), (.vmul 0 1 2 3 .f32 (ve 1 .rne .f32 0), 3), (.vmul 0 1 2 3 .f32 (ve 0 .rne .f32 1), 3),
    (.vfma 0 1 2 3 .e4m3 none, 6), (.vfma 0 1 2 3 .f32 (ve 0 .rne .f16 0), 6), (.vfma 0 1 2 3 .f32 (ve 0 .rne .f32 1), 3),
    (.vfms 0 1 2 3 .e4m3 none, 6), (.vfms 0 1 2 3 .f32 (ve 0 .rne .f16 0), 6), (.vfms 0 1 2 3 .f32 (ve 0 .rne .f32 1), 3),
    (.vabs 0 1 2 0 .i4 none, 6), (.vabs 0 1 2 0 .f32 (ve 0 .rne .f16 0), 6), (.vabs 0 1 2 3 .f32 none, 3),
    (.vabs 0 1 2 0 .f32 (ve 1 .rne .f32 0), 3), (.vabs 0 1 2 0 .f32 (ve 0 .rne .f32 1), 3), (.vabs 0 1 2 0 .f32 (ve 0 .rtz .f32 0), 3),
    (.vneg 0 1 2 0 .i4 none, 6), (.vneg 0 1 2 0 .f32 (ve 0 .rne .f16 0), 6), (.vneg 0 1 2 3 .f32 none, 3),
    (.vneg 0 1 2 0 .f32 (ve 1 .rne .f32 0), 3), (.vneg 0 1 2 0 .f32 (ve 0 .rne .f32 1), 3), (.vneg 0 1 2 0 .f32 (ve 0 .rtz .f32 0), 3),
    (.vmin 0 1 2 3 .i4 none, 6), (.vmin 0 1 2 3 .f32 (ve 0 .rne .f16 0), 6), (.vmin 0 1 2 3 .f32 (ve 1 .rne .f32 0), 3),
    (.vmin 0 1 2 3 .f32 (ve 0 .rne .f32 1), 3), (.vmin 0 1 2 3 .f32 (ve 0 .rtz .f32 0), 3), (.vmax 0 1 2 3 .i4 none, 6),
    (.vmax 0 1 2 3 .f32 (ve 0 .rne .f16 0), 6), (.vmax 0 1 2 3 .f32 (ve 1 .rne .f32 0), 3), (.vmax 0 1 2 3 .f32 (ve 0 .rne .f32 1), 3),
    (.vmax 0 1 2 3 .f32 (ve 0 .rtz .f32 0), 3), (.vcmpeq 0 1 2 3 .i4 none, 6), (.vcmpeq 0 1 2 3 .f32 (ve 0 .rne .f16 0), 6),
    (.vcmpeq 0 1 2 3 .f32 (ve 1 .rne .f32 0), 3), (.vcmpeq 0 1 2 3 .f32 (ve 0 .rne .f32 1), 3), (.vcmpeq 0 1 2 3 .f32 (ve 0 .rtz .f32 0), 3),
    (.vcmplt 0 1 2 3 .i4 none, 6), (.vcmplt 0 1 2 3 .f32 (ve 0 .rne .f16 0), 6), (.vcmplt 0 1 2 3 .f32 (ve 1 .rne .f32 0), 3),
    (.vcmplt 0 1 2 3 .f32 (ve 0 .rne .f32 1), 3), (.vcmplt 0 1 2 3 .f32 (ve 0 .rtz .f32 0), 3), (.vcmple 0 1 2 3 .i4 none, 6),
    (.vcmple 0 1 2 3 .f32 (ve 0 .rne .f16 0), 6), (.vcmple 0 1 2 3 .f32 (ve 1 .rne .f32 0), 3), (.vcmple 0 1 2 3 .f32 (ve 0 .rne .f32 1), 3),
    (.vcmple 0 1 2 3 .f32 (ve 0 .rtz .f32 0), 3), (.vshl 0 1 2 3 .f32, 6), (.vshr 0 1 2 3 .f32, 6),
    (.vsra 0 1 2 3 .f32, 6), (.vsel 0 1 2 3 .i4 none, 6), (.vsel 0 1 2 3 .f32 (ve 0 .rne .f16 0), 3),
    (.vsel 0 1 2 3 .f32 (ve 0 .rne .f32 1), 3), (.vsel 0 1 2 3 .f32 (ve 0 .rup .f32 0), 3), (.viota 0 1 0 0 .i4 none, 6),
    (.viota 0 1 0 0 .f32 (ve 0 .rne .f16 0), 3), (.viota 0 1 2 0 .f32 none, 3), (.viota 0 1 0 2 .f32 none, 3),
    (.viota 0 1 0 0 .f32 (ve 1 .rne .f32 0), 3)] = true := by decide

theorem test_refuses_vector_conversion_and_reduction : refuses [
    (.vcvt 0 1 2 3 .f32 none, 3), (.vcvt 0 1 2 0 .f32 (ve 1 .rne .f16 0), 3), (.vcvt 0 1 2 0 .f32 (ve 0 .rne .f16 16), 3),
    (.vcvt 0 1 2 0 .f32 (ve 0 .rne .f16 2), 6), (.vcvt 0 1 2 0 .i16 (ve 0 .rne .f32 8), 6), (.vpack 0 1 2 3 .f16 (ve 1 .rne .f32 0), 3),
    (.vpack 0 1 2 3 .f16 (ve 0 .rne .f32 1), 3), (.vpack 0 1 2 3 .f16 (ve 0 .rne .f16 0), 6), (.vpack 0 1 2 3 .i16 (ve 0 .rne .f32 8), 6),
    (.vunpk 0 1 2 3 .f32 (ve 0 .rne .f16 0), 3), (.vunpk 0 1 2 0 .f32 (ve 1 .rne .f16 0), 3), (.vunpk 0 1 2 0 .f32 (ve 0 .rne .f16 2), 3),
    (.vunpk 0 1 2 0 .f32 (ve 0 .rne .f32 0), 6), (.vunpk 0 1 2 0 .i32 (ve 0 .rne .f16 8), 6), (.vquant 0 1 2 3 .e4m3 (ve 1 .rne .f32 0), 3),
    (.vquant 0 1 2 3 .e4m3 (ve 0 .rne .f32 1), 3), (.vquant 0 1 2 3 .e4m3 (ve 0 .rne .bf16 0), 3), (.vquant 0 1 2 3 .f32 (ve 0 .rne .f32 0), 6),
    (.vquant 0 1 2 0 .e4m3 (ve 0 .rne .i8 0), 6), (.vdequant 0 1 2 3 .f32 (ve 0 .rne .e4m3 0), 3), (.vdequant 0 1 2 0 .f32 (ve 1 .rne .e4m3 0), 3),
    (.vdequant 0 1 2 0 .f32 (ve 0 .rne .e4m3 2), 3), (.vdequant 0 1 2 0 .bf16 (ve 0 .rne .e4m3 1), 3), (.vdequant 0 1 2 0 .f16 (ve 0 .rne .e4m3 0), 6),
    (.vtcfg 0 1 2 .clamp .ident 0 0, 3), (.vtcfg 0 1 0 .clamp .ident 0x7F80 0, 6), (.vtcfg 0 1 0 .clamp .ident 0xFFC0 0, 6),
    (.vtab 0 1 2 3 .f32 (ve 1 .rne .f32 0), 3), (.vtab 0 1 2 3 .f32 (ve 0 .rne .f32 1), 3), (.vtab 0 1 2 3 .f32 (ve 0 .rne .bf16 0), 6),
    (.vtab 0 1 2 4 .f32 none, 7), (.vredsum 0 1 2 3 .f32 none, 3), (.vredsum 0 1 2 0 .f32 (ve 1 .rne .f32 0), 3),
    (.vredsum 0 1 2 0 .f32 (ve 0 .rne .f32 1), 3), (.vredsum 0 1 2 0 .i8 (ve 0 .rne .i16 0), 6), (.vredarg 0 1 2 3 .i32 none, 3),
    (.vredarg 0 1 2 0 .i32 (ve 1 .rne .f32 0), 3), (.vredarg 0 1 2 0 .i32 (ve 0 .rne .f32 2), 3), (.vredarg 0 1 2 0 .i32 (ve 0 .rtz .f32 0), 3),
    (.vredarg 0 1 2 0 .i16 (ve 0 .rne .f32 0), 6), (.vscan 0 1 2 3 .i32 none, 3), (.vscan 0 1 2 0 .i32 (ve 1 .rne .i32 0), 3),
    (.vscan 0 1 2 0 .i32 (ve 0 .rne .i32 1), 3), (.vscan 0 1 2 0 .i32 (ve 0 .rne .f32 0), 6), (.vredmax 0 1 2 0 .i4 none, 6),
    (.vredmax 0 1 2 0 .f32 (ve 0 .rne .f16 0), 6), (.vredmax 0 1 2 3 .f32 none, 3), (.vredmax 0 1 2 0 .f32 (ve 1 .rne .f32 0), 3),
    (.vredmax 0 1 2 0 .f32 (ve 0 .rne .f32 1), 3), (.vredmax 0 1 2 0 .f32 (ve 0 .rtz .f32 0), 3), (.vredmin 0 1 2 0 .i4 none, 6),
    (.vredmin 0 1 2 0 .f32 (ve 0 .rne .f16 0), 6), (.vredmin 0 1 2 3 .f32 none, 3), (.vredmin 0 1 2 0 .f32 (ve 1 .rne .f32 0), 3),
    (.vredmin 0 1 2 0 .f32 (ve 0 .rne .f32 1), 3), (.vredmin 0 1 2 0 .f32 (ve 0 .rtz .f32 0), 3), (.vbcast 0 1 2 0 .i4 none, 6),
    (.vbcast 0 1 2 3 .f32 none, 3), (.vbcast 0 1 2 0 .f32 (ve 1 .rne .f32 0), 3), (.vbcast 0 1 2 0 .f32 (ve 0 .rtz .f32 0), 3),
    (.vbcast 0 1 2 0 .f32 (ve 0 .rne .f32 64), 6), (.vins 0 1 2 0 .i4 none, 6), (.vins 0 1 2 3 .f32 none, 3),
    (.vins 0 1 2 0 .f32 (ve 1 .rne .f32 0), 3), (.vins 0 1 2 0 .f32 (ve 0 .rtz .f32 0), 3), (.vins 0 1 2 0 .f32 (ve 0 .rne .f32 64), 6),
    (.vext 0 1 2 0 .i4 none, 6), (.vext 0 1 2 3 .f32 none, 3), (.vext 0 1 2 0 .f32 (ve 1 .rne .f32 0), 3),
    (.vext 0 1 2 0 .f32 (ve 0 .rtz .f32 0), 3), (.vext 0 1 2 0 .f32 (ve 0 .rne .f32 64), 6), (.vperm 0 1 2 3 .i4 none, 6),
    (.vperm 0 1 2 3 .f32 (ve 1 .rne .f32 0), 3), (.vperm 0 1 2 3 .f32 (ve 0 .rtz .f32 0), 3), (.vperm 0 1 2 3 .f32 (ve 0 .rne .f32 1), 3),
    (.vslide 0 1 2 3 .i4 none, 6), (.vslide 0 1 2 3 .f32 (ve 1 .rne .f32 0), 3), (.vslide 0 1 2 3 .f32 (ve 0 .rtz .f32 0), 3),
    (.vslide 0 1 2 3 .f32 (ve 0 .rne .f32 65), 6), (.vrev 0 1 2 0 .i4 none, 6), (.vrev 0 1 2 3 .f32 none, 3),
    (.vrev 0 1 2 0 .f32 (ve 1 .rne .f32 0), 3), (.vrev 0 1 2 0 .f32 (ve 0 .rtz .f32 0), 3), (.vrev 0 1 2 0 .f32 (ve 0 .rne .f32 1), 3)] = true := by decide

theorem test_refuses_matrix : refuses [
    (.mpush 0 0 true, 3), (.mstep 0 0 true, 3), (.macc 0 0 true .next, 3), (.mdrain 0 0 true .next, 3),
    (.mclr 0 0 true, 3), (.mfill 0 0 true .hold, 3), (.mcfg 0 1 .f32 0 2 .f32 .rne, 6), (.mcfg 0 1 .f16 0 2 .f32 .rne, 6),
    (.mcfg 0 1 .i16 0 2 .f32 .rne, 6), (.mcfg 0 1 .i8 0 2 .i4 .rne, 6), (.mcfg 0 1 .i8 48 2 .f32 .rne, 7), (.mrowImm 0 129, 6),
    (.tbind 0 1 15 2 false, 7), (.tpf 0 15 2, 7), (.tinvAddr 0 15 2, 7)] = true := by decide

/-! Decoding: for every instruction with an encoding a word put together from the fields of its row in the opcode table (for vtcfg,
mcfg and twst, whose rows give none, from R44, R124, R179 and R186): slot, syllable, extension word, instruction. -/

def reads (l : List (Nat × Nat × Nat × Instr)) : Bool :=
  l.all (fun e => WellFormed e.2.2.2 && (match decodeSyllable e.1 e.2.1 e.2.2.1 with | .ok i => decide (i = e.2.2.2) | _ => false))

theorem test_decodes_scalar_1 : reads [
    (1, 0x0121872D, 0x0, .add 4 12 14 22 true), (0, 0x023A6CC6, 0x0, .sub 7 19 25 35 false),
    (1, 0x03535261, 0x0, .mul 10 26 36 48 true), (0, 0x046C37FA, 0x0, .mulhi 13 33 47 61 false),
    (1, 0x05051D15, 0x0, .mulhz 0 40 58 10 true), (0, 0x061DE2AE, 0x0, .div 3 47 5 23 false),
    (1, 0x0736C849, 0x0, .divz 6 54 16 36 true), (0, 0x084FADE2, 0x0, .rem 9 61 27 49 false),
    (1, 0x0960937D, 0x0, .remz 12 4 38 62 true), (0, 0x0A797896, 0x0, .and 15 11 49 11),
    (1, 0x0B125E30, 0x0, .or 2 18 60 24), (0, 0x0C2B23CA, 0x0, .xor 5 25 7 37),
    (1, 0x0D440964, 0x0, .andn 8 32 18 50), (0, 0x0E5CEEFE, 0x0, .shl 11 39 29 63 false),
    (1, 0x0F75D419, 0x0, .shr 14 46 40 12 true), (0, 0x100EB9B2, 0x0, .sra 1 53 51 25 false)] = true := by decide

theorem test_decodes_scalar_2 : reads [
    (1, 0x11279F4D, 0x0, .rol 4 60 62 38 true), (0, 0x123864E6, 0x0, .min 7 3 9 51 false),
    (1, 0x13514A01, 0x0, .max 10 10 20 0 true), (0, 0x146A2F9A, 0x0, .minz 13 17 31 13 false),
    (1, 0x15031535, 0x0, .maxz 0 24 42 26 true), (0, 0x201BFAEA, 0x0, .addi 3 31 53 (.short 106)),
    (1, 0x21B4C000, 0x9ABCDF07, .andi 6 38 0 (.ext 0x9ABCDF07)), (0, 0x224DA5E8, 0x0, .ori 9 45 11 (.short 104)),
    (1, 0x23E68B00, 0x9ABCDF09, .xori 12 52 22 (.ext 0x9ABCDF09)), (0, 0x247F70BE, 0x0, .shli 15 59 33 (.short 62)),
    (1, 0x2510563D, 0x0, .shri 2 2 44 (.short 61)), (0, 0x26293BBC, 0x0, .srai 5 9 55 (.short 60)),
    (1, 0x28C20100, 0x9ABCDF0D, .addiW 8 16 2 (.ext 0x9ABCDF0D)), (0, 0x2C5AE69F, 0x0, .shliW 11 23 13 31),
    (1, 0x2D73CC1E, 0x0, .shriW 14 30 24 30), (0, 0x2E0CB19D, 0x0, .sraiW 1 37 35 29)] = true := by decide

theorem test_decodes_scalar_3 : reads [
    (1, 0x4026BB68, 0x0, .cmpeq 4 6 4 46 (.reg 54)), (0, 0x413FE43B, 0x0, .cmpne 7 7 5 57 (.imm 3)),
    (1, 0x42D1100D, 0xF0000023, .cmplt 10 1 6 4 (.ext 0xF0000023)), (0, 0x436A3DDE, 0x0, .cmple 13 2 7 15 (.reg 29)),
    (1, 0x44036AA1, 0x0, .cmpltz 0 3 0 26 (.imm 42)), (0, 0x459C9403, 0xF0000026, .cmplez 3 4 1 37 (.ext 0xF0000026)),
    (1, 0x4835C044, 0x0, .cmpeqW 6 5 2 48 (.reg 4)), (0, 0x494EED17, 0x0, .cmpneW 9 6 3 59 (.imm 17)),
    (1, 0x4AE71809, 0xF0000029, .cmpltW 12 7 4 6 (.ext 0xF0000029)), (0, 0x4B7946BA, 0x0, .cmpleW 15 1 5 17 (.reg 43)),
    (1, 0x4C12738D, 0x0, .cmpltzW 2 2 6 28 (.imm 56)), (0, 0x4DAB9C0F, 0xF000002C, .cmplezW 5 3 7 39 (.ext 0xF000002C)),
    (1, 0x5045A200, 0x0, .pand 8 5 5 0 true false), (0, 0x515DC500, 0x0, .por 11 5 6 1 false true),
    (1, 0x5275EA00, 0x0, .pxor 14 5 7 2 true false), (0, 0x530E6200, 0x0, .pnot 1 6 3 true)] = true := by decide

theorem test_decodes_scalar_4 : reads [
    (1, 0x54200F0C, 0x0, .pset 4 30 6), (0, 0x553C6000, 0x0, .pget 7 35),
    (1, 0x60555A01, 0x0, .clz 10 42 52 true), (0, 0x616E3F80, 0x0, .ctz 13 49 63 false),
    (1, 0x62070501, 0x0, .popc 0 56 10 true), (0, 0x631FEA8E, 0x0, .bext 3 63 21 7),
    (1, 0x6430D028, 0x0, .bins 6 6 32 20), (0, 0x6549B587, 0x0, .sext 9 13 43 7),
    (1, 0x66629B06, 0x0, .zext 12 20 54 6), (0, 0x707B6080, 0x0, .mov 15 27 1),
    (1, 0x71944000, 0x9ABCDF2B, .li 2 34 (.ext 0x9ABCDF2B)), (0, 0x722D2BC4, 0x0, .lih 5 41 23 (.short 68)),
    (0, 0x7844404D, 0x0, .sysr 8 34 77), (0, 0x795DA04E, 0x0, .sysw 11 45 78),
    (0, 0x7A77004F, 0x0, .sysx 14 56 79)] = true := by decide

theorem test_decodes_branch : reads [
    (7, 0x010FFFC0, 0x0, .b 1 524224), (7, 0x0227FFBF, 0x0, .bl 4 524223),
    (7, 0x03380C80, 0x0, .br 7 25), (7, 0x04535200, 0x0, .call 10 26 36),
    (7, 0x05681780, 0x0, .ret 13 47), (7, 0x06001D14, 0x0, .disp 0 58 10),
    (7, 0x201C2CD2, 0x0, .loop 3 2 5 1234), (7, 0x21B607FF, 0x87654321, .loopi 6 3 (.ext 0x87654321) 2047),
    (7, 0x30480000, 0x0, .yield 9), (7, 0x31600000, 0x0, .susp 12),
    (7, 0x32780000, 0x0, .tend 15), (7, 0x33100000, 0x0, .halt 2),
    (7, 0x402B201F, 0x0, .iwait 5 25 31), (7, 0x4140003D, 0x0, .trap 8 61),
    (7, 0x4258003F, 0x0, .brk 11 63), (7, 0x43700000, 0x0, .eret 14)] = true := by decide

theorem test_decodes_memory_1 : reads [
    (2, 0x010EA0CB, 0x0, .ldb 1 53 0 25 .plus2Z), (3, 0x02278334, 0x0, .ldh 4 60 1 38 .plus4Z),
    (2, 0x0338659D, 0x0, .ldw 7 3 2 51 .plus8Z), (3, 0x04D14606, 0xFFFFFF53, .ldd 10 10 3 0 (.bytes 0xFFFFFF53)),
    (2, 0x056A2868, 0x0, .ldbz 13 17 4 13 .zero), (3, 0x06030AD1, 0x0, .ldhz 0 24 5 26 .plusZ),
    (2, 0x071BED3A, 0x0, .ldwz 3 31 6 39 .minusZ), (3, 0x0834CFA3, 0x0, .stb 6 38 7 52 .plus2Z),
    (2, 0x094DB00C, 0x0, .sth 9 45 8 1 .plus4Z), (3, 0x0A669275, 0x0, .stw 12 52 9 14 .plus8Z),
    (2, 0x0BFF74DE, 0xFFFFFF5A, .std 15 59 10 27 (.bytes 0xFFFFFF5A)), (3, 0x0C105740, 0x0, .vld 2 2 11 40 .zero),
    (2, 0x0D2939A9, 0x0, .vst 5 9 12 53 .plusZ), (3, 0x0E421A12, 0x0, .vldb 8 16 13 2 .minusZ),
    (2, 0x405AE078, 0x0, .cbput 11 23 15), (3, 0x4173C0E0, 0x0, .cbget 14 30 28),
    (2, 0x4208A14D, 0x0, .ldc 1 5 0 41 .plus8Z)] = true := by decide

theorem test_decodes_memory_2 : reads [
    (3, 0x43A183B6, 0xFFFFFF61, .stc 4 12 1 54 (.bytes 0xFFFFFF61)), (2, 0x443A6018, 0x0, .cbadvp 7 19 3),
    (3, 0x45534080, 0x0, .cbadvc 10 26 16), (2, 0x46683EE9, 0x0, .cbcfg 13 1 29 .plusZ),
    (3, 0x48010B53, 0x0, .wld4 0 8 5 42 .plus2Z), (2, 0x4919EDBC, 0x0, .wld8 3 15 6 55 .plus4Z),
    (3, 0x6032CE25, 0x0, .ldfe 6 22 7 4 .plus8Z), (2, 0x61CBB08E, 0xFFFFFF68, .stef 9 29 8 17 (.bytes 0xFFFFFF68)),
    (3, 0x626492F0, 0x0, .ldff 12 36 9 30 .zero), (2, 0x637D7559, 0x0, .stff 15 43 10 43 .plusZ),
    (3, 0x641017C2, 0x0, .feset 2 11 56 .minusZ), (2, 0x6528182B, 0x0, .feclr 5 12 5 .plus2Z),
    (3, 0x68C01A92, 0x16D, .ldacq 8 0 13 18 .bulk (some 0x16D)), (2, 0x69D8FCFC, 0x16E, .strel 11 7 14 31 .dev (some 0x16E)),
    (3, 0x6C700006, 0x0, .fence 14 .sys), (2, 0x800AA1C8, 0x0, .amoaddW 1 21 0 57 .core false none),
    (3, 0x81238232, 0x0, .amoaddD 4 28 1 6 .bulk false none)] = true := by decide

theorem test_decodes_memory_3 : reads [
    (2, 0x82BC649D, 0xFFFFFFF8, .amoandW 7 35 2 19 .dev true (some 0xFFFFFFF8)), (3, 0x83554707, 0x0, .amoandD 10 42 3 32 .sys true none),
    (2, 0x846E2968, 0x0, .amoorW 13 49 4 45 .core false none), (3, 0x85870BD2, 0xFFFFFFF8, .amoorD 0 56 5 58 .bulk false (some 0xFFFFFFF8)),
    (2, 0x861FEC3D, 0x0, .amoxorW 3 63 6 7 .dev true none), (3, 0x8730CEA7, 0x0, .amoxorD 6 6 7 20 .sys true none),
    (2, 0x88C9B108, 0xFFFFFFF8, .amominW 9 13 8 33 .core false (some 0xFFFFFFF8)), (3, 0x89629372, 0x0, .amominD 12 20 9 46 .bulk false none),
    (2, 0x8A7B75DD, 0x0, .amomaxW 15 27 10 59 .dev true none), (3, 0x8B945647, 0xFFFFFFF8, .amomaxD 2 34 11 8 .sys true (some 0xFFFFFFF8)),
    (2, 0x8C2D38A8, 0x0, .amominzW 5 41 12 21 .core false none), (3, 0x8D461B12, 0x0, .amominzD 8 48 13 34 .bulk false none),
    (2, 0x8EDEFD7D, 0xFFFFFFF8, .amomaxzW 11 55 14 47 .dev true (some 0xFFFFFFF8)), (3, 0x8F77DFE7, 0x0, .amomaxzD 14 62 15 60 .sys true none),
    (2, 0x9008A048, 0x0, .amoswpW 1 5 0 9 .core false none), (3, 0x91A182B2, 0xFFFFFFF8, .amoswpD 4 12 1 22 .bulk false (some 0xFFFFFFF8)),
    (2, 0x923A451D, 0x0, .amocasW 7 9 2 35 .dev true none)] = true := by decide

theorem test_decodes_memory_4 : reads [
    (3, 0x93534787, 0x0, .amocasD 10 13 3 48 .sys true none), (2, 0x94EC29E8, 0xFFFFFFF8, .amofaddW 13 33 4 61 .core false (some 0xFFFFFFF8)),
    (3, 0xA0050A54, 0x0, .tktwait 0 40 5 10), (2, 0xA1180CBC, 0x0, .tktdone 3 6 23),
    (3, 0xC0312801, 0x0, .xlat 6 9 16 true), (2, 0xC149C000, 0x0, .hinv 9 14),
    (3, 0xC2608582, 0x0, .hget 12 4 11 2), (2, 0xC3796600, 0x0, .hchk 15 11 12),
    (3, 0xD0124EC6, 0x0, .scld 2 18 7 24 .sys), (2, 0xD12B2F28, 0x0, .scst 5 25 7 37 .core),
    (3, 0xD2440F92, 0x0, .scaddW 8 32 7 50 .bulk), (2, 0xD35CEFFC, 0x0, .scaddD 11 39 7 63 .dev),
    (3, 0xE0701E60, 0x0, .wbinv 14 15 12), (2, 0xE10800C8, 0x0, .pfl2 1 0 25)] = true := by decide

theorem test_decodes_vector_1 : reads [
    (4, 0x01A73C60, 0x0, .vadd 4 28 30 6 .f32 (some { c := 0, rnd := .rne, sf := .f32, imm := 0 })), (4, 0x02B8D331, 0x20100000, .vsub 7 3 9 19 .bf16 (some { c := 0, rnd := .rtz, sf := .bf16, imm := 0 })),
    (4, 0x03D2A802, 0x40200000, .vmul 10 10 20 0 .f16 (some { c := 0, rnd := .rdn, sf := .f16, imm := 0 })), (4, 0x04EC7ED7, 0x64700000, .vfma 13 17 31 13 .i16 (some { c := 4, rnd := .rup, sf := .i16, imm := 0 })),
    (4, 0x058615A8, 0x89800000, .vfms 0 24 10 26 .i32 (some { c := 9, rnd := .sto, sf := .i32, imm := 0 })), (4, 0x069FEA00, 0x0, .vabs 3 31 21 0 .f32 (some { c := 0, rnd := .rne, sf := .f32, imm := 0 })),
    (4, 0x07B18001, 0x100000, .vneg 6 6 0 0 .bf16 (some { c := 0, rnd := .rne, sf := .bf16, imm := 0 })), (4, 0x08CB5612, 0x200000, .vmin 9 13 11 1 .f16 (some { c := 0, rnd := .rne, sf := .f16, imm := 0 })),
    (4, 0x09E52CE7, 0x700000, .vmax 12 20 22 14 .i16 (some { c := 0, rnd := .rne, sf := .i16, imm := 0 })), (4, 0x107EC3B0, 0x0, .vand 15 27 1 27),
    (4, 0x11109880, 0x0, .vor 2 2 12 8), (4, 0x122A6F50, 0x0, .vxor 5 9 23 21),
    (4, 0x13440427, 0x0, .vshl 8 16 2 2 .i16), (4, 0x145DDAF8, 0x0, .vshr 11 23 13 15 .i32)] = true := by decide

theorem test_decodes_vector_2 : reads [
    (4, 0x1577B1C6, 0x0, .vsra 14 30 24 28 .i8), (4, 0x20894690, 0x0, .vcmpeq 1 5 3 9 .f32 (some { c := 0, rnd := .rne, sf := .f32, imm := 0 })),
    (4, 0x21231D61, 0x0, .vcmplt 4 12 14 22 .bf16 none), (4, 0x22BCF232, 0x200000, .vcmple 7 19 25 3 .f16 (some { c := 0, rnd := .rne, sf := .f16, imm := 0 })),
    (4, 0x23D68907, 0xF000000, .vsel 10 26 4 16 .i16 (some { c := 15, rnd := .rne, sf := .f32, imm := 0 })), (4, 0x30685E00, 0x0, .vmov 13 1 15),
    (4, 0x31020000, 0x0, .vzero 0 8), (4, 0x329BC001, 0xFFFFE, .viota 3 15 0 0 .bf16 (some { c := 0, rnd := .rne, sf := .f32, imm := 1048574 })),
    (4, 0x60B5A000, 0x6030000B, .vcvt 6 22 16 0 .f32 (some { c := 0, rnd := .rup, sf := .e4m3, imm := 11 })), (4, 0x61CF7713, 0x80100008, .vpack 9 29 27 17 .e4m3 (some { c := 0, rnd := .sto, sf := .bf16, imm := 8 })),
    (4, 0x62E10C02, 0x20500009, .vunpk 12 4 6 0 .f16 (some { c := 0, rnd := .rtz, sf := .mk8, imm := 9 })), (4, 0x63FAE2B9, 0x40000000, .vquant 15 11 17 11 .i4 (some { c := 0, rnd := .rdn, sf := .f32, imm := 0 })),
    (4, 0x6494B800, 0x600001, .vdequant 2 18 28 0 .f32 (some { c := 0, rnd := .rne, sf := .i8, imm := 1 })), (4, 0x80288E00, 0x0, .vtld 5 2 7)] = true := by decide

theorem test_decodes_vector_3 : reads [
    (4, 0x82D9FA31, 0x200000, .vtab 11 7 29 3 .bf16 (some { c := 0, rnd := .rne, sf := .f16, imm := 0 })), (4, 0xA0F39008, 0x900000, .vredsum 14 14 8 0 .i32 (some { c := 0, rnd := .rne, sf := .i4, imm := 0 })),
    (4, 0xA18D6601, 0x100000, .vredmax 1 21 19 0 .bf16 (some { c := 0, rnd := .rne, sf := .bf16, imm := 0 })), (4, 0xA2A73C02, 0x200000, .vredmin 4 28 30 0 .f16 (some { c := 0, rnd := .rne, sf := .f16, imm := 0 })),
    (4, 0xA3B8D208, 0x200001, .vredarg 7 3 9 0 .i32 (some { c := 0, rnd := .rne, sf := .f16, imm := 1 })), (4, 0xA4D2A808, 0x600000, .vscan 10 10 20 0 .i32 (some { c := 0, rnd := .rne, sf := .i8, imm := 0 })),
    (4, 0xB0EC7E00, 0x1F, .vbcast 13 17 31 0 .f32 (some { c := 0, rnd := .rne, sf := .f32, imm := 31 })), (4, 0xB1861401, 0x1F, .vins 0 24 10 0 .bf16 (some { c := 0, rnd := .rne, sf := .f32, imm := 31 })),
    (4, 0xB29FEA02, 0x1F, .vext 3 31 21 0 .f16 (some { c := 0, rnd := .rne, sf := .f32, imm := 31 })), (4, 0xB3B18147, 0x0, .vperm 6 6 0 20 .i16 (some { c := 0, rnd := .rne, sf := .f32, imm := 0 })),
    (4, 0xB4CB5618, 0x20, .vslide 9 13 11 1 .i32 (some { c := 0, rnd := .rne, sf := .f32, imm := 32 })), (4, 0xB5652C00, 0x0, .vrev 12 20 22 0 .f32 none),
    (4, 0x81908E70, 0x8C100, .vtcfg 2 2 7 .const .ident 0xC100 8)] = true := by decide

theorem test_decodes_matrix_1 : reads [
    (5, 0x017DDC00, 0x0, .mpush 15 187 true), (5, 0x0215E400, 0x0, .mstep 2 188 true),
    (5, 0x032DEA00, 0x0, .macc 5 189 false .rewind), (5, 0x0445F000, 0x0, .mdrain 8 190 false .next),
    (5, 0x055DFC00, 0x0, .mclr 11 191 true), (5, 0x06760200, 0x0, .mfill 14 192 false .rewind),
    (5, 0x21200800, 0x0, .mmode 4 true), (5, 0x2238C800, 0x0, .mrowReg 7 25),
    (5, 0x22540400, 0x0, .mrowImm 10 128), (5, 0x406EB7A1, 0x0, .tbind 13 13 6 61 true)] = true := by decide

theorem test_decodes_matrix_2 : reads [
    (5, 0x41028000, 0x0, .tunbind 0 5), (5, 0x421B0000, 0x0, .tpin 3 6),
    (5, 0x43338000, 0x0, .tunpin 6 7), (5, 0x44482E20, 0x0, .tpf 9 5 49),
    (5, 0x456037C0, 0x0, .tinvAddr 12 6 62), (5, 0x457D0001, 0x0, .tinvBinding 15 10),
    (5, 0x47450400, 0x0, .tstat 8 10 32), (5, 0x208D5AF0, 0xF4400000, .mcfg 1 21 .i8 47 30 .i32 .sto),
    (5, 0x46848420, 0xA5, .twst 0 9 33 0xA5), (5, 0x46C50441, 0x11, .twstRow 8 10 34 17)] = true := by decide

theorem test_decodes_engine_1 : reads [
    (6, 0x01DDBBF9, 0x1234, .cpy 11 11 29 63 true (some 0x1234)), (6, 0x0277D000, 0x0, .cpy2 14 15 40),
    (6, 0x030866CD, 0x0, .gath 1 0 51 25 5 none), (6, 0x0420FD35, 0x0, .scat 4 1 62 38 5 none),
    (6, 0x05B91200, 0x3, .kvw 7 2 9 (some 3)), (6, 0x0651A800, 0x0, .cpyr 10 3 20),
    (6, 0x406A3E00, 0x0, .cred 13 4 31), (6, 0x4102D400, 0x0, .cgath 0 5 42),
    (6, 0xA09B6A01, 0x8F, .bul 3 6 53 true (some 0x8F)), (6, 0x60338005, 0x0, .tlwait 6 7 0 5)] = true := by decide

theorem test_decodes_engine_2 : reads [
    (6, 0x614C5A02, 0x0, .tlget 9 8 45 .errc), (6, 0x6264AC00, 0x0, .tlsig 12 9 22),
    (6, 0x807842D8, 0x0, .gjoin 15 33 27), (6, 0x81105800, 0x0, .gleave 2 44),
    (6, 0x82286E07, 0x0, .gbar 5 55 7), (6, 0x83400484, 0x0, .gwait 8 16 4 2),
    (6, 0x88581A00, 0x0, .tspawn 11 13), (6, 0x89703000, 0x0, .tdec 14 24),
    (6, 0x8A084748, 0x0, .tarm 1 35 41)] = true := by decide

/-- The moves, with 0x8001 as the word that follows. -/
theorem test_decodes_moves : List.all [
    (0x0000, .moveNull .zero 0), (0x0414, .moveRowk .kel 1), (0x0828, .moveFmaA .qel 2), (0x0C3C, .moveFmaT .acc 3),
    (0x1040, .moveAcc .lc 0), (0x1454, .moveOut .acc1 1), (0x1868, .moveLcSet .addR 2), (0x1C7C, .moveLcT .mulR 3),
    (0x2080, .moveBr .kidx 0), (0x2494, .moveEnd .oidx 1), (0xFCA8, .moveAcc1 (.imm 0x8001) 2), (0x00BC, .moveFmaT1 .zero 3),
    (0x04C0, .moveAddA .kel 0), (0x08D4, .moveAddT .qel 1), (0x0CE8, .moveMulA .acc 2), (0x10FC, .moveMulT .lc 3),
    (0x1500, .moveCmpA .acc1 0), (0x1914, .moveCmpT .addR 1)] (fun e : Nat × Instr => decide (decodeMove e.1 0x8001 = some e.2)) = true := by decide

def rejected (slot w ext : Nat) : Nat := match decodeSyllable slot w ext with | .error n => n | .ok _ => 0
/-- R50, R56, R72, R320: the illegal opcode, unassigned opcodes, a system-register move in SB, X where the map says never, X missing
where it says req, a bit that must be 0, a reserved bit of a move. -/
theorem test_decode_rejects : rejected 0 0xFF000000 0 = 1 ∧ rejected 4 0xC0000000 0 = 1 ∧ rejected 1 0x78002000 0 = 2 ∧
    rejected 0 0x0F800000 0 = 4 ∧ rejected 5 0x20000400 0 = 5 ∧ rejected 0 0x0A000001 0 = 3 ∧ decodeMove 0x0001 0 = none := by decide
/-! States for the witnesses: one core, and memory with a page table that maps the first GiB of context 0 on itself. -/

def at_ (k : Core) : State := { State.reset with cores := [(0, k)] }
def tables : Memory :=
  Memory.write (Memory.write (Memory.write [] 0x2000 (natToBytes 8 0x4001)) 0x4000 (natToBytes 8 0x6001)) 0x6000
    (natToBytes 8 0xA03 ++ natToBytes 8 0x1000007FFF)
def run0 : Running := { recA := 0x8000, ctx := 0, part := 0, group := 0, node := 0, param := 0, frame := 0x9000 }
/-- Partition 0 is bulkhead 0; context 0 exists and has its root at 0x2000. -/
def paged (k : Core) : State :=
  { at_ k with mem := tables, hub := [(0, 0x8000000000000000), (0x200000, 0x8000000000000000), (0x200008, 0x2000)] }
/-- Handle 1: a valid page of 1 MiB at virtual 0x100000, mapped on itself, pinned and homed in bulkhead 0; handle 2 the same with
no permission, handle 3 read-only and not pinned. -/
def handles : SMap Handle :=
  [(1, { state := 2, vbase := 0x100000, pbase := 0x100000, limit := 0x100000, leaf := 0x1000007FFF, size := 10 }),
   (2, { state := 2, vbase := 0x100000, pbase := 0x100000, limit := 0x100000, leaf := 0x1000000000, size := 10 }),
   (3, { state := 2, vbase := 0x100000, pbase := 0x100000, limit := 0x100000, leaf := 0x7FFF, size := 10, ronly := true }),
   (4, { state := 2, vbase := 0x100000, pbase := 0x20000000000, limit := 0x100000, leaf := 0x1000007FFF, size := 10 }),
   (5, { state := 1 }), (6, { state := 3, cause := 2 })]
/-! Witnesses: for each statement a state and operands that meet its hypotheses, clause by clause, at the ends of their ranges. -/

theorem witness_guards : (at_ {}).live 0 ∧ (at_ { p := 3 }).live 1 ∧ (at_ {}).live 9 ∧ (at_ { p := 0xFF }).live 7 := by
  unfold State.live; decide
theorem witness_shift_amounts : (∀ m ∈ [Imm.short 0, .short 63, .ext 63], WellFormed (.shli 0 1 2 m) = true) ∧
    (∀ i ∈ [(0 : BitVec 7), 31], WellFormed (.shliW 0 1 2 i) = true) := by decide
theorem witness_field_widths : ∀ k ∈ [(1 : BitVec 7), 63], WellFormed (.sext 0 1 2 k) = true := by decide

def seg0 : Seg := { head := 0x1000, next := 0x3000, hint := 0, words := [0x01000000, 0x70000000, 0x00000080], bad := 0 }
theorem witness_branch : (0x1010 : Int) = ((0x1018 : Nat) : Int) + 4 * (0x7FFFE : BitVec 19).toInt ∧
    (0xFFFFFFFFFFFC : Nat) < 2 ^ 48 ∧ ((0xFFFFFFFFFFFC : Nat) : Int) = ((0xFFFFFFF00000 : Nat) : Int) + 4 * (0x3FFFF : BitVec 19).toInt ∧
    (0 : Int) = ((0x100000 : Nat) : Int) + 4 * (0x40000 : BitVec 19).toInt ∧
    seg0.holds 0x1010 = true ∧ seg0.holds 0x1018 = true ∧ seg0.holds 0x1014 = false ∧ seg0.first ≠ 0x1014 := by decide
theorem witness_transfer_inside : targetPasses { seg := some seg0 } 0x1018 :=
  ⟨by decide, by decide, Or.inl ⟨seg0, rfl, by decide, by decide⟩⟩
theorem witness_transfer_outside : targetPasses {} 0xFFFFFFFFFFF0 :=
  ⟨by decide, by decide, Or.inr ⟨(fun _ h => nomatch h), by decide⟩⟩
theorem witness_transfer_refused : ¬ targetPasses { seg := some seg0 } 0x1014 ∧ ¬ targetPasses {} 0x1000000000000 ∧ ¬ targetPasses {} 0x1008 := by
  refine ⟨?_, fun h => absurd h.1 (by decide), ?_⟩
  · rintro ⟨-, -, ⟨sg, h, -, h2⟩ | ⟨h, -⟩⟩
    · cases h; exact absurd h2 (by decide)
    · exact absurd (h _ rfl) (by decide)
  · rintro ⟨-, -, ⟨sg, h, -⟩ | ⟨-, h⟩⟩
    · cases h
    · exact absurd h (by decide)

/-- A core whose slot 0 still has to issue an earlier bundle. -/
def lagging (k : Core) : Core := { k with nextIdx := 1, slots := {} :: List.replicate 7 { next := 1 } }
theorem witness_slots_behind : (∀ j, j < 7 → (at_ {}).me.nextIdx ≤ ((at_ {}).me.slot j).next) ∧
    ((at_ (lagging {})).me.slot 0).next < (at_ (lagging {})).me.nextIdx := by decide
theorem witness_transfer_refused_behind : ¬ targetPasses (lagging {}) 0x1000000000000 := fun h => absurd h.1 (by decide)

/-- Bounds 3, 5, 5, and so on; the table of dispatch at the end of the scratchpad, every entry naming 0x20. -/
def dispatcher : Core :=
  { sys := [(0x18, 3), (0x19, 5), (0x1A, 5), (0x1B, 5), (0x1C, 5), (0x1D, 5), (0x1E, 5), (0x1F, 9)]
    scratch := (List.range 10).map (fun i => (0xFFFB0 + 8 * i, 0x20)) }
theorem witness_dispatch : 0xFFFB8 + 80 > 0x100000 ∧ 0xFFFB0 + 80 ≤ 0x100000 ∧ 0xFFFB0 % 8 = 0 ∧ (0xFFFAC + 80 ≤ 0x100000 ∧ 0xFFFAC % 8 ≠ 0) ∧
    (let bkt (i : Nat) : Nat := (readSys (at_ dispatcher) 0 (0x18 + i)).toNat % 2 ^ 32
     (3 ≤ bkt 0 ∧ ∀ j, j < 0 → bkt j < 3) ∧ (4 ≤ bkt 1 ∧ ∀ j, j < 1 → bkt j < 4) ∧ (9 ≤ bkt 7 ∧ ∀ j, j < 7 → bkt j < 9) ∧ (∀ i, i < 8 → bkt i < 10)) ∧
    (∀ e ∈ [0, 1, 9], bytesToWord (dispatcher.gatedView.scratchRead (0xFFFB0 + 8 * e) 8) = 0x20) := by decide
theorem witness_dispatch_waits : (let s := at_ { dispatcher with dispAt := some 0xFFFB0 }
    s.me.dispAt = some 0xFFFB0 ∧ s.me.flights = [] ∧ bytesToWord (s.me.gatedView.scratchRead 0xFFFB0 8) = 0x20) := by decide
theorem witness_dispatch_entry : targetPasses dispatcher 0x20 := ⟨by decide, by decide, Or.inr ⟨(fun _ h => nomatch h), by decide⟩⟩

theorem witness_loop_start : (at_ {}).me.loops.length = 4 ∧ seg0.fall 0x1018 (seg0.bundleAt 0x1018) ≠ 0 := by decide
def looping (n : W32) : State := at_ { loops := [{}, { count := n, active := true, first := 0x1010, last := 0x1018 }, {}, {}] }
abbrev endsLoop (n : W32) : Prop := ((looping n).core 0).loops.length = 4 ∧ wbit (((looping n).core 0).sysReg 8) 63 = false ∧
    (((looping n).core 0).loop 1).active = true ∧ (((looping n).core 0).loop 1).last = 0x1018 ∧ (((looping n).core 0).loop 1).count ≠ 0 ∧
    (∀ j, j < 4 → j ≠ 1 → (((looping n).core 0).loop j).active = false)
theorem witness_loop_end : endsLoop 1 ∧ endsLoop 0xFFFFFFFF := by decide +kernel

def ending (f : Nat) : State := paged { running := some { run0 with frame := f }, sys := [(0x31, 0x2000)] }
theorem witness_run_ends : (ending 0x9000).me.running = some run0 ∧ (ending 0x9000).me.mark.armed = false ∧ drained (ending 0x9000) 0 = true ∧
    run0.frame ≠ 0 ∧ run0.group = 0 ∧ run0.node = 0 ∧ (ending 0).me.running = some { run0 with frame := 0 } ∧ drained (ending 0) 0 = true := by decide
theorem witness_run_saves : (let i := Instr.yield 0
    let t := ((ending 0x9000).weighs 1).modMe (fun k => { k with drain := .op i 0 0 false 0 })
    (saveContinuation (t.setCore 0 (t.me.endBundle 0).1) 0 (((ending 0x9000).safePoint 0 0).getD { adr := 0 }) 1 ((t.me.endBundle 0).2.getD 0)).2 = none) ∧
    (let i := Instr.susp 0
     let t := ((ending 0x9000).weighs 1).modMe (fun k => { k with drain := .op i 0 0 false 0 })
     (saveContinuation (t.setCore 0 (t.me.endBundle 0).1) 0 (((ending 0x9000).safePoint 0 0).getD { adr := 0 }) 2 ((t.me.endBundle 0).2.getD 0)).2 = none) ∧
    (∀ l, l < 4 → ((ending 0x9000).me.loop l).active = false) := by decide +kernel
theorem witness_iwait : drained (at_ {}) 0 = true ∧ (at_ {}).now.safe = false ∧ wbits ((at_ {}).me.sysReg 9) 0 5 &&& 31 = 0 ∧
    wbits ((at_ { sys := [(9, 0x11)] }).me.sysReg 9) 0 5 &&& 16 ≠ 0 ∧ drained (at_ { sys := [(9, 0x11)] }) 0 = true ∧
    (∀ l, l < 4 → ((at_ { sys := [(9, 0x11)] }).me.loop l).active = false) := by decide

def runs : Core := { running := some run0 }
/-- A core with a handler at 0x8000. -/
def handled : Core := { sys := [(6, 0x8000)] }
def rec0 : TrapRec := { code := 255, cause := 255, res := 3, slot := 7, hnd := 15, gen := 0xFFFF, adr := 0xFFFFFFFFFFFF, va := 2 ^ 57 - 1 }
theorem witness_trap : (at_ handled).me.svc = false ∧ (at_ handled).me.mark.armed = false ∧ wbits ((at_ handled).me.sysReg 6) 4 44 ≠ 0 ∧
    rec0.note = false ∧ rec0.after = false ∧ ((at_ handled).me.flights.filter (fun f => !f.walks)).length + (at_ handled).me.comingElems.length ≤ 64 ∧ rec0.code < 256 ∧
    rec0.cause < 256 ∧ rec0.res < 4 ∧ rec0.slot < 8 ∧ rec0.hnd < 16 ∧ rec0.gen < 2 ^ 16 ∧ rec0.adr < 2 ^ 48 ∧ rec0.va < 2 ^ 57 ∧
    (at_ handled).me.landsNow = [] ∧ (∀ f ∈ (at_ handled).me.flights, ∀ e sel r n, f.what ≠ .tlSample e sel r n) :=
  ⟨by decide, by decide, by decide, rfl, rfl, by decide, by decide, by decide, by decide, by decide, by decide, by decide, by decide, by decide, by decide,
    fun f h => by rw [show (at_ handled).me.flights = [] from by decide] at h; cases h⟩
/-- A tlget whose sample comes in its third cycle. -/
def sampling : Core := { handled with flights := [{ slot := 6, due := 3, seq := 0, what := .tlSample 0 .count 1 (0 + 1) }] }
theorem witness_trap_before_sample : (at_ sampling).me.svc = false ∧ wbits ((at_ sampling).me.sysReg 6) 4 44 ≠ 0 ∧
    ((at_ sampling).me.flights.filter (fun f => !f.walks)).length + (at_ sampling).me.comingElems.length ≤ 64 ∧
    (at_ sampling).me.flights = [{ slot := 6, due := 3, seq := 0, what := .tlSample 0 .count 1 (0 + 1) }] := by decide
theorem witness_trap_without_handler : (at_ {}).me.svc = false ∧ wbits ((at_ {}).me.sysReg 6) 4 44 = 0 := by decide
theorem witness_trap_in_service : (at_ { sys := [(3, 0x8000000000000000), (6, 0x8000)] }).me.svc = true := by decide
theorem witness_trap_rolls_back : (let k := (at_ { handled with mark := { armed := true } }).me
    k.svc = false ∧ wbits (k.sysReg 6) 4 44 ≠ 0 ∧ k.mark.armed = true ∧ k.flights = []) := by decide
theorem witness_software_traps : (at_ {}).me.running = none ∧
    (let s := at_ { running := some { run0 with flagged := true } }
     s.me.running = some { run0 with flagged := true }) ∧ (paged runs).me.running = some run0 ∧ run0.flagged = false ∧
    (∀ k ∈ [runs, {}], let r := resolveBranch ((at_ k).weighs 1) 0 0 0
      (∀ j, j < 7 → r.me.nextIdx ≤ (r.me.slot j).next)) ∧
    (∀ k ∈ [lagging runs, lagging {}], let r := resolveBranch ((at_ k).weighs 1) 0 0 0
      ¬ ∀ j, j < 7 → r.me.nextIdx ≤ (r.me.slot j).next) := by decide
def frozen0 (res : Nat) : State :=
  at_ { sys := [(3, BitVec.ofNat 64 (2 ^ 63 + res * 2 ^ 56)), (6, 0x8000)], frozen := some ((({} : Core).freezeState { code := 4, cause := 0, res := res } res false [])) }
theorem witness_return : ∀ res ∈ [0, 1, 2, 3], drained (frozen0 res) 0 = true ∧ (frozen0 res).me.frozen.isSome = true ∧
    wbits ((frozen0 res).me.sysReg 3) 56 2 = res := by decide
/-- A core whose s1 holds an offset. -/
def edge (x : Word) : State := at_ { s := [(1, x)] }
abbrev atEnd (z : Nat) : Prop :=
  (let a := ((edge (BitVec.ofNat 64 (0x100000 - z))).offset 1 (stepBytes .plusZ z)).toNat
   a + z ≤ 0x100000 ∧ a % max 1 (min z 256) = 0 ∧ (edge 0).me.gatedView.scratchPoisoned a z = false)
theorem witness_scratchpad : atEnd 1 ∧ atEnd 2 ∧ atEnd 4 ∧ atEnd 8 ∧ atEnd 64 ∧ atEnd 128 ∧ atEnd 256 := by decide +kernel

def near : State := paged { h := handles, s := [(1, 0xFFF00)] }
abbrev nearGoes (h z : Nat) (wr p8 : Bool) : Prop :=
  near.access 0 h (near.offset 1 (stepBytes .zero z)) z wr false p8 = .ok (.mem 0x1FFF00 0 ((near.handle 0 h).leaf.toNat)) ∧
    ((near.viewOf 0).homeRead near.me.partOf 0 0x1FFF00 z).2.1 = stGood
theorem witness_near_loads : farCause near 0 0x1000007FFF 0x1FFF00 = 0 ∧ nearGoes 1 1 false false ∧ nearGoes 1 2 false false ∧ nearGoes 1 4 false false ∧
    nearGoes 1 8 false true ∧ nearGoes 1 8 false false ∧ nearGoes 1 64 false false ∧ nearGoes 1 128 false false ∧ nearGoes 1 256 false false := by decide +kernel
theorem witness_far_loads : farCause near 0 0x7FFF 0x1FFF00 = 2 ∧ nearGoes 3 1 false false ∧ nearGoes 3 2 false false ∧ nearGoes 3 4 false false ∧
    nearGoes 3 8 false true ∧ nearGoes 3 8 false false ∧ nearGoes 3 64 false false ∧ nearGoes 3 128 false false ∧ nearGoes 3 256 false false := by decide +kernel
theorem witness_posted_stores : near.queued 0 < 16 ∧ nearGoes 1 1 true false ∧ nearGoes 1 2 true false ∧ nearGoes 1 4 true false ∧
    nearGoes 1 8 true true ∧ nearGoes 1 256 true false := by decide +kernel
/-- The management core, with s1 at the last word of the management space and s2 at that of the hub space. -/
def manager : State := { State.reset with cur := 256, cores := [(256, { s := [(1, 0x1FFFF8), (2, 0x3FFFF8)] })] }
theorem witness_spaces : manager.access 256 14 (manager.offset 1 0) 8 false false true = .ok (.space false 0x1FFFF8) ∧
    manager.access 256 13 (manager.offset 2 0) 8 true false true = .ok (.space true 0x3FFFF8) := by decide +kernel
theorem witness_access_checks : (near.handle 0 0).state = 0 ∧ (near.handle 0 14).state = 0 ∧ isMgmt near.cur = false ∧ (near.handle 0 5).state = 1 ∧
    (near.handle 0 6).state = 3 ∧ (near.handle 0 1).state = 2 ∧ (0xFFFF9 : Word).toNat + 8 > (near.handle 0 1).limit ∧
    (0xFFFF8 : Word).toNat + 8 ≤ (near.handle 0 1).limit ∧ ((near.handle 0 1).vbase.toNat + (0xFFFF8 : Word).toNat) % max 1 (min 8 256) = 0 ∧
    ((near.handle 0 1).vbase.toNat + (0xFFFF7 : Word).toNat) % max 1 (min 8 256) ≠ 0 ∧
    permRefusal .core false false (near.handle 0 2).ronly (near.handle 0 2).leaf.toNat = some 1 ∧
    permRefusal .core true false (near.handle 0 3).ronly (near.handle 0 3).leaf.toNat = some 3 ∧
    permRefusal .core false false (near.handle 0 4).ronly (near.handle 0 4).leaf.toNat = none ∧ regionOf ((near.handle 0 4).pbase + 0) = .aperture ∧
    permRefusal .core true true (near.handle 0 1).ronly (near.handle 0 1).leaf.toNat = none ∧ regionOf ((near.handle 0 1).pbase + 0xFFFF8) ≠ .aperture := by decide +kernel

/-- Buffer 0 is not configured; buffer 1 has four elements of 256 bytes, all there; buffer 2 four free places; buffer 3 elements of 512 bytes. -/
def buffers : SMap Cb :=
  [(1, { conf := true, base := 0, cap := 4, esz := 8, cnt := 4, gen := 2 }), (2, { conf := true, base := 0x400, cap := 4, esz := 8, room := 4, gen := 2 }),
   (3, { conf := true, base := 0x800, cap := 1, esz := 9, room := 1, gen := 2 })]
def buffered : State := paged { cb := buffers, h := handles, s := [(1, 4), (2, 5), (3, 0x1000), (4, 0)] }
theorem witness_buffer_moves : (buffered.me.cbReg 0).conf = false ∧ (buffered.me.cbReg 1).conf = true ∧ (buffered.me.cbReg 1).esz ≤ 8 ∧ 1 ≤ (buffered.me.cbReg 1).cap ∧
    1 ≤ (buffered.me.cbReg 1).cnt ∧ (buffered.me.cbReg 1).room = 0 ∧ (buffered.me.element (buffered.me.cbReg 1) 0).2 = false ∧
    1 ≤ (buffered.me.cbReg 2).room ∧ (buffered.me.cbReg 2).cnt = 0 ∧ (buffered.me.rs 1).toNat ≤ (buffered.me.cbReg 1).cnt ∧
    (buffered.me.rs 1).toNat ≤ (buffered.me.cbReg 2).room ∧ (buffered.me.cbReg 1).room < (buffered.me.rs 1).toNat ∧ (buffered.me.cbReg 2).cnt < (buffered.me.rs 1).toNat ∧
    (buffered.me.cbReg 1).cap < (buffered.me.rs 2).toNat ∧ 8 < (buffered.me.cbReg 3).esz := by decide +kernel
theorem witness_buffer_elements : (buffered.handle 0 15).state ≠ 1 ∧ (buffered.handle 0 1).state ≠ 1 ∧ buffered.queued 0 < 16 ∧
    buffered.access 0 15 (buffered.offset 3 (stepBytes .zero 256)) 256 false false false = .ok (.scratch 0x1000) ∧
    buffered.access 0 1 (buffered.offset 3 (stepBytes .zero 256)) 256 false false false = .ok (.mem 0x101000 0 0x1000007FFF) ∧
    buffered.access 0 1 (buffered.offset 3 (stepBytes .zero 256)) 256 true false false = .ok (.mem 0x101000 0 0x1000007FFF) := by decide +kernel
/-- A descriptor at 0xFFFF0: base 0x1000, 4,096 elements of 1 byte, one of them there. -/
def described : State := at_ { scratch := Memory.write [] 0xFFFF0 (natToBytes 16 (0x1000 + 4096 * 2 ^ 32 + 1 * 2 ^ 64 + 1 * 2 ^ 96)), s := [(1, 0xFFFF0)] }
theorem witness_descriptor : (let a := (described.offset 1 (stepBytes .zero 16)).toNat
    a + 16 ≤ 0x100000 ∧ a % max 1 (min 16 256) = 0 ∧ described.me.gatedView.scratchPoisoned a 16 = false ∧
      (parseDescriptor (bytesToNat (described.me.gatedView.scratchRead a 16))).isSome = true) := by decide +kernel
def word (full : Bool) : State := at_ { s := [(1, 0xFFFF8)], full := if full then [0x1FFFF] else [] }
theorem witness_full_empty : (let a := ((word true).offset 1 (stepBytes .zero 8)).toNat
    a + 8 ≤ 0x100000 ∧ a % max 1 (min 8 256) = 0 ∧ (word true).me.isFull a = true ∧ (word false).me.isFull a = false ∧
      (word true).me.scratchPoisoned a 8 = false ∧ (word true).me.flights = [] ∧ (word true).me.mark.gated = [] ∧
      (word false).me.passedBundles 0 0 a = true ∧ (word true).me.passedBundles 0 0 a = true ∧ (word false).me.downNote = false ∧
      ((word false).modMe lagging).me.passedBundles 1 2 a = false ∧ ((word true).modMe (fun k => { k with downNote := true })).me.downNote = true ∧ (word true).me.fillHeld a = false ∧ (word true).me.fills = [] ∧
      ((word true).modMe (fun k => { lagging k with fills := [(0xFFFF8, 1, 2)] })).me.fillHeld a = true) := by decide +kernel
/-- A core whose interface queue is full of requests that its operation of place 0 does not wait for. -/
def crowded : State := { near with fabric := List.replicate 16 { core := 0, slot := 2, op := .store, size := 8, pa := 0, home := 0, part := 0, ctx := 0, idx := 5, seq := 9, limited := true } }
theorem witness_handle_operations : (near.handle 0 1).state ≠ 1 ∧ (near.handle 0 5).state = 1 ∧ near.queued 0 < 16 ∧ near.fabric = [] ∧ 16 ≤ crowded.queued 0 ∧
    crowded.access 0 1 (crowded.offset 1 0) 1 false false false = .ok (.mem 0x1FFF00 0 0x1000007FFF) ∧
    near.access 0 1 (near.offset 1 0) 1 false false false = .ok (.mem 0x1FFF00 0 0x1000007FFF) ∧
    near.access 0 0 (near.offset 1 0) 1 false false false = .trap { code := 8, cause := 1, res := 1, hnd := 0 } := by decide +kernel

theorem witness_own_atomics : (let s := edge 0xFFFF8
    let a := (s.offset 1 (atStep (some 8))).toNat
    let done := commitGated (s.weighs 6) s.cur s.now.seq
    s.me.flights = [] ∧ s.me.mark.gated = [] ∧ (s.me.slot s.now.slot).waiting = none ∧ a + 8 ≤ 0x100000 ∧ a % max 1 (min 8 256) = 0 ∧ a % max 1 (min 4 256) = 0 ∧
      s.me.scratchPoisoned a 8 = false ∧ (at_ { s := [(1, 0xFFFF8)], marks := [0x3FFF] }).me.scratchPoisoned a 4 = true ∧
      done.performed s.cur .sys s.now.idx s.now.seq s.now.slot = true ∧ done.performed s.cur .core s.now.idx s.now.seq s.now.slot = true ∧ done.me.downNote = false) := by decide +kernel
/-- Slot 0 has sent a request with offset 0xFF8, and has or has not its reply. -/
def asked (y : Option Reply) : State := paged { h := handles, slots := [{ waiting := some 1, sent := 0xFF8, reply := y }, {}, {}, {}, {}, {}, {}, {}] }
theorem witness_home_atomics : (near.me.slot 0).waiting = none ∧ near.access 0 1 (near.offset 1 (atStep none)) 8 true true false = .ok (.mem 0x1FFF00 0 0x1000007FFF) ∧
    near.access 0 1 (near.offset 1 (atStep none)) 4 true true false = .ok (.mem 0x1FFF00 0 0x1000007FFF) ∧
    (commitGated (near.weighs 6) 0 0).performed 0 .sys 0 0 0 = true ∧ (commitGated (near.weighs 6) 0 0).me.downNote = false ∧
    ((asked none).me.slot 0).waiting.isSome = true ∧ ((asked none).me.slot 0).reply = none ∧
    ((asked (some { id := 1, value := 5, status := 0 })).me.slot 0).reply = some { id := 1, value := 5, status := 0 } := by decide +kernel
theorem witness_requests_wait : 16 ≤ crowded.queued 0 ∧ (at_ {}).queued 0 < 16 ∧ (at_ {}).me.flights = [] ∧
    (at_ {}).now.slot < (at_ {}).me.slots.length := by decide +kernel
/-- A core in whose queue a store of issue place 0 still is, as an operation of place 8 sees it. -/
def unperformed : State := { at_ { s := [(1, 0xFFFF8)] } with
  fabric := [{ core := 0, slot := 2, op := .store, size := 8, pa := 0, home := 0, part := 0, ctx := 0 }], now := { idx := 0, seq := 8, slot := 2 } }
theorem witness_release : (commitGated (unperformed.weighs 6) 0 8).performed 0 .dev 0 8 2 = false ∧
    (commitGated ((at_ { downNote := true }).weighs 6) 0 0).performed 0 .dev 0 0 0 = true ∧ (commitGated ((at_ { downNote := true }).weighs 6) 0 0).me.downNote = true ∧
    near.access 0 3 (near.offset 1 (atStep none)) 8 false false false = .ok (.mem 0x1FFF00 0 0x7FFF) ∧ farCause near 0 0x7FFF 0x1FFF00 ≠ 0 ∧
    (let done := commitGated (crowded.weighs 6) 0 0
     done.performed 0 .dev 0 0 0 = true ∧ done.me.downNote = false ∧ 16 ≤ done.queued done.cur) ∧ (commitGated (near.weighs 6) 0 0).queued 0 < 16 ∧
    near.returned 0 0 = true ∧ (at_ { downNote := true }).returned 0 0 = true ∧ (at_ { elems := [{ id := 1, cb := 0, gen := 0, off := 0, size := 8, seq := 0 }] }).returned 0 8 = false ∧
    near.me.mark.gated = [] ∧ near.access 0 1 (near.offset 1 (atStep none)) 8 true false false = .ok (.mem 0x1FFF00 0 0x1000007FFF) := by decide +kernel
def serving (n ticket : Word) : State := at_ { s := [(1, 0xFFFF8), (2, ticket)], scratch := Memory.write [] 0xFFFF8 (natToBytes 8 n.toNat) }
theorem witness_tickets : (let x (s : State) : Word := BitVec.ofNat 64 (bytesToNat (s.me.scratchRead 0xFFFF8 8)) - s.me.rs 2
    (x (serving 5 5)).toNat < 2 ^ 63 ∧ 2 ^ 63 ≤ (x (serving 5 6)).toNat ∧ (x (serving 0x7FFFFFFFFFFFFFFF 0)).toNat < 2 ^ 63 ∧
      ((serving 5 5).offset 1 0).toNat = 0xFFFF8 ∧ (serving 5 5).me.scratchPoisoned 0xFFFF8 8 = false) := by decide +kernel
theorem witness_sail_wheel : near.access 0 1 (near.offset 1 0) 8 false false false = .ok (.mem 0x1FFF00 0 0x1000007FFF) ∧
    near.access 0 1 (near.offset 1 0) 8 true false false = .ok (.mem 0x1FFF00 0 0x1000007FFF) ∧ near.access 0 1 (near.offset 1 0) 4 true false false = .ok (.mem 0x1FFF00 0 0x1000007FFF) ∧
    ({ core := 0, slot := 2, op := .scAdd, size := 8, pa := 2 ^ 60, home := 32, part := 0, ctx := 0, own := true } : Req).own = true := by decide +kernel

theorem witness_conversions : (let x (_ sf : Fmt) (i : BitVec 20) : Option VExt := some { c := 0, rnd := .rne, sf := sf, imm := i }
    let p (f sf : Fmt) (i : BitVec 20) : Nat := immOf (x f sf i) % 8
    (Fmt.i16.isIA = true ∧ Fmt.f32.isIA = false) ∧
    (Fmt.width .e4m3 ≤ Fmt.width .f32 ∧ (p .f32 .e4m3 3 + 1) * Fmt.lanes .f32 ≤ Fmt.lanes .e4m3) ∧ (Fmt.width .f32 ≤ Fmt.width .f32 ∧ (p .f32 .f32 0 + 1) * Fmt.lanes .f32 ≤ Fmt.lanes .f32) ∧
    (Fmt.width .i4 < Fmt.width .f32 ∧ (p .i4 .f32 7 + 1) * Fmt.lanes .f32 ≤ Fmt.lanes .i4) ∧
    (2 * Fmt.lanes .f32 = Fmt.lanes .bf16) ∧ (Fmt.lanes .f16 = 2 * Fmt.lanes .i32) ∧
    (0x7C00 < 2 ^ Fmt.width .f16 ∧ (Fmt.isFloat .f16 && isNaN (decodeNum .f16 0x7C00)) = false)) := by decide +kernel
theorem witness_blocks : (let q := quantBlock .e4m3 .rne (fun _ => 0) (List.replicate 128 (decodeNum .f32 0x3F800000))
    q.1 < 256 ∧ q.2.1.length = 128) := by decide +kernel
def lanes0 (c : Nat) : State := at_ { v := [(1, BitVec.ofNat 2048 (c + c * 2 ^ 2016))] }
theorem witness_reductions : Fmt.isFA .i8 = false ∧ Fmt.isFA .f32 = true ∧
    (Fmt.isFloat .f32 && (vecLanes .f32 ((lanes0 0x7FC00000).me.rv 1)).any (fun c => isNaN (decodeNum .f32 c))) = true ∧
    (Fmt.isFloat .f32 && (vecLanes .f32 ((lanes0 0x80000000).me.rv 1)).any (fun c => isNaN (decodeNum .f32 c))) = false ∧
    (∀ n ∈ [0], (Fmt.isFloat .f32 && isNaN (decodeNum .f32 ((vecLanes .f32 ((lanes0 0x7FC00000).me.rv 1)).getD n 0))) = true) := by decide +kernel
def feeding (n : Nat) : State := at_ { cb := [(1, { conf := true, cap := 12, esz := 8, cnt := n, room := 12 - n })], tables := [(1, { lo := 0xBF80 }), (2, { lo := 0x7F80 }), (3, { lo := 0x7FC0 })] }
theorem witness_tables : (let cb (n : Nat) : Cb := (feeding n).me.cbReg 1
    (cb 12).conf = true ∧ (cb 12).esz = 8 ∧ 12 ≤ (cb 12).cap ∧ 12 ≤ (cb 12).cnt ∧ (feeding 12).me.elementsPoisoned (cb 12) 12 = false ∧ (cb 11).cnt < 12 ∧
    isNaN ((feeding 0).me.table 1).low = false ∧ isInf ((feeding 0).me.table 1).low = false ∧ isInf ((feeding 0).me.table 2).low = true ∧
    isNaN ((feeding 0).me.table 3).low = true ∧ Fmt.width .f32 ≤ 32 ∧
    (let y (c : Nat) : FVal := decodeNum .f32 c
     let t := (feeding 0).me.table 1
     isNaN (y 0x7FC00000) = true ∧ ltNum (y 0xBF800001) t.low = true ∧ ltNum (y 0xBF800000) t.low = false ∧ ltNum (y 0xBF800000) t.high = true ∧
       ltNum (y 0x437F0000) t.high = false ∧ ltNum (y 0x437EFFFF) t.high = true)) := by decide +kernel

/-- Bindings 0 to 6 have the statuses 1 to 7 (1 to 3 name slots 0, 8 and 16, of which slot 16 is still empty); binding 8 is bound to
slot 1 of array 0. -/
def bound : Core :=
  { tb := [(0, { status := 1, slot := 0, hnd := 1, va := 0x100000 }), (1, { status := 2, slot := 8 }), (2, { status := 3, slot := 16 }), (3, { status := 4 }),
           (4, { status := 5, va := 0x40 }), (5, { status := 6 }), (6, { status := 7 }), (8, { status := 1, slot := 1 }), (9, { status := 1, slot := 2 })]
    tiles := [(0, { v := true, tag := 0x100000, data := List.replicate 64 0 }), (1, { v := true, tag := 0x200000 }), (2, { v := true }), (8, { v := true, tag := 0x300000 })]
    cb := [(0, { conf := true, cap := 8, esz := 8, cnt := 8 }), (1, { conf := true, cap := 8, esz := 9, room := 8 }), (2, { conf := true, cap := 8, esz := 9, cnt := 8 }),
           (3, { conf := true, cap := 2, esz := 7, cnt := 1 })]
    h := handles }
theorem witness_beat_checks : (let s := at_ bound
    let sel (m : BitVec 8) (st : Bool) : List Nat := (selected m st).map (fun e => e.2)
    let named (m : BitVec 8) (st : Bool) : List Nat := (sel m st).filter (fun b => (s.me.bind b).names)
    let st (b : Nat) : Nat := (s.me.bind b).status
    (¬ ((named 3 true).map (fun b => (s.me.bind b).slot / 8)).Nodup) ∧ ((named 0xFF false).map (fun b => (s.me.bind b).slot / 8)).Nodup ∧
    sel 0x88 false = [] ++ 3 :: [7] ∧ sel 0x81 false = [0] ++ 7 :: [] ∧ sel 0x20 false = [] ++ 5 :: [] ∧ sel 0x42 false = [1] ++ 6 :: [] ∧ sel 0x11 false = [0] ++ 4 :: [] ∧
    st 7 = 0 ∧ st 3 = 4 ∧ st 5 = 6 ∧ st 6 = 7 ∧ st 4 = 5 ∧ (st 0 ≠ 0 ∧ st 0 ≠ 4 ∧ st 0 ≠ 5 ∧ st 0 ≠ 6 ∧ st 0 ≠ 7) ∧
    sel 4 false = [2] ∧ (s.me.bind 2).names = true ∧ s.me.bindReady 2 = false) := by decide +kernel
theorem witness_beats : (let s := at_ bound
    (3 : BitVec 8) ≠ 0 ∧ (∀ e ∈ selected 3 false, s.me.bindReady e.2 = true) ∧ ((beatOn s 3 false).map (fun e => e.2 / 8)).Nodup ∧
    (let b := s.me.cbReg s.me.mx.scb
     b.conf = true ∧ b.esz = 8 ∧ 1 ≤ b.cap ∧ 1 ≤ b.cnt ∧ s.me.elementsPoisoned b 1 = false) ∧ s.me.mx.ri < s.me.mx.rl ∧
    (∀ e ∈ beatOn s 3 false, (s.me.tile e.2).sound = true) ∧ beatOn s 3 false = [(0, 0), (1, 8)]) := by decide +kernel
theorem witness_parity : (let s := at_ { bound with tiles := [(0, { v := true, tag := 0x100000, par := 1 })] }
    selected 1 false = [(0, 0)] ∧ s.me.bindReady 0 = true ∧ (s.me.tile (s.me.bind 0).slot).sound = false) := by decide +kernel
theorem witness_running_sums (first : FVal) (next : FVal → Nat → FVal) : ∃ acc : Nat → FVal, acc 0 = first ∧ ∀ n, acc (n + 1) = next (acc n) n :=
  ⟨fun n => Nat.rec first (fun i y => next y i) n, rfl, fun _ => rfl⟩
theorem witness_drains : (let s := at_ { bound with mx := { dcb := 1, scb := 2, rl := 0 } }
    (∀ e ∈ selected 3 false, s.me.bindReady e.2 = true) ∧ ((beatOn s 3 false).map (fun e => e.2 / 8)).Nodup ∧ s.me.mx.rl ≤ s.me.mx.ri ∧
    (∀ e ∈ beatOn s 3 false, (s.me.tile e.2).sound = true) ∧
    (let b := s.me.cbReg s.me.mx.dcb
     b.conf = true ∧ s.me.mx.df = .f32 ∧ b.esz = 9 ∧ (beatOn s 3 false).length ≤ b.cap ∧ (beatOn s 3 false).length ≤ b.room) ∧
    (let b := s.me.cbReg s.me.mx.scb
     b.conf = true ∧ b.esz = 9 ∧ (beatOn s 3 false).length ≤ b.cnt ∧ s.me.elementsPoisoned b 2 = false ∧ s.me.mx.rnd ≠ .sto)) := by decide +kernel
def binder : State := paged { bound with s := [(1, 0x10000), (2, 0), (3, 127)] }
theorem witness_bindings : (binder.me.bind 0).names = true ∧ (binder.me.bind 3).names = false ∧
    binder.tileAccess 1 1 (some .fill) = .ok (.mem 0x110000 0 0x1000007FFF) ∧ binder.me.matching 0x110000 0 = [] ∧
    binder.tileAccess 1 2 (some .fill) = .ok (.mem 0x100000 0 0x1000007FFF) ∧ binder.tileAccess 1 2 none = .ok (.mem 0x100000 0 0x1000007FFF) ∧
    (binder.me.setBind 8 {}).matching 0x100000 0 = [0] ∧ binder.me.matching 0x100000 0 ≠ [] ∧
    (({ binder.me with tb := [] } : Core).setBind 8 {}).setArrays 8 = [] ∧ ((paged { bound with tb := [], s := [] }).me.setBind 8 {}).matching 0x100000 0 = [0] := by decide +kernel
theorem witness_tile_stores : binder.me.bindReady 0 = true ∧ binder.queued 0 < 16 ∧ (binder.handle 0 1).gen = (binder.me.bind 0).gen ∧ (binder.handle 0 1).state = 2 ∧
    permRefusal .twst true false (binder.handle 0 1).ronly (binder.handle 0 1).leaf.toNat = none ∧ (binder.me.tile 0).fmt ≠ .i4 ∧
    128 * 128 ≤ (binder.me.rs 1).toNat ∧ (binder.me.rs 2).toNat < 128 * 128 ∧ (binder.me.rs 3).toNat < 128 ∧ 128 ≤ (binder.me.rs 1).toNat ∧
    (let cb := binder.me.cbReg 3
     cb.conf = true ∧ cb.esz = 7 ∧ 1 ≤ cb.cap ∧ 1 ≤ cb.cnt ∧ (binder.me.element cb cb.con).2 = false) := by decide +kernel
theorem witness_int4_tile : (let t : TileSlot := { v := true, data := List.replicate 0x4080 0 ++ [9] }
    t.fmt = .i4) := by decide +kernel

/-- tl0 names context 5 of the copy engine, tl1 one of the collective engine, tl2 a bank unit; tl3 nothing. -/
def timed (n : Nat) : State := { paged { tlctx := [(0, 0x8000000000000005), (1, 0x8000000000200005), (2, 0x8000000000300000)], s := [(1, 7), (2, 8)] } with
  engines := [(5, { granted := true, count := 7, errn := 3, errc := 2, queue := List.replicate n { num := 8, opc := 1, k := 0, a := 0, b := 0, ext := none, core := 0, ctx := 0, part := 0 } })] }
abbrev tl (t : Nat) : Word := mget 0 (timed 0).me.tlctx t
theorem witness_commands : wbit (tl 3) 63 = false ∧ wbit (tl 0) 63 = true ∧ wbits (tl 0) 20 4 = 0 ∧ wbits (tl 1) 20 4 = 2 ∧ wbits (tl 2) 20 4 = 3 ∧
    (timed 0).tlEngine 0 (tl 0) none = 5 ∧ 64 ≤ ((timed 64).eng 5).queue.length ∧ ((timed 63).eng 5).queue.length < 64 ∧
    ((timed 0).me.rs 1).toNat ≤ ((timed 0).eng 5).count.toNat ∧ ((timed 0).eng 5).count.toNat < ((timed 0).me.rs 2).toNat ∧
    (timed 0).bulkUp (engBulk 5) = true ∧ ({ timed 0 with bulks := [(0, { closed := true })] } : State).bulkUp (engBulk 5) = false ∧ restartSlot (timed 0) 0 5 8 = none := by decide +kernel
theorem witness_samples : (let f : Flight := { slot := 6, due := 3, seq := 0, what := .tlSample 5 .errc 1 0 }
    f.what = .tlSample 5 .errc 1 0 ∧ f.kind = 0 ∧ ¬ ((1 : SReg) = 0)) := by decide
def grouped (g : Nat) (y : Option Reply) (w : Option Nat) : State :=
  { paged { running := some { run0 with group := g }, s := [(1, 0xFFFF), (2, 1)], slots := [{ waiting := w, reply := y }, {}, {}, {}, {}, {}, {}, {}] } with nextReq := 5 }
theorem witness_groups : (grouped 1 none none).me.running = some { run0 with group := 1 } ∧ (grouped 1 none none).now.stalled = false ∧ (grouped 1 none none).queued 0 < 16 ∧
    (let s := grouped 1 none none
     ((s.me.rs 1).toNat % 65536 ≠ 0 ∧ (s.me.rs 1).toNat % 65536 ≠ 1) ∧ (s.me.rs 2).toNat % 65536 = 1 ∧ (s.me.rs 0).toNat % 65536 = 0 ∧
     (s.me.slot 0).reply = none ∧ (s.me.slot 0).waiting = none ∧ s.standing .gbar 1 = false ∧ s.standing .gwait 0xFFFF = false ∧
     (commitDisarm (s.weighs 4) 0).me.downNote = false ∧ (commitGated (s.weighs 4) 0 0).performed 0 .dev 0 0 0 = true ∧ (commitGated (s.weighs 4) 0 0).me.downNote = false) ∧
    ((grouped 1 none (some 5)).me.slot 0).waiting.isSome = true ∧
    ((grouped 1 (some { id := 5, value := 1, status := 0 }) (some 5)).me.slot 0).reply = some { id := 5, value := 1, status := 0 } := by decide +kernel
/-- Group 1 of partition 0, whose members are the continuation that core 0 runs and another. -/
def two : Group := { ctx := 0, mem := 2, members := [(0, 0x8000), (0, 0x8200)] }
def homed (g : Group) : State := { paged { running := some { run0 with group := 1 } } with groups := [(groupKey 0 1, g)] }
theorem witness_group_homes : (let s := homed two
    let k := groupKey 0 1
    let late : Group := { two with arr := 1, arrived := [(0, 0x8200, 9)] }
    let alone : Group := { two with mem := 1, members := [(0, 0x8000)] }
    s.bulkUp (s.groupHome 0 1) = true ∧ s.coreRunning 0 0x8000 = some 0 ∧ (s.core 0).frozen = none ∧ (s.core 0).slots.length = 8 ∧
    (s.core 0).scratch.wf = true ∧ (s.core 0).steep.wf = true ∧
    (match (s.dropReq 1).vreadWord 0 0x8008 .core with | .ok _ => true | .error _ => false) = true ∧
    s.group k = some two ∧ (homed late).group k = some late ∧ (homed alone).group k = some alone ∧ (paged {}).group k = none ∧
    (homed { two with mem := 0, members := [] }).group k = some { two with mem := 0, members := [] } ∧
    (0, 0x8000) ∈ two.members ∧ (0, 0x8400) ∉ two.members ∧ two.arr + 1 ≠ two.mem ∧ late.arr + 1 = late.mem ∧ (0, 0x8000) ∈ late.members ∧
    -- the leave of 0x8000: from two, from late (the barrier completes), abnormally from late after its own arrival, from alone
    two.mem - 1 ≠ 0 ∧ late.arr = late.mem - 1 ∧ late.arrived.any (fun m => m.1 == 0 && m.2.1 == 0x8200) = true ∧ (0, 0x8200) ∈ late.members ∧
    late.arr - 1 = 0 ∧ (0, 0x8000) ∈ alone.members ∧ alone.mem - 1 = 0 ∧ alone.arr = 0) := by decide +kernel
def moving (r : MoveRun) (age : Word) : State :=
  { at_ {} with banks := [(0, { busy := true, prog := [0x0000, 0xFC00, 0x8000], keys := [(0x10000, 512)], kfmt := .f32, olen := 8, runs := [r] })], buctl := [(0, age)] }
theorem witness_moves : (moving {} 1).run = some {} ∧ (2 ^ 24 ≤ 2 ^ 24 ∧ 2 ^ 24 - 1 < 2 ^ 24) ∧ ((moving {} 1).unit.prog.length < 3 + 1 ∧ 1 + 2 ≤ (moving {} 1).unit.prog.length ∧ 2 + 1 ≤ (moving {} 1).unit.prog.length) ∧
    ((4 : Nat) + 4 ≤ (moving {} 1).unit.olen ∧ (moving {} 1).unit.olen < 8 + 4) ∧ (((2 : W32).toNat < (moving {} 1).unit.prog.length) ∧ (moving {} 1).unit.prog.length ≤ (3 : W32).toNat) ∧
    (let w := (moving {} 1).unit.keys.getD 0 (0, 0)
     let n := 16 * (moving {} 1).unit.kfmt.width
     n = 512 ∧ ((0xFFFFFFFF + 1 : W32).toNat + 1) * n ≤ w.2 ∧ w.2 < ((0 + 1 : W32).toNat + 1) * n) ∧
    wbits ((moving {} 1).buctlReg (moving {} 1).ev.unit) 0 16 ≠ 0 ∧ (moving {} 1).bankBusy 0 (bankAt 0x10000) = false ∧ ((moving {} 1).physRead 0 0x10000 512).2 = false := by decide +kernel

/-- A core that runs its continuation, with a segment at 0x1000 whose first bundle holds no syllable. -/
def runner : Core := { active := true, running := some run0, seg := some { seg0 with words := [0x01000000, 0x01000000] }, pc := 0x1010 }
theorem witness_core_stages : (at_ runner).ev.unit ≤ 256 ∧ runner.active = true ∧ run0.dbg = false ∧ runner.refill = 0 ∧ ({} : Core).active = false ∧
    (at_ { expandLeft := 1, other := some seg0 }).me.expandLeft = 1 ∧ (at_ { expandLeft := 1, other := some seg0 }).me.other = some seg0 ∧ runner.expandLeft ≠ 1 ∧
    (at_ { refillTo := some (0x1000, 0x1018) }).me.refillTo = some (0x1000, 0x1018) ∧ (at_ { refillTo := some (0x1000, 0x1018) }).me.refill = 0 ∧ runner.refillTo = none ∧
    ({ State.reset with ev := { unit := 257 } } : State).ev.unit = 257 := by decide
def dispatches (sg : Seg) (adr : Nat) (k : Core) (ok : Bool) : Bool :=
  let b := sg.bundleAt adr
  match checkBundle false k.svc ((at_ k).isSafe k.partOf k.pc b.safe && !k.svc) k.cbReg
    ([2, 3, 4, 5, 6].filterMap (fun i => (k.installed i).map (fun op => (i, op)))) sg k.pc b with
  | .ok _ => ok
  | .error _ => !ok
def seg1 : Seg := { seg0 with words := [0x01000000, 0x01000000] }
/-- The same segment with a word in slot SB that no operation has. -/
def seg2 : Seg := { seg0 with words := [0x02000002, 0x78000010, 0] }
theorem witness_bundle_dispatch : (let k := runner
    k.drain = .none ∧ k.brWait = none ∧ k.refillTo = none ∧ k.nextIdx ≤ k.maxNext ∧ k.nextIdx < k.minNext + 16 ∧ stalledGroup (at_ k) 0 = none ∧ k.seg = some seg1 ∧
    k.mark.poisoned = [] ∧ seg1.bad = 0 ∧ seg1.holds k.pc = true ∧ wbit (k.sysReg 9) 0 = false ∧ dispatches seg1 0x1010 k true = true ∧
    dispatches seg2 0x1010 { k with seg := some seg2 } false = true ∧ seg2.holds 0x1010 = true ∧ { k with seg := some seg2 }.caughtUp = true ∧
    (let j : Core := { k with seg := some seg2, nextIdx := 1, slots := { next := 1 } :: List.replicate 7 {} }
     j.caughtUp = false ∧ j.nextIdx ≤ j.maxNext ∧ j.nextIdx < j.minNext + 16)) := by decide +kernel

/-- The segment again with SAFE in its first bundle. -/
def seg3 : Seg := { seg0 with words := [0x01000100, 0x01000000] }
theorem witness_commit_point : (let k : Core := { runner with seg := some seg3, nextIdx := 1, nextOrd := 1, mark := { armed := true }, slots := List.replicate 8 { next := 1 } }
    let s : State := { at_ k with safePoints := [(0, [{ adr := 0x1010 }])] }
    k.rptK = 0 ∧ (s.isSafe k.partOf k.pc (seg3.bundleAt k.pc).safe && !k.svc) = true ∧ k.mark.armed = true ∧ k.mark.commit < 8 * k.nextOrd ∧
    k.drain = .none ∧ k.nextIdx ≤ k.maxNext ∧ k.nextIdx < k.minNext + 16 ∧ stalledGroup s 0 = none ∧ k.mark.poisoned = [] ∧ seg3.holds k.pc = true ∧
    wbit (k.sysReg 9) 0 = false ∧ ({ runner with rptK := 1 } : Core).rptK ≠ 0) := by decide
/-- Landed results: three elements and one place of buffer 1, and the coefficients of table 0. -/
def rising : Core :=
  { cb := [(1, { conf := true, cap := 8, esz := 8, gen := 2 })]
    flights := [{ slot := 0, due := 0, seq := 0, what := .cnt 1 2 3 }, { slot := 0, due := 0, seq := 1, what := .room 1 2 1 },
      { slot := 0, due := 0, seq := 2, what := .table 0 [1, 2] }] }
theorem witness_rises : ((rising.cbReg 1).conf = true ∧ (rising.cbReg 1).gen % 2 = 0) ∧ (rising.cbReg 2).conf = false ∧
    (rising.flights.filter (fun f => (match f.what with | .table n _ => n == 0 | _ => false) && rising.isDue f && !f.traps)).map (fun f => f.what) =
      [.table 0 [1, 2]] := by decide

/-- Handle 0 waits for its walk at a mapped address, handle 1 at one that nothing maps. -/
def walking : State := { paged { sys := [(0x31, 0x2000)], h := [(0, { state := 1, vbase := 0x40 }), (1, { state := 1, vbase := 0x8000000000 })], slots := List.replicate 3 {} ++ [{ waiting := some 5 }] ++ List.replicate 4 {} } with mem := tables.write 0x6008 (natToBytes 8 0x7FFF) }
theorem witness_walks : (mget {} walking.me.h 0 : Handle).state = 1 ∧ (mget {} walking.me.h 0 : Handle).gen.toNat = 0 ∧ walking.migrations = [] ∧
    (match walking.walk (walking.ctxAt 0) 0x40 (walking.rootOf 0) with | .ok l => l.cache != 2 | .error _ => false) = true ∧
    (match walking.walk (walking.ctxAt 0) 0x8000000000 (walking.rootOf 0) with | .ok _ => false | .error _ => true) = true := by decide +kernel
theorem witness_reply : (let s : State := { walking with ev := { unit := 5 }, replies := [(0, { id := 5, value := 7, status := 0 }, 3)] }
    s.replies.find? (fun y => y.2.1.id == s.ev.unit) = some (0, { id := 5, value := 7, status := 0 }, 3) ∧ s.me.elems.any (fun e => e.id == 5) = false ∧
    s.me.frozen = none ∧ (s.me.slot 3).waiting = some 5 ∧ 3 < s.me.slots.length ∧ walking.replies.find? (fun y => y.2.1.id == walking.ev.unit) = none) := by decide
theorem witness_register_events : (let s : State := { at_ { sys := [(0xA, 5)], running := some { run0 with dbg := true } } with time := 5 }
    s.ev.idx < 8 ∧ s.me.sysReg 0xA ≠ 0 ∧ (s.me.sysReg 0xA).toNat ≤ s.time ∧ ({ s with time := 4 } : State).time < (s.me.sysReg 0xA).toNat ∧ (at_ {}).me.sysReg 0xA = 0 ∧
    s.me.running = some { run0 with dbg := true } ∧ s.ev.flag = false ∧ runner.running = some run0 ∧ run0.dbg = false ∧
    s.lines = [] ∧ (s.ctxd 0 0x18).toNat < 2 ^ 16 ∧ wbit (mget 0 s.invalidations 0) 63 = false ∧ wbit (mget 0 [(0, 0x8000000000000000)] 0) 63 = true ∧
    s.bootOk = true ∧ ({ s with bootOk := false } : State).bootOk = false ∧
    (∀ a ∈ [({} : RegAddr), { off := 0x200000 }, { off := 0x600000 }, { vf := some 63, off := 0xFFFF8 }, { vf := some 64 }, { vf := some 0, off := 0x100000 }],
      ({ s with ev := { reg := a } } : State).ev.reg.off % 8 = 0) ∧
    (let flagged : State := { s with ev := { flag := true } }
     flagged.ev.flag = true ∧ (∀ j, j < 7 → s.me.nextIdx ≤ (s.me.slot j).next)) ∧ ((2 : Word).toNat % 64 = 2 ∧ s.me.running.isSome = true)) := by decide
theorem witness_invalidations : (let s : State := { paged { h := handles, lastCtx := 0 } with invalidations := [(0, 0x8000000000000000)] }
    s.partHas (s.ctxPart 0) (0 / 8) = true ∧ (s.core 0).handleCtx = 0 ∧ (s.core 0).handleCtx ≠ 4095 ∧ s.partHas (s.ctxPart 0) (8 / 8) = false ∧ wbit (0xC000000000000000 : Word) 62 = true ∧ (mget {} (s.core 0).h 1 : Handle).state = 2 ∧
    oldAccesses s (s.invPart 0) s.ev.aux = false ∧
    oldAccesses ({ s with fabric := [{ core := 0, slot := 3, op := .store, size := 8, pa := 0x100000, home := 0, part := 0, ctx := 0, id := 0 }] } : State) (s.invPart 0) 1 = true) := by decide +kernel
def fillingTile : TileSlot := { filling := true, running := true, tag := 0x100000, hi := 0x1000007FFF, order := 0 }
def records : State := { State.reset with hub := [(0, 0x8000000000000000)], mem := [(0x104080, 3)] }
def goodRecord : List Byte × Bool := let r := readRecord records 0 0 0x1000007FFF 0x100000; (r.1, r.2.1)
theorem witness_fills : (let s := paged { tiles := [(0, fillingTile), (1, { fillingTile with source := some 2 })], tb := [(1, { status := 2, slot := 0 })] }
    (s.me.tile 0).filling = true ∧ (s.me.tile 0).running = true ∧ (s.me.tile 0).order = s.ev.aux ∧ (s.me.tile 0).source = none ∧ (s.me.tile 0).due ≤ s.me.cycle ∧
    (s.me.tile 1).source.isSome = true ∧ (s.me.tile 1).filling = true ∧ (s.me.tile 1).running = true ∧ (s.me.tile 1).due ≤ s.me.cycle ∧ (s.me.tile 2).filling = false ∧ (s.me.bind 1).names = true ∧ (s.me.bind 1).slot = 0) := by decide +kernel
theorem witness_fill_records : goodRecord.2 = false ∧ recordBad goodRecord.1 = false ∧ recordBad [] = true ∧
    (readRecord { records with poison := [0x4000] } 0 0 0x1000007FFF 0x100000).2.1 = true := by decide +kernel
theorem witness_prefetches : (let k : Core := { prefetches := [(0x100000, 0, 0x1000007FFF, 1)] }
    k.fillsRunning < 8 ∧ k.fillsWaiting = [] ∧ k.matching 0x100000 0 = [] ∧ k.victim [] = some 0 ∧ k.candidate [] 0 = true ∧ ({} : Core).prefetches = []) := by decide +kernel
theorem witness_array_errors : (let s := at_ { tiles := [(63, { v := true })] }
    (255 : Nat) < 256 ∧ (s.me.tile 63).v = true ∧ s.me.bound 63 = false ∧ (s.me.tile 63).pin = false ∧ regionOf 0x40 = .hbm ∧ regionOf 0x40000 = .hbm ∧ regionOf 0x300000000000 = .reserved ∧
    placeUnit (.memory 0x40) = none ∧ (placeUnit (.tile 300 0 0)).isSome = true ∧ s.me.mark.gated = [] ∧ (s.line 4).dirty = false ∧
    (s.me.tile 63).sound = true ∧
    (let u := at_ { tiles := [(0, { v := true, par := 1 }), (1, { v := true, pin := true, par := 1 }), (2, { v := true, par := 1 })], tb := [(0, { status := 1, slot := 0 })] }
     (u.me.tile 0).sound = false ∧ u.me.bound 0 = true ∧ (u.me.tile 1).sound = false ∧ (u.me.tile 1).pin = true ∧ u.me.bound 1 = false ∧
       (u.me.tile 2).sound = false ∧ u.me.bound 2 = false ∧ (u.me.tile 2).pin = false)) := by decide +kernel

/-- Core 0 runs, core 1 is idle with a record of STATUS 0 ready for it, and core 2 drains for a pre-emption. -/
def scheduled : State :=
  { paged runner with
    cores := [(0, { runner with preAge := 1, sys := [(9, 1)] }), (2, { runner with drain := .preempt 0x1010 })]
    mem := tables.write 0x8000 (natToBytes 8 0x1010 ++ natToBytes 8 0 ++ natToBytes 8 0x9000)
    time := 1000000
    hub := [(0, 0x8000000000000000), (0x810, 1), (0x200000, 0x8000000000000000), (0x200008, 0x2000)]
    ready := [(0, [{ recA := 0x8000, ctx := 0, part := 0, level := 0, aff := none, entered := 0, node := 0, param := 0 }])] }
theorem witness_scheduler : (scheduled.core 0).running.isSome = true ∧ (scheduled.core 1).running = none ∧ (scheduled.core 2).drain = .preempt 0x1010 ∧
    drained { scheduled with cur := 2, now := {} } 2 = true ∧ (scheduled.core 0).drain = .none ∧
    drained { scheduled with cores := [(2, { runner with drain := .preempt 0x1010, flights := [{ slot := 0, due := 1, seq := 0, what := .s 1 0 }] })], cur := 2, now := {} } 2 = false ∧
    overdue { scheduled with cur := 0, now := {} } 0 = true ∧ overdue { scheduled with cur := 1, now := {} } 1 = false ∧
    (let s0 : State := { scheduled with cur := 1, now := {} }
     s0.takes 1 = true ∧ s0.takes 0 = false ∧ (∃ e, chooseReady (s0.eligible 0) 1 = some e ∧ e.node = 0 ∧ e.recA = 0x8000 ∧ e.ctx = 0)) := by
  refine ⟨by decide, by decide, by decide, by decide +kernel, by decide, by decide +kernel, by decide +kernel, by decide +kernel, by decide +kernel, by decide +kernel,
    { recA := 0x8000, ctx := 0, part := 0, level := 0, aff := none, entered := 0, node := 0, param := 0 }, by decide +kernel, rfl, rfl, rfl⟩
def recordOk : Bool :=
  match ((scheduled.setReady 0 []).reading 0 0x8000 64 .core 0).vread 0 0x8000 64 .core with
  | .ok bs => recStatus (wordAt bs 0) == 0 && wbits (wordAt bs 1) 32 30 == 0
  | .error _ => false
theorem witness_record : recordOk = true := by decide +kernel
theorem witness_queues_age : (scheduled.readyOf 0).any (fun e => decide (e.level < 7 ∧ e.entered + 100000 ≤ scheduled.time)) = true ∧
    ({ scheduled with time := 99999 }.readyOf 0).any (fun e => decide (e.level < 7 ∧ e.entered + 100000 ≤ 99999)) = false ∧ (31 : Nat) < 32 := by decide
/-- Partitions 0 and 1 hold bulkhead 0 in turns. -/
def sliced (k : Core) : State := { paged k with hub := [(0, 0x8000000000000000), (8, 0x8000000000000000), (0x200000, 0x8000000000000000), (0x200008, 0x2000)] }
theorem witness_slices : (sliced {}).sliceOf 0 = some 0 ∧ idleMask (sliced {}) 0 = 0xFF ∧ idleMask (sliced runner) 0 ≠ 0xFF ∧ (sliced {}).sliceOf 0 ≠ some 1 ∧
    (∀ c ∈ List.range 8, (sliced {}).outstanding c = false ∧ ((sliced {}).core c).elems = []) ∧
    (sliced {}).bulks.all (fun b => b.2.images.all (fun y => y.1 != 1)) = true ∧ ((sliced runner).core 0).running.isSome = true := by decide +kernel
/-- Queues: 0 with one entry, 1 with none, 2 overrun, 3 not bound; node records at 0x8000 (COUNT 2), 0x8010 (1), 0x8020 (0); replays: 0 not
started, with an empty header, 1 started with nothing left. -/
def tasks : State :=
  { paged {} with
    mem := (tables.write 0x8000 (natToBytes 8 2)).write 0x8010 (natToBytes 8 1)
    queues := [(0, { bound := true, n := 4, pi := 1 }), (1, { bound := true, n := 4 }), (2, { bound := true, n := 4, pi := 17 })]
    replays := [{ header := 0xA000, ctx := 0, part := 0, bulk := 0 }, { header := 0xA000, ctx := 0, part := 0, bulk := 0, started := true, copy := 2 }] }
theorem witness_launch_queues : (let q := tasks.queue
    (q 0).bound = true ∧ (q 0).stopped = false ∧ (q 0).moving = false ∧ (tasks.bulk 0).sched = true ∧ (tasks.bulk 0).state = 0 ∧ (q 0).pi ≠ BitVec.ofNat 32 (q 0).ci ∧
    ((q 0).pi - BitVec.ofNat 32 (q 0).ci).toNat ≤ 2 ^ (q 0).n ∧ (q 1).pi = BitVec.ofNat 32 (q 1).ci ∧ 2 ^ (q 2).n < ((q 2).pi - BitVec.ofNat 32 (q 2).ci).toNat ∧
    (q 2).bound = true ∧ (q 2).stopped = false ∧ (q 2).moving = false ∧ (q 3).bound = false) := by decide
def nodeCounts : List (Option Nat) := [0x8000, 0x8010, 0x8020].map (fun n => match tasks.vreadWord 0 n .core, tasks.translate 0 n .core true with
  | .ok w, .ok _ => some (w.toNat % 2 ^ 32)
  | _, _ => none)
theorem witness_nodes : nodeCounts = [some 2, some 1, some 0] ∧ (0x8000 % 16 = 0 ∧ 0x8008 % 16 ≠ 0) := by decide +kernel
def headerWords : Option (List Word) := match tasks.vread 0 0xA000 64 .core with | .ok h => some ((List.range 6).map (wordAt h)) | .error _ => none
def headerRuns : Option Bool := match { tasks with mem := tables.write 0xA028 [1] }.vread 0 0xA000 64 .core with | .ok h => some (wbit (wordAt h 5) 0) | .error _ => none
theorem witness_replays : headerWords = some [0, 0, 0, 0, 0, 0] ∧ headerRuns = some true ∧ tasks.replays[0]?.map (fun r => (r.started, r.ended)) = some (false, false) ∧
    tasks.replays[1]?.map (fun r => (r.started, r.ended, r.nodes, r.copy)) = some (true, false, [], 2) := by decide +kernel
/-- Node 0x8100 launches the task of record 0x8200, node 0x8110 the copy of payload 0x8240, and 0x8120 the same with no engine; a graph
header at 0x8300 arms and launches one node each, and its parameter descriptor is at 0x8380. -/
def launching (tl : Word) : State :=
  { tasks with
    mem := ((((((tables.write 0x8108 (natToBytes 8 0x8200)).write 0x8118 (natToBytes 8 (2 ^ 57 + 0x8240))).write 0x8200 (natToBytes 8 (2 ^ 57))).write 0x8240
      (natToBytes 8 1)).write 0x8300 (natToBytes 8 (2 ^ 32 + 1) ++ natToBytes 8 0x8340 ++ natToBytes 8 0x8350 ++ natToBytes 8 0x8380)).write 0x8340
      (natToBytes 8 0x8100 ++ natToBytes 8 1)).write 0x8350 (natToBytes 8 0x8100)
    hub := [(0, 0x8000000000000000), (0x200000, 0x8000000000000000), (0x200008, 0x2000), (0x200040, tl)] }
/-- The word at a of context 0 as a read of it gives it. -/
def wordOf (s : State) (a : Nat) : Option Nat := match s.vreadWord 0 a .core with | .ok w => some w.toNat | .error _ => none
def launches : List (Option Nat) := [0x8100, 0x8108, 0x8110, 0x8118].map (wordOf (launching 0))
theorem witness_launches : launches = [some 0, some 0x8200, some 0, some (2 ^ 57 + 0x8240)] ∧ (launching 0).waits 0 0x8200 = false ∧
    (let s1 := (launching 0).reading 0 0x8200 64 .core 0
     (match s1.vread 0 0x8200 64 .core, s1.translate 0 0x8200 .core true with
      | .ok bs, .ok _ => recStatus (wordAt bs 0) == 1 && !recMalformed s1 (s1.ctxPart 0) (wordAt bs 0) (wordAt bs 1)
      | _, _ => false) = true ∧ s1.waits 0 0x8200 = false) := by decide +kernel
/-- Whether the payload at 0x8240 is a copy of KIND 1 without extension bits. -/
def payloadOk : Bool :=
  match (launching 0).vread 0 0x8240 64 .copy with
  | .ok bs => wbits (wordAt bs 0) 0 8 == 1 && wbits (wordAt bs 0) 11 52 == 0 && wbits (wordAt bs 3) 32 32 == 0 && (bs.drop 32).all (· == 0)
  | .error _ => false
theorem witness_launched_command : payloadOk = true ∧ wbit ((launching 0x8000000000000000).ctxd 0 0x40) 63 = true ∧ wbit ((launching 0).ctxd 0 0x40) 63 = false := by
  decide +kernel
def graphWords : Option (List Nat) :=
  match ((launching 0).reading 0 0x8300 64 .core 0).vread 0 0x8300 64 .core with | .ok h => some ((List.range 6).map (fun i => (wordAt h i).toNat)) | .error _ => none
theorem witness_graph_header : graphWords = some [2 ^ 32 + 1, 0x8340, 0x8350, 0x8380, 0, 0] := by decide +kernel
theorem witness_graph_tables : [0x8380, 0x8388, 0x8398, 0x8340, 0x8348, 0x8350].map (wordOf (launching 0)) =
    [some 0, some 0, some 0, some 0x8100, some 1, some 0x8100] := by decide +kernel
def leavingState : State :=
  { paged {} with cores := [(8, { lastCtx := 0, scratch := [(0, 1)] })], hub := [(0, 0x8000000000000100), (0x200000, 0x8000000000000000), (0x200008, 0x2000)] }
theorem witness_images : leavingState.partHas (leavingState.ctxPart 0) 0 = true ∧ imageCores leavingState 0 = [8] ∧
    (∀ b ∈ 0 :: (leavingState.sourcesOf 0).map (leavingState.movesTo 0 0), leavingState.partHas (leavingState.ctxPart 0) b = true) ∧
    coreFor (leavingState.movesTo 0 0) 8 = 0 ∧ leavingState.imageOf 0 8 = none ∧ leavingState.imageOf 0 0 = none ∧ leavingState.arrivals = [] ∧
    leavingState.cores.any (fun e => (e.2.running.map (·.ctx)) == some 0) = false ∧ leavingState.engines = [] ∧ leavingState.ready = [] ∧
    (∀ c ∈ imageCores leavingState 0, (leavingState.core (coreFor (leavingState.movesTo 0 0) c)).running = none) := by decide +kernel
def compressed : State := { paged {} with mem := tables.write 0x6008 (natToBytes 8 (0x1000007FFF + 2 ^ 34)) }
def compressedPage : Bool := match compressed.walk 0 (3 * 4096) with | .ok l => bits l.hi 34 1 == 1 | .error _ => false
theorem witness_compressed : compressedPage = true ∧ compressed.entryFrom (compressed.ctxPart 0) (3 * 4096) 5 (rootTable (compressed.ctxd 0 8)) = some 0x6000 := by
  decide +kernel
theorem witness_migrations : tasks.partHas (tasks.ctxPart 0) 0 = true ∧ tasks.partHas (tasks.ctxPart 0) 31 = false ∧ tasks.cores.any (fun e => (e.2.running.map (·.ctx)) == some 0) = false ∧
    (paged runner).cores.any (fun e => (e.2.running.map (·.ctx)) == some 0) = true ∧ tasks.engines = [] ∧ tasks.ready = [] ∧ (tasks.queue 0).ctx = 0 ∧
    (match tasks.walk 0 (3 * 4096) with | .ok _ => true | .error _ => false) = true ∧ (match tasks.walk 0 (0x8000000 * 4096) with | .ok _ => false | .error _ => true) = true := by decide +kernel

/-- Engine 0: a fence that waits for nothing, a copy that has started, one that has its outcome; engine 1 is empty. -/
def engined (core : Core) (f : List Req) : State :=
  let cmd (num opc : Nat) : Command := { num := num, opc := opc, k := 0, a := 0, b := 0, ext := none, core := 0, ctx := 0, part := 0 }
  { paged core with
    fabric := f
    engines := [(0, { granted := true, queue := [cmd 1 0x62, { cmd 2 1 with started := true }, cmd 3 6, cmd 4 0x40, { cmd 5 1 with after := some (0, 1, 0) }] }),
      (2, { granted := true, queue := [{ cmd 1 1 with done := some 0 }] }), (3, { granted := true, queue := [{ cmd 1 1 with done := some 7 }] })] }
def standing (s : State) (e num : Nat) : Option (Bool × Bool × Bool × Nat) :=
  (s.command e num).map (fun c => (c.done.isSome, c.started, commandReleased s c, c.opc))
def holdingUp : Core := { runner with flights := [{ slot := 2, due := 9, seq := 0, what := .store 0 [0] }] }
theorem witness_engine_starts : [1, 2, 3, 4, 9].map (standing (engined {} []) 0) =
    [some (false, false, true, 0x62), some (false, true, true, 1), some (false, false, true, 6), some (false, false, true, 0x40), none] := by decide +kernel
theorem witness_engine_waits : standing (engined {} []) 2 1 = some (true, false, true, 1) ∧ standing (engined {} []) 1 1 = none ∧
    standing (engined holdingUp []) 0 5 = some (false, false, false, 1) := by decide +kernel
theorem witness_retirements : (let s := engined {} []
    (s.eng 1).queue = [] ∧ (s.eng 2).queue.map (·.done) = [some 0] ∧ (s.eng 3).queue.map (fun c => (c.done, c.opc, c.node)) = [(some 7, 1, 0)] ∧
    (s.eng 0).queue.head?.map (·.done) = some none) := by decide
theorem witness_windows : (let s := paged { sys := [(0x30, 0x101)] }
    let base := wbits ((s.localCore ((s.sliceOf 0).getD 0) 0).sysReg 0x30) 0 5 * 0x8000
    s.bulkUp 0 = true ∧ ({ s with bulks := [(0, { closed := true })] } : State).bulkUp 0 = false ∧ base = 0x8000 ∧ s.imageOf 0 0 = none ∧ wbit ((s.localCore 0 0).sysReg 0x30) 8 = true ∧ base ≤ 0xFFFF ∧ 0xFFFF + 1 ≤ base + 0x8000 ∧ base + 0x8000 < 0x10000 + 1 ∧
    wbit ((paged {}).me.sysReg 0x30) 8 = false) := by decide
/-- Channel 0: idle with a command that waits; channel 1 busy with no run left and one result; channel 2 wants a third run. -/
def banked : State :=
  { paged {} with
    engines := [(engKey 3 0 0 1, { granted := true, queue := [{ num := 1, opc := 0xA0, k := 0, a := 0, b := 0, ext := none, core := 0, ctx := 0, part := 0, started := true }] })]
    banks := [(1, { busy := true, recPa := 0x100000, out := 0x200000, results := [(0, (some [1], 0))] }), (2, { busy := true, dup := true, results := [(0, (some [1], 0)), (1, (some [2], 0))] }),
      (3, { busy := true, runs := [{}] })] }
theorem witness_bank_units : (banked.bank 0).busy = false ∧ (nextContext banked 0).isSome = true ∧ (nextContext banked 4).isNone = true ∧ (banked.bank 3).runs ≠ [] ∧ (banked.bank 1).busy = true ∧
    (banked.bank 1).runs = [] ∧ wantsThird (banked.bank 1) = false ∧ (match decideBank (banked.bank 1) with | .ok bs => bs == [1] | .error _ => false) = true ∧
    (banked.bank 1).wrote < 1 ∧ banked.bankBusy 1 (bankAt (banked.bank 1).out) = false ∧ banked.affords 0 0 2 = true ∧
    ({ banked with fabric := [{ core := 0, slot := 3, op := .store, size := 8, pa := (banked.bank 1).out, home := 0, part := 0, ctx := 0 }] } : State).bankBusy (channelOf (banked.bank 1).out) (bankAt (banked.bank 1).out) = true ∧
    wantsThird (banked.bank 2) = true ∧ (banked.bank 2).runs = [] ∧ (∀ r ∈ (banked.bank 3).runs, r.waitSince = none) := by decide +kernel

def aReq (id core : Nat) (op : ReqOp) : Req := { id := id, core := core, slot := 3, op := op, size := 8, pa := 0x100000, home := 0, part := 0, ctx := 0, data := List.replicate 8 1, wantReply := true }
def travelling (r : Req) : State := { paged {} with fabric := [r] }
theorem witness_requests : (let r := aReq 1 0 (.amo .add)
    let s := travelling r
    s.findReq 1 = some r ∧ s.findReq 2 = none ∧ r.limited = false ∧ r.held = none ∧ r.answered = none ∧ r.op.isTask = false ∧ s.peerStopped r.pa = false ∧ s.turnOf r = true ∧ r.stamp = 0 ∧
    ReqOp.isTask .spawn = true ∧ taskReleased { travelling (aReq 1 0 .spawn) with cores := [(0, { nextIdx := 1, slots := List.replicate 8 { next := 1 } })] } (aReq 1 0 .spawn) = true ∧ s.bulkUp 0 = true ∧ s.partHas 0 0 = true ∧
    ({ travelling (aReq 2 0 .read) with fabric := [r, aReq 2 0 .read] } : State).turnOf (aReq 2 0 .read) = false) := by decide +kernel
theorem witness_sail_wheel_turns : (let r := { aReq 1 0 (.amo .add) with stamp := 1 }
    let s (n : Nat) : State := { travelling r with time := n }
    r.stamp ≠ 0 ∧ r.stamp - 1 + 512 ≤ (s 512).time ∧ (s 512).turnOf r = true ∧ (s 512).fabric.any (fun q => q.stamp != 0 && q.stamp < r.stamp) = false ∧
    (s 511).time < r.stamp - 1 + 512 ∧ (s 511).reach r ≠ stDown) := by decide +kernel
theorem witness_held : ({ aReq 1 0 (.amo .add) with held := some 3 } : Req).held = some 3 ∧ (6 : Nat) < 3 + 4 ∧ (3 : Nat) + 4 ≤ 7 ∧
    (let r := { aReq 1 0 (.amo .add) with held := none, passed := 1 }
     r.route = [] ∧ (∃ st, ({ r with home := 5 } : Req).route.head? = some st ∧ (travelling r).waitEntries (stageKey st) < 64)) ∧
    ({ aReq 1 0 (.amo .add) with answered := some (1, 0) } : Req).answered = some (1, 0) ∧ (travelling { aReq 1 0 .read with limited := true }).rate 0 0 = 0 ∧
    (travelling { aReq 1 0 .read with limited := true }).fabric.head? = some { aReq 1 0 .read with limited := true } := by decide
theorem witness_homes : (travelling (aReq 1 0 .read)).Inv ∧ (let r := aReq 1 0 .store
    let s := travelling r
    s.reach r = stGood ∧ r.own = false ∧ r.members = [] ∧ r.pa / 256 = (r.pa + r.size - 1) / 256 ∧ regionOf r.pa = .hbm ∧ regionOf (r.pa + r.size - 1) = .hbm ∧
    (s.physRead r.part r.pa r.size).2 = false ∧ r.mask = [] ∧ r.data.length = r.size) := by
  refine ⟨?_, by decide +kernel⟩
  unfold State.Inv; decide +kernel
theorem witness_combines : (let a := { aReq 1 0 (.amo .add) with held := some 0 }
    let b := { aReq 2 1 (.amo .add) with held := some 0 }
    let s : State := { travelling a with fabric := [a, b] }
    s.findReq 1 = some a ∧ s.findReq 2 = some b ∧ meeting a b = some (0, 0, 1) ∧ agree a b = true ∧ 0 ≤ 1 ∧ s.turnOf a = true ∧ s.turnOf b = true ∧
    (a.route.head?.map (fun st => s.waitEntries (stageKey st))) = some 0 ∧ s.findReq 0 = none) := by decide +kernel

def bulked (x : Bulkhead) : State := { paged {} with bulks := [(31, x)] }
theorem witness_sequencer : ((bulked { state := 1, pre := true }).bulk 31).pre = true ∧ ((bulked { state := 1, pre := true }).bulk 31).state = 1 ∧
    (idleMask (bulked {}) 31 = 0xFF ∧ enginesEmpty (bulked {}) 31 = true ∧ inflight (bulked {}) 31 = 0) ∧ enginesEmpty (engined {} []) 0 = false ∧
    inflight (travelling { aReq 1 0 .read with admitted := true }) 0 ≠ 0 ∧ (∀ n ∈ [0, 1, 4, 7, 11], ((bulked { state := n }).bulk 31).state = n) ∧
    (let x := (bulked { state := 2, close := true, busy := true, gate := true, off := true, go := true }).bulk 31
     x.close = true ∧ x.busy = true ∧ x.gate = true ∧ x.off = true ∧ x.go = true ∧ x.state ≠ 5) ∧ (bulked {}).groups = [] ∧ (bulked {}).contribs = [] ∧ (bulked {}).engines = [] ∧
    ((bulked { state := 9, valid := true }).bulk 31).valid = true ∧ ((at_ { halted := true }).core 0).halted = true ∧ ((at_ { halted := true }).bulk (0 / 8)).state = 0 := by decide
/-- Partition 0 is bulkhead 0, which is down; every other bulkhead is reset. -/
def powered : State := { paged {} with bulks := (List.range 32).map (fun b => (b, { state := if b = 0 then 6 else 9 })) }
theorem witness_ptab : (let new (v : Word) := v &&& 0x800000000000071F#64
    let bs (v : Word) := (ptabSet (powered.ptab 0) ++ ptabSet (new v)).eraseDups
    new (powered.ptab 0) = powered.ptab 0 ∧ new 0x8000000000000002 ≠ powered.ptab 0 ∧ ptabLegal powered 0 (new 0x8000000000000002) = true ∧
    (∀ b ∈ bs 0x8000000000000002, (powered.bulk b).state = 6 ∨ (powered.bulk b).state = 9) ∧
    ptabLegal powered 0 (new 0x8000000000000101) = false ∧ ((paged {}).bulk 0).state = 0 ∧ ptabLegal powered 31 (new 0x8000000000000500) = false) := by decide +kernel
theorem witness_contexts : (wbit ((0 : Word) &&& 0x800000000000011F#64) 63 = false ∧ (paged runner).ctxValid 0 = true ∧ contextBusy (paged runner) 0 = true ∧
    contextBusy (paged {}) 0 = false ∧ (paged {}).ctxValid 4095 = false) := by decide +kernel
theorem witness_lifecycle : (let s (r : Word) : State := { State.reset with hub := [(0x1010, r)] }
    wbit ((s 1).hubReg 0x1008) 7 = false ∧ lifecycleStep 1 (wbits ((s 2).hubReg 0x1010) 0 3) = some false ∧ lifecycleStep 2 (wbits ((s 1).hubReg 0x1010) 0 3) = none ∧
    wbit (({ State.reset with hub := [(0x1008, 0x80)] } : State).hubReg 0x1008) 7 = true) := by decide
/-- Functions 0 and 1 are bound to partitions 0 and 1; 0 lends page 0x100 of partition 0 to partition 1, and 1 borrows it. -/
def consenting (st : Nat) : State :=
  { paged {} with
    hub := [(0, 0x8000000000000000), (8, 0x8000000000000001), (0x200000, 0x8000000000000000), (0x200008, 0x2000)]
    vfs := [(0, { bound := true, part := 0, mailbox := [0x0010000000000003, 0x100000, 0x100000] }), (1, { bound := true, part := 1, status := st, mailbox := [0x4000000000000003, 0x100000, 0x100000] })] }
theorem witness_functions : (let s := consenting 1
    (s.vf 0).bound = true ∧ (s.vf 63).bound = false ∧ (s.vf 0).other ≠ (s.vf 0).part ∧ (s.vf 0).perm ≠ 0 ∧ (s.vf 1).bound = true ∧ (s.vf 1).status = 1 ∧ (s.vf 1).owner = (s.vf 0).owner ∧
    (s.vf 1).borrower = (s.vf 0).borrower ∧ (s.vf 1).pages = (s.vf 0).pages ∧ (s.vf 1).borrows ≠ (s.vf 0).borrows ∧ (s.vf 1).perm = (s.vf 0).perm ∧ freeWindow s 0 = some 0 ∧
    s.vfs = [(0, s.vf 0), (1, s.vf 1)] ∧ s.lcState ≠ 0 ∧ ({ s with lcState := 0 } : State).lcState = 0 ∧ 0 < s.partCount 0 ∧ wbit (1 : Word) 0 = true ∧
    (∀ p ∈ [0], ({ bound := true, part := p } : Vf).other = p) ∧ ({ s with vfs := [(0, s.vf 0)] } : State).vfs = [(0, s.vf 0)] ∧
    s.fabric.any (fun r => r.part == 0 && regionOf r.pa == .host && r.answered.isNone) = false ∧
    ([{ aReq 1 0 .read with pa := 0x8000000000000 }] : List Req).any (fun r => r.part == 0 && regionOf r.pa == .host && r.answered.isNone) = true) := by decide +kernel
/-- Port 0 is idle, 1 down, 2 has a flit of lane 3 to send again and has stopped one of lane 1, and 3 holds a request and has sent XOFF. -/
def flitOf (vl seq : Nat) : Flit := { vl := vl, kind := 1, seq := seq, src := 0, dst := 0, part := 0, adr := 0, payload := List.replicate 232 0 }
def incoming (addr n : Nat) : PeerReq := { port := 0, srcModule := 7, part := 0, write := true, atomic := none, addr := addr, data := List.replicate n 5, fill := false, poison := false }
def ported : State :=
  { paged {} with
    time := 100000
    ports := [(1, { up := false }), (2, { lastSend := 99001, lastRecv := 1, replay := [flitOf 3 4], stopped := [flitOf 1 9] }), (3, { recv := [incoming 56 8], full := true })]
    peers := [{ src := 7, part := 0, base := 0, len := 64, lpart := 0, lctx := 0, vbase := 0x100000 }] }
theorem witness_ports : (let s := ported
    (s.port 0).up = true ∧ (s.port 0).lastSend + 1000 ≤ s.time ∧ (s.port 0).lastRecv + 100000 ≤ s.time ∧ (s.port 1).up = false ∧ s.time < (s.port 2).lastSend + 1000 ∧
    s.time < (s.port 2).lastRecv + 100000 ∧ (s.port 0).xoff.contains 3 = false ∧ (s.port 0).xoff.contains 1 = false ∧
    ((s.port 0).replay.filter (fun f => f.vl == 3)).dropWhile (fun f => f.seq != 4) = [] ∧
    ((s.port 2).replay.filter (fun f => f.vl == 3)).dropWhile (fun f => f.seq != 4) ≠ [] ∧ (s.port 2).wire.length + 1 ≤ 512 ∧
    (s.port 2).stopped = [flitOf 1 9] ∧ (flitOf 1 9).vl = 1) := by decide +kernel
theorem witness_peer_requests : (incoming 56 8).seq = mget 0 (ported.port 0).recvSeq 0 ∧ ({ incoming 56 8 with seq := 1 } : PeerReq).seq ≠ mget 0 (ported.port 0).recvSeq 0 ∧
    (ported.port 3).full = true ∧ (ported.port 0).full = false ∧ (ported.port 0).recv = [] := by decide
theorem witness_full_receive_buffer : Config.receiveFlits ≤ max 1 (((incoming 0 (232 * Config.receiveFlits)).data.length + 231) / 232) := by
  simp only [incoming, List.length_replicate]
  omega
/-- Requests in the receive buffer of port 0: one that lies in the window at its end, one that passes it. -/
def windowOf (r : PeerReq) : Option PeerWindow :=
  (ported.peers.take 64).find? (fun w => w.src == r.srcModule && w.part == r.part && w.base ≤ r.addr && r.addr + r.data.length ≤ w.base + w.len)
theorem witness_served_requests : windowOf (incoming 57 8) = none ∧ (windowOf (incoming 56 8)).map (fun y => y.vbase) = some 0x100000 := by decide
def peerReaches : Bool :=
  match ported.walk 0 (0x100000 + 56) with
  | .ok l =>
    let pa := l.pa (0x100000 + 56)
    permRefusal .peer true false false l.hi == none && regionOf pa == .hbm && regionOf (pa + 7) == .hbm && pa / 256 == (pa + 7) / 256
      && ported.sluice (ported.leafHome 0 l.hi pa).1 0 pa 1 == stGood
  | .error _ => false
theorem witness_peer_pages : peerReaches = true ∧ ported.Inv := by
  refine ⟨by decide +kernel, ?_⟩
  unfold State.Inv; decide +kernel
theorem witness_boot : State.reset.bootOk = true ∧ ({ State.reset with bootOk := false } : State).bootOk = false ∧ (bulked {}).bootOk = true ∧
    (powered).bootOk = true ∧ ported.bootOk = true := by decide
theorem witness_closing_consents : (let s : State := { consenting 1 with vfs := [(0, { bound := true, part := 0, mailbox := [0x0010000000000000, 0x100000, 0x100000] })] }
    (s.vf 0).bound = true ∧ (s.vf 0).other ≠ (s.vf 0).part ∧ (s.vf 0).perm = 0 ∧ s.vfs = [(0, s.vf 0)]) := by decide
theorem witness_guard_false : (at_ {}).me.guardHolds 1 = false ∧ (at_ {}).asked = false ∧ (at_ { p := 3 }).me.guardHolds 1 = true := by decide
theorem witness_encodings : (match encode (.popc 1 5 6 false) with | .syllable sp r => sp == .scalar && r.g == 1 | _ => false) = true := by decide
/-- Results for s1, p1 and v1 that are due, and one for s2 that is not. -/
def landing : Core := { flights := [{ slot := 0, due := 0, seq := 0, what := .s 1 7 }, { slot := 0, due := 1, seq := 1, what := .s 2 8 }, { slot := 1, due := 0, seq := 2, what := .p 1 true },
  { slot := 2, due := 0, seq := 3, what := .v 1 9 }] }
theorem witness_results : (∀ f ∈ landing.flights, f.poison = false) ∧ landing.flights.map (fun f => decide (f.due ≤ (landing.slot f.slot).clk)) = [true, false, true, true] ∧
    ({ slot := 0, due := 0, seq := 0, what := .s 1 7 } : Flight) ∈ landing.flights := by decide
theorem witness_stores : ({} : Core).mark.armed = false ∧ ({} : Core).scratch.wf = true ∧ (let k : Core := { mark := { armed := true, seq := 1, commit := 0 } }
    k.mark.armed = true ∧ k.svc = false ∧ k.mark.seq ≤ 1 ∧ k.mark.commit ≤ 1 ∧ k.mark.gated.length < 64) := by decide
theorem witness_memory : State.reset.Inv ∧ (paged {}).Inv ∧ (0x40 ≤ 64 * 1 ∧ 64 * 1 + 64 ≤ 0x40 + 64) ∧ (64 * 1 < 0x41 ∧ 0x41 ≤ 64 * 2) := by
  refine ⟨?_, ?_, by decide⟩ <;> (unfold State.Inv; decide)
/-- So many events wait that the free choice takes one of them, whatever it is. -/
def eventful : State := { State.reset with pending := List.replicate (Config.pick 0 + 1) { event := .railUp, args := { unit := 3 } } }
theorem witness_event : eventful.pending[eventful.chosen]? = some { event := .railUp, args := { unit := 3 } } := by
  have h : eventful.chosen = Config.pick 0 := by
    simp only [State.chosen, eventful, State.reset, List.length_replicate]
    exact Nat.mod_eq_of_lt (by omega)
  rw [h]
  simp [eventful]
/-- A bank unit's turn: its program is one move from port 0 to port 0. -/
def bankTurn : State := { State.reset with agenda := [.bank 0], banks := [(0, { busy := true, prog := [0], runs := [{}] })] }
theorem witness_turns : bankTurn.pending = [] ∧ bankTurn.agenda = [.bank 0] ∧ (bankTurn.bank 0).runs.head? = some {} ∧
    (bankTurn.bank 0).prog[0]? = some 0 ∧ (decodeMove 0 0).isSome = true := by decide +kernel
def steps (s : State) : Bool := match step s with | .next _ => true | _ => false
theorem witness_steps : steps bankTurn = true ∧ steps State.reset = true := by decide +kernel
/-- A core whose slot SA holds add s3, s1, s2 as its next issue. -/
def issuing : State := at_ { nextIdx := 1, nextOrd := 1, issues := [{ idx := 0, ord := 0, adr := 0x1010, fall := 0x1018, syls := [(0, .add 0 3 1 2 false)], sync := 0, first := true, last := true, mark := false, safe := false }], s := [(1, 2), (2, 3)] }
theorem witness_issue : (issuing.me.issueAt 0).isSome = true ∧ (match issuing.me.issueAt 0 with
    | some q => issuing.me.heldBack 0 q == false && q.operation 0 (issuing.me.slot 0) == some (.add 0 3 1 2 false, true)
    | none => false) = true ∧ encode (.add 0 3 1 2 false) ≠ .none := by decide
theorem witness_bundles : (match checkBundle false false false (fun _ => {}) [] seg0 0x1010 { head := 0x01000000, len := 2, syls := [(0, 0x023A6CC6, 0)] } with
    | .ok syls => syls.length == 1 | .error _ => false) = true := by decide +kernel
theorem witness_round_trip : WellFormed (.add 0 3 1 2 false) = true ∧ WellFormed (.railUp) = true := by decide

/-! Worked examples of the spec, one operation each. -/

/-- The results that an operation leaves, with their latencies. -/
def results (i : Instr) (s : State) : List (Nat × Landing) := match exec i s with | .next t => t.me.flights.map (fun f => (f.due, f.what)) | _ => []
def sregs (a b d : Word) : State := at_ { s := [(1, a), (2, b), (3, d)] }
-- R64: shr.w of 0x8000_0000 by 0.
theorem test_shr_w : results (.shr 0 3 1 2 true) (sregs 0x80000000 0 0) = [(1, .s 3 0xFFFFFFFF80000000)] := by decide
-- R66: the two bundles of a 64-bit constant.
theorem test_li_lih : results (.li 0 3 (.ext 0x89ABCDEF)) (sregs 0 0 0) = [(1, .s 3 0xFFFFFFFF89ABCDEF)] ∧
    results (.lih 0 3 1 (.ext 0x01234567)) (sregs 0xFFFFFFFF89ABCDEF 0 0) = [(1, .s 3 0x0123456789ABCDEF)] := by decide
-- R62: mulhz.w returns bits 63:32 of the product 0xFFFFFFFF * 0xFFFFFFFF = 0xFFFFFFFE00000001.
theorem test_mulhz_w : results (.mulhz 0 3 1 2 true) (sregs 0xFFFFFFFF 0xFFFFFFFF 0) = [(3, .s 3 0xFFFFFFFFFFFFFFFE)] := by decide
-- R63: the remainder takes the dividend's sign; a zero divisor.
theorem test_division : results (.rem 0 3 1 2 false) (sregs (-7) 2 0) = [(18, .s 3 (-1))] ∧ results (.div 0 3 1 2 false) (sregs 5 0 0) = [(18, .s 3 (-1))] := by decide
-- R67: bins at position 4, width 8 into all ones.
theorem test_bins : results (.bins 0 3 1 2) (sregs 0x1AB (8 * 256 + 4) (-1)) = [(1, .s 3 0xFFFFFFFFFFFFFABF)] := by decide
-- R85 to R91: E4M3's largest number is 448; MK8 0x34 is 3.0.
theorem test_decode : eqNum (decodeNum .e4m3 0x7E) (intVal 448) = true ∧ eqNum (decodeNum .mk8 0x34) (intVal 3) = true ∧ isNaN (decodeNum .mk8 0x80) = true := by decide
-- R88: the examples of rounding into MK8 (0.3 as the FP32 code 0x3E99999A, 2^-17 as 0x37000000).
theorem test_round_mk8 : [0x40400000, 0x3E99999A, 0x42CA0000, 0x42CC0000, 0x37000000].map (fun c => (roundNum .mk8 .rne 0 (decodeNum .f32 c)).1) =
    [0x34, 0x1D, 0x79, 0x7A, 0x00] := by decide
-- The worked set under R92: 1 + 2^-8 + 2^-10 into BF16 in every mode, and its negative; sto at the two sides of its bounds.
theorem test_round_bf16 : (let x (n : Bool) : FVal := .fin n 1029 (-10)
    [Rnd.rne, .rtz, .rdn, .rup].map (fun m => (roundNum .bf16 m 0 (x false)).1) = [0x3F81, 0x3F80, 0x3F80, 0x3F81] ∧
    [Rnd.rne, .rtz, .rdn, .rup].map (fun m => (roundNum .bf16 m 0 (x true)).1) = [0xBF81, 0xBF80, 0xBF81, 0xBF80] ∧
    [0x9FFFFF, 0xA00000].map (fun r => (roundNum .bf16 .sto r (x false)).1) = [0x3F81, 0x3F80] ∧
    [0x5FFFFF, 0x600000].map (fun r => (roundNum .bf16 .sto r (x true)).1) = [0xBF80, 0xBF81]) := by decide
-- The worked group under R99: 65536 * 256 + 1 * 1 - 65536 * 256 is 1.
theorem test_exact_sum : (groupColumn 0x7F 0x7F ([0x4780, 0x3F80, 0xC780].map (decodeNum .bf16)) ([0x78, 0x38, 0x78].map (decodeNum .e4m3))).1 = 0x3F800000 := by decide
-- The worked block under R115: amax 1000, the exponent 0x81, the bytes 0x34, 0xA0.
theorem test_block : (let q := quantBlock .e4m3 .rne (fun _ => 0) (([0x4040, 0xBF00, 0x447A].map (decodeNum .bf16)) ++ List.replicate 125 (decodeNum .bf16 0))
    q.1 = 0x81 ∧ q.2.1.take 2 = [0x34, 0xA0]) := by decide +kernel
-- The worked lanes under R126.
theorem test_table : (let t : Table := { coeffs := [(4, 0x3F800000), (260, 0x3F000000), (516, 0x3E800000)], lo := 0, q := 14, lmode := .zero, umode := .ident }
    [0x3F900000, 0xBF000000, 0x42800000, 0x7FC00000].map (fun c => (t.lane .bf16 .rne 0 (decodeNum .f32 c)).1) = [0x3FA8, 0x0000, 0x4280, 0x7FC0]) := by decide
-- Chapter 14's encodings worked out.
theorem test_encodings : [(2, 0x04010400), (2, 0x0E007E20), (2, 0x430042C0), (2, 0x45006050), (2, 0x6000BE20), (2, 0x69012604), (2, 0x6C000002), (2, 0x9301429C), (2, 0xA0018834), (2, 0xC0002280), (2, 0xD300E41C)].map
      (fun (e : Nat × Nat) => match decodeSyllable e.1 e.2 0 with | .ok i => (match encode i with | .syllable _ r => r.word == e.2 | _ => false) | .error _ => false) = List.replicate 11 true := by decide +kernel
-- R242: minz of unsigned words, R241: the old value plus the operand wraps at 32 bits.
theorem test_atomics : amoNew .minz 32 0xFFFFFFFF 1 = 1 ∧ amoNew .min 32 0xFFFFFFFF 1 = 0xFFFFFFFF ∧ amoNew .add 32 0xFFFFFFFF 2 = 1 := by decide

/-! Witnesses for the engines, the bank units and the fabric. -/

/-- A copy of 300 bytes on engine context 0 that has started; begun says whether its row has. -/
def copying (dst src : Word) (begun : Option Nat) : State :=
  { paged {} with engines := [(0, { granted := true, queue := [{ num := 1, opc := 1, k := 0, a := dst, b := src, ext := some 300, core := 0, ctx := 0, part := 0, started := true, begun := begun }] })] }
/-- Whether a transfer of the command meets the hypotheses on its pages, its tokens, its source and its destination. -/
def transfers (s : State) : Bool :=
  match s.command 0 1 with
  | some c =>
    (match operand (c.rowOps c.row).1, operand (c.rowOps c.row).2 with
     | some p, some q =>
       let n := min (c.rowBytes - c.off) (256 - (p.2 + c.off) % 256)
       let cost := readBeats q.1 n + writeBeats p.1 n
       let y := readRange (s.pay 0 c cost (writeBeats q.1 n)) c (engReader 0) q c.off n
       (s.pulling c q c.off).isNone && (s.pulling c p c.off).isNone && s.canPay 0 c cost && y.2.all (fun z => z.status == 0)
         && (bytesOf y.2).length == n && (y.1.imageOf c.part c.core).isNone && (y.1.core c.core).scratch.wf
         && (p.1 || (match y.1.translate 0 (p.2 + c.off) (engAgent 0) true with
            | .ok (pa, l) => regionOf pa == .hbm && regionOf (pa + n - 1) == .hbm && pa / 256 == (pa + n - 1) / 256 && y.1.sluice (y.1.leafHome c.part l.hi pa).1 c.part pa 1 == stGood
            | .error _ => false))
     | _, _ => false)
  | none => false
theorem witness_transfers : transfers (copying 0x8000000000001080 0x8000000000000000 (some 0)) = true ∧
    transfers (copying 0x100080 0x8000000000000000 (some 0)) = true ∧ transfers (copying 0x8000000000001000 0x100000 (some 0)) = true := by decide +kernel
def rowBegins (s : State) : Bool :=
  match s.command 0 1 with
  | some c => (s.rowPage 0 c).isNone && (c.entryAt c.row).isNone && (match beginRow s 0 c with | (_, .ok d) => d.begun == some 0 | _ => false)
  | none => false
theorem witness_rows_begin : rowBegins (copying 0x100080 0x8000000000000000 none) = true ∧ (copying 0x100080 0x8000000000000000 (some 0)).Inv := by
  refine ⟨by decide +kernel, ?_⟩
  unfold State.Inv; decide +kernel
theorem witness_operands : operandFits 0x80000000000FFFC0 64 = true ∧ operandFits 0x80000000000FFFC0 65 = false ∧ operandFits 0x1FFFFFFFFFFFFFF 64 = true ∧
    operandFits 0x4000000000000000 0 = false ∧ (paged {}).affords 0 0 1 = true ∧
    ({ paged {} with buckets := [(0, { cfg := some 0x500000001 })] } : State).affords 0 0 1 = false := by decide +kernel
/-- The only member of group 1 gives its share, and the result goes to 0x1000 of its scratchpad. -/
def sharing (gave : Bool) : State :=
  { paged {} with
    engines := [(128, { granted := true, queue := [{ num := 1, opc := 0x41, k := 0, a := 0, b := 0, ext := none, core := 0, ctx := 0, part := 0, words := [0x100000001, 0x8000000000000000, 0x8000000000001000, 256, 7] }] })]
    contribs := if gave then [{ part := 0, group := 1, key := 7, eng := 128, num := 1, opc := 0x41, head := 0x100000001, len := 256, dst := 0x8000000000001000, core := 0, ctx := 0, data := (List.range 4).map (fun i => { off := 64 * i, status := 0, bytes := List.replicate 64 9 }) }] else []
    ev := { unit := 0, idx := 1, value := 7 } }
def shares (s : State) : Bool :=
  match s.command 128 1 with
  | some c =>
    (match operand (c.word 1) with
     | some op =>
       let y := readRange (s.pay 128 c (readBeats op.1 256) (writeBeats op.1 256)) c (.coll, engBulk 128) op 0 256
       (s.pullingRange c (c.word 1) 256).isNone && s.canPay 128 c (readBeats (wbit (c.word 1) 63) 256) && y.2.all (fun z => z.status == 0)
         && y.1.bulkUp (y.1.physBulk c.part (1 % max 1 (y.1.partCount c.part))) && y.1.contribs.isEmpty && wbits (c.word 0) 32 16 == 1 && c.done.isNone && commandReleased s c
     | none => false)
  | none => false
theorem witness_shares : shares (sharing false) = true ∧
    (let s := sharing true
     (s.contribs.filter (fun c => c.same 0 1 7)).map (fun c => (c.num, c.opc, wbits c.head 32 16, wbits c.head 16 16, (bytesOf c.data).length, c.data.all (fun y => y.status == 0))) =
       [(1, 0x41, 1, 0, 256, true)] ∧ operand 0x8000000000001000 = some (true, 0x1000) ∧ (s.command 128 1).isSome = true ∧ s.imageOf 0 0 = none ∧ (s.core 0).scratch.wf = true ∧ wbit (0x8000000000001000 : Word) 63 = true) := by decide +kernel
/-- Channel 0 with a command whose record at 0x100000 asks for a program of one move at 0x101000 and 8 bytes at 0x102000; w7 is its last word. -/
def accepting (w7 : Nat) : State :=
  { paged {} with
    mem := tables.write 0x100000 (natToBytes 8 0x101000 ++ natToBytes 8 (1 + 0x60000) ++ natToBytes 8 0x110000 ++ natToBytes 8 0 ++ natToBytes 8 0 ++ natToBytes 8 0x103000
      ++ natToBytes 8 0x102000 ++ natToBytes 8 w7)
    engines := [(engKey 3 0 0 1, { granted := true, queue := [{ num := 1, opc := 0xA0, k := 0, a := 0x100000, b := 0, ext := none, core := 0, ctx := 0, part := 0, started := true }] })] }
/-- Whether the record is read, and what its check and the test of its homes give. -/
def accepted (s : State) : Option (Option (Nat × Nat) × Bool) :=
  match nextContext s 0 with
  | some (x, c) =>
    let s1 := s.setBank 0 { s.bank 0 with turn := x % 4 }
    (match s1.translate c.ctx c.a.toNat .bank false, s1.vread c.ctx c.a.toNat 64 .bank none (some 0) with
     | .ok _, .ok bs =>
       if !(s.canPay x c (s.acceptBeats c) && (s.pullingRange c c.a 64).isNone && (bankPage s c (wordAt bs)).isNone) then none
       else (match checkBankRecord s1 0 c.ctx c.part false (wordAt bs) with
         | .error y => some (some y, false)
         | .ok u => some (none, homesUp s1 c.part 0x1000007FFF u.out u.olen && u.keys.all (fun y => homesUp s1 c.part 0x1000007FFF y.1 y.2)))
     | _, _ => none)
  | none => none
theorem witness_bank_records : accepted (accepting 8) = some (none, true) ∧ accepted (accepting 0) = some (some (7, 0x87), false) := by decide +kernel
theorem witness_promotions : (let s : State := { paged {} with banks := [(0, { busy := true, runs := [{ waitSince := some 0 }] }), (1, { busy := true, runs := [{}] })], buctl := [(0, 1)], time := 1000 }
    let due (r : MoveRun) : Bool := !r.promoted && (match r.waitSince with | some t => decide (t + wbits (s.buctlReg 0) 0 16 * 1000 ≤ s.time) | none => false)
    (∃ r ∈ (s.bank 0).runs, due r = true) ∧ (∀ r ∈ (s.bank 1).runs, due r = false)) := by decide +kernel
/-- A read, an atomic or a task request that has more to wait for at its home. -/
theorem witness_home_waits : (let r := aReq 1 0 (.amo .add)
    let busy : State := { travelling (aReq 2 0 .read) with fabric := [r, aReq 2 0 .read] }
    busy.turnOf (aReq 2 0 .read) = false ∧ busy.reach (aReq 2 0 .read) = stGood ∧
    (let down : State := { busy with bulks := [(0, { closed := true })] }
     down.turnOf (aReq 2 0 .read) = false ∧ down.reach (aReq 2 0 .read) ≠ stGood) ∧
    (let g : State := { travelling (aReq 2 0 .gleave) with fabric := [{ aReq 1 0 (.gjoin 0 0) with va := 1 }, { aReq 2 0 .gleave with va := 1 }] }
     taskReleased g { aReq 2 0 .gleave with va := 1 } = true ∧ g.groupTurn { aReq 2 0 .gleave with va := 1 } = false) ∧
    (travelling (aReq 1 0 .gleave)).groupTurn (aReq 1 0 .gleave) = true ∧
    ({ travelling (aReq 1 0 .spawn) with bulks := [(0, { closed := true })] } : State).bulkUp 0 = false ∧
    taskReleased { travelling (aReq 1 0 .spawn) with cores := [(0, { nextIdx := 1 })] } { aReq 1 0 .spawn with idx := 1 } = false) := by decide +kernel
theorem witness_link_failures : (let r := aReq 1 8 .read
    r.route.any (fun y => y.1 == 1 && y.2.2 == 12) = true ∧ r.own = false ∧ r.limited = false ∧ r.answered = none ∧ r.parked = false ∧ r.members = [] ∧
    (travelling r).engines = [] ∧ (travelling r).fabric = [r]) := by decide +kernel
theorem witness_scair_holds : (let r := { aReq 1 8 (.amo .add) with pa := 0xC000000000000, held := some 0, passed := (aReq 1 8 (.amo .add)).route.length, via := 1 }
    r.route.head? = some (32, 0, 1) ∧ 20 < 0 + 21 ∧ 0 + 21 ≤ 21) ∧ ({ aReq 1 0 (.amo .add) with answered := some (1, 0), sent := 4 } : Req).sent + 3 ≤ 7 := by decide +kernel

/-! Witnesses for the landings. -/

theorem witness_due_stores : (let k : Core := { flights := [{ slot := 2, due := 0, seq := 0, what := .store 0xFFFF8 [1, 2] }, { slot := 2, due := 1, seq := 1, what := .store 0 [3] }] }
    (∀ f ∈ k.flights, f.poison = false) ∧ k.mark.armed = false ∧ k.scratch.wf = true ∧ k.flights.map (fun f => decide (f.due ≤ (k.slot f.slot).clk)) = [true, false]) := by decide
/-- A flight of each kind, at the ends of the ranges of the system registers. -/
def flightOf (x : Landing) : Flight := { slot := 2, due := 0, seq := 0, what := x }
theorem witness_landings : (∀ n ∈ [0, 1, 6, 8, 9, 0xA, 0x18, 0x1F, 0x20, 0x26, 0x27, 0x32, 0x33, 0x10, 0x40, 0x5F, 0x60, 0x7F],
      (flightOf (.sys n 0xFFFFFFFFFFFFFFFF)).kind = 0 ∧ (flightOf (.sys n 0xFFFFFFFFFFFFFFFF)).what = .sys n 0xFFFFFFFFFFFFFFFF) ∧
    near.me.mark.armed = false ∧ near.me.ctxOf < 4096 ∧ wbit (mget 0 near.invalidations 0) 63 = false ∧
    wbit (mget 0 ({ near with invalidations := [(0, 0x8000000000000000)] } : State).invalidations near.me.ctxOf) 63 = true ∧ wbits (9 : Word) 0 4 ≤ 9 ∧ 9 < wbits (10 : Word) 0 4 := by
  decide
theorem witness_landing_ranges : (let s := paged { h := handles, lastCtx := 0 }
    s.partHas (s.ctxPart s.me.ctxOf) (0 / 8) = true ∧ (s.core 0).handleCtx = s.me.ctxOf ∧ (mget {} (s.core 0).h 1 : Handle).state = 2 ∧
    wbit (0x4000000000000000 : Word) 62 = true ∧
    overlaps (mget {} (s.core 0).h 1 : Handle).pageBase (pageBytes (mget {} (s.core 0).h 1 : Handle).size.toNat) (wbits (0x100 : Word) 0 45 * 4096) (pageBytes (wbits (0x100 : Word) 56 4)) = true) := by
  decide +kernel
theorem witness_buffer_landings : ((buffered.me.cbReg 1).conf = true ∧ (buffered.me.cbReg 1).gen = 2 ∧ 2 % 2 = 0) ∧ (buffered.me.cbReg 1).gen ≠ 4 ∧
    (∀ g ∈ buffered.me.unlanded, ∀ e, g.what ≠ .cbcfg 1 e) ∧ buffered.me.scratch.wf = true := by
  have h : buffered.me.unlanded = [] := by decide
  exact ⟨by decide, by decide, by simp [h], by decide⟩
/-- Handle 0 waits at a page that the core's translations hold, handle 1 at one that they do not; handle 2 waits at one that nothing maps. -/
def translating : State :=
  { walking with cores := [(0, { walking.me with xcache := [(0, 0, 0x1000), (0, 0x9000000000, 0x1000)], h := [(0, { state := 1, vbase := 0x40 }), (1, { state := 1, vbase := 0x8000000000 }), (2, { state := 1, vbase := 0x9000000000 })] })] }
def cachedAt (va : Nat) : Bool := translating.me.xcache.any (fun (z, b, n) => z == translating.ctxAt 0 && decide (b ≤ va) && decide (va < b + n))
theorem witness_translation_landings : cachedAt 0x40 = true ∧ cachedAt 0x8000000000 = false ∧ cachedAt 0x9000000000 = true ∧
    translating.unpulled (translating.ctxAt 0) 0x40 (translating.rootOf 0) = false ∧ translating.unpulled (translating.ctxAt 0) 0x9000000000 (translating.rootOf 0) = false ∧
    (match translating.walk (translating.ctxAt 0) 0x40 (translating.rootOf 0) with | .ok l => l.cache != 2 | .error _ => false) = true ∧
    (match translating.walk (translating.ctxAt 0) 0x9000000000 (translating.rootOf 0) with | .ok _ => false | .error _ => true) = true := by decide +kernel
theorem witness_gated_landings : manager.me.mark.gated = [] ∧ manager.me.mark.armed = false ∧ (2 : SReg) ≠ 0 := by decide

/-! Witnesses for what waits: for a page, for tokens, for a peer, for a window to empty. -/

/-- A core that runs code of a context whose pages a migration has still to pull, 0x1000 among them. -/
def unpulledCode : State := { paged { running := some run0, sys := [(0x31, 0x2000)] } with migrations := [{ ctx := 0, dest := 0, pulled := [] }] }
theorem witness_code_pages : unpulledCode.codePage 0 0x1000 (unpulledCode.rootOf 0) = some 1 ∧ (at_ {}).codePage 0 0x1000 ((at_ {}).rootOf 0) = none := by decide +kernel
theorem witness_dropped_arrivals : (paged {}).coreRunning 0 0x8000 = none ∧ (paged {}).savedAt = [] ∧
    (let s : State := { paged {} with savedAt := [(0, 0x8000, 0)] }
     s.savedAt.any (fun p => p.1 == 0 && p.2.1 == 0x8000) = true) := by decide
theorem witness_pages_from_outside : (let s : State := { paged {} with migrations := [{ ctx := 0, dest := 0, pulled := [], outside := true }] }
    s.migrations.any (fun m => m.ctx == 0 && m.outside) = true ∧ s.ev.data = [] ∧ (paged {}).migrations.any (fun m => m.ctx == 0 && m.outside) = false) := by decide
/-- A bucket of context 0 without a token. -/
def poor : State := { paged {} with buckets := [(0, { cfg := some 0x500000001 })] }
def resuming (a : Word) (k : Nat) : Command := { num := 1, opc := 6, k := k, a := a, b := 0, ext := none, core := 0, ctx := 0, part := 0 }
/-- The restart record at 0 of core 0's scratchpad: none valid, or a cpy of 64 bytes inside the scratchpad. -/
def resumable (valid : Bool) : State :=
  { paged { scratch := Memory.write [] 0 (natToBytes 8 (1 + (if valid then 2 ^ 63 else 0)) ++ natToBytes 8 0x8000000000001000 ++ natToBytes 8 0x8000000000002000 ++ natToBytes 8 64) } with
    engines := [(0, { granted := true, queue := [resuming 0x8000000000000000 0] })] }
def resumedCopy (s : State) : Option (Option Bool) :=
  match (fromRestart s 0 (resuming 0x8000000000000000 0)).2 with
  | .ok (some d) => some (some (copyCheck d.sent == none))
  | .ok none => some none
  | .error _ => none
theorem witness_restarts : resumedCopy (resumable true) = some (some true) ∧ resumedCopy (resumable false) = some none ∧
    (let s := resumable true
     let c := resuming 0x8000000000000000 0
     s.records 0 c = [0x8000000000000000] ∧ s.pullingRange c 0x8000000000000000 64 = none ∧ s.canPay 0 c 0 = true ∧ poor.canPay 0 c 1 = false ∧
     commandReleased s c = true) := by decide +kernel
/-- A cpyr that has its outcome and whose record is at 0 of core 0's scratchpad. -/
def clearing : Command := { resuming 0x8000000000000000 0 with done := some 0, restart := some 0x8000000000000000 }
theorem witness_cleared_record : (clearing.restart.bind operand) = some (true, 0) ∧ 0 + 64 ≤ 0x100000 ∧ (resumable true).imageOf 0 0 = none ∧
    ((resumable true).core 0).scratch.wf = true ∧ clearing.fills = false ∧ clearing.opc < 256 ∧ clearing.k < 8 := by decide +kernel
theorem witness_unacknowledged : (let s : State := (engined {} [{ aReq 1 engineCore .store with cmd := some (2, 1) }])
    s.unacked 2 1 = true ∧ (engined {} []).unacked 2 1 = false ∧ ((engined {} []).eng 2).queue.map (·.restart) = [none]) := by decide
/-- Context 0's bank command with a bucket that holds no token. -/
theorem witness_poor_bank : (let c : Command := { resuming 0x100000 0 with opc := 0xA0 }
    poor.canPay (engKey 3 0 0 1) c (poor.acceptBeats c) = false ∧ wbits c.a 57 7 = 0 ∧ c.a.toNat % 64 = 0 ∧ poor.pullingRange c c.a 64 = none) := by decide +kernel
/-- Function 0 takes its consent back; a request of the borrower is still at its home, or none is. -/
def withdrawing (busy : Bool) : State :=
  { consenting 1 with
    vfs := [(0, { bound := true, part := 0, mailbox := [0x0010000000000000, 0x100000, 0x100000] })]
    fabric := if busy then [{ aReq 1 0 .read with part := 1, admitted := true }] else [] }
theorem witness_withdrawn : (let s := withdrawing true
    let x := s.vf 0
    x.bound = true ∧ x.other ≠ x.part ∧ x.perm = 0 ∧ s.vfs = [(0, x)] ∧
    (∃ r ∈ s.fabric, r.part = x.borrower ∧ s.partHas x.owner r.home = true ∧ r.toHub = false ∧ r.op.isTask = false ∧ x.pages.1 ≤ r.pa / 4096 ∧ r.pa / 4096 ≤ x.pages.2 ∧ r.admitted = true) ∧
    (withdrawing false).fabric = []) := by decide +kernel
/-- A bundle with a group barrier in EN and an operation in LA, at which both wait for each other. -/
def meeting (op : Instr) : Core :=
  { nextIdx := 1, nextOrd := 1, issues := [{ idx := 0, ord := 0, adr := 0x1010, fall := 0x1018, syls := [(2, op), (6, .gbar 0 1 1)], sync := 0x44, first := true, last := true, mark := false, safe := false }] }
/-- R27, R239: the barrier waits for an access of LA in its own bundle, which goes ahead of it, and not for an idle. -/
theorem test_synced_release :
    ((meeting .idle).passed 0 6 = true ∧ (meeting .idle).inStep [0] 2 = true) ∧
    ((meeting (.strel 0 1 1 0 .dev none)).passed 0 6 = false ∧ (meeting (.strel 0 1 1 0 .dev none)).inStep [0] 2 = false) := by decide
end Sys2Proof.Tests
end

section
/-! SUPPORT. Slots SA and SB (spec/04 R61 to R66): the results of the model, which are exact integers written back in the
form's width, as operations of bit vectors. -/

namespace Sys2Proof.Laws
open Sys2Proof.Machine Sys2Proof

/-! An exact result of integers, taken to n bits, for every width n. -/

theorem ofInt_toInt_sub {n : Nat} (x y : BitVec n) : BitVec.ofInt n (x.toInt - y.toInt) = x - y := by
  simp only [Int.sub_eq_add_neg, BitVec.ofInt_add, BitVec.ofInt_neg, BitVec.ofInt_toInt, BitVec.sub_eq_add_neg]

theorem ofInt_toInt_tdiv {n : Nat} (x y : BitVec n) : BitVec.ofInt n (x.toInt.tdiv y.toInt) = x.sdiv y := by
  apply BitVec.eq_of_toInt_eq
  rw [BitVec.toInt_ofInt, BitVec.toInt_sdiv]

theorem ofInt_toInt_tmod {n : Nat} (x y : BitVec n) : BitVec.ofInt n (x.toInt.tmod y.toInt) = x.srem y := by
  rw [← BitVec.toInt_srem, BitVec.ofInt_toInt]

theorem ofInt_neg_one_eq_allOnes (n : Nat) : BitVec.ofInt n (-1) = BitVec.allOnes n := by
  rw [BitVec.ofInt_neg, ← BitVec.neg_one_eq_allOnes, ← BitVec.ofInt_natCast]; rfl

theorem toInt_eq_zero_iff {n : Nat} (x : BitVec n) : x.toInt = 0 ↔ x = 0 := by
  rw [← BitVec.toInt_inj]; simp

theorem toNat_eq_zero_iff {n : Nat} (x : BitVec n) : x.toNat = 0 ↔ x = 0 := by
  rw [← BitVec.toNat_inj]; simp

theorem ofNat_toNat_mul_two_pow {n : Nat} (x : BitVec n) (k : Nat) : BitVec.ofNat n (x.toNat * 2 ^ k) = x <<< k := by
  rw [← Nat.shiftLeft_eq]; rfl

theorem ofNat_toNat_div_two_pow {n : Nat} (x : BitVec n) (k : Nat) : BitVec.ofNat n (x.toNat / 2 ^ k) = x >>> k := by
  apply BitVec.eq_of_toNat_eq
  rw [← Nat.shiftRight_eq_div_pow, ← BitVec.toNat_ushiftRight, BitVec.ofNat_toNat, BitVec.setWidth_eq]

theorem ofInt_toInt_div_two_pow {n : Nat} (x : BitVec n) (k : Nat) : BitVec.ofInt n (x.toInt / 2 ^ k) = x.sshiftRight k := by
  have hpow : ((2 ^ k : Nat) : Int) = 2 ^ k := Int.natCast_pow 2 k
  rw [BitVec.sshiftRight, Int.shiftRight_eq_div_pow, hpow]

theorem ofInt_min_toInt {n : Nat} (x y : BitVec n) : BitVec.ofInt n (min x.toInt y.toInt) = if x.toInt ≤ y.toInt then x else y := by
  rw [Int.min_def, apply_ite (BitVec.ofInt n), BitVec.ofInt_toInt, BitVec.ofInt_toInt]

theorem ofInt_max_toInt {n : Nat} (x y : BitVec n) : BitVec.ofInt n (max x.toInt y.toInt) = if x.toInt ≤ y.toInt then y else x := by
  rw [Int.max_def, apply_ite (BitVec.ofInt n), BitVec.ofInt_toInt, BitVec.ofInt_toInt]

theorem ofNat_min_toNat {n : Nat} (x y : BitVec n) : BitVec.ofNat n (min x.toNat y.toNat) = if x ≤ y then x else y := by
  rw [Nat.min_def, apply_ite (BitVec.ofNat n), BitVec.ofNat_toNat, BitVec.ofNat_toNat, BitVec.setWidth_eq, BitVec.setWidth_eq]; rfl

theorem ofNat_max_toNat {n : Nat} (x y : BitVec n) : BitVec.ofNat n (max x.toNat y.toNat) = if x ≤ y then y else x := by
  rw [Nat.max_def, apply_ite (BitVec.ofNat n), BitVec.ofNat_toNat, BitVec.ofNat_toNat, BitVec.setWidth_eq, BitVec.setWidth_eq]; rfl

/-- The bits that a rotation brings in at the right lie below those it moves up, so their sum is their union. -/
theorem ofNat_rotated {n : Nat} (x : BitVec n) {k : Nat} (hk : k < n) :
    BitVec.ofNat n (x.toNat * 2 ^ k % 2 ^ n + x.toNat / 2 ^ (n - k)) = x.rotateLeft k := by
  have hlow : x.toNat / 2 ^ (n - k) < 2 ^ k := by
    rw [Nat.div_lt_iff_lt_mul (Nat.two_pow_pos _), ← Nat.pow_add, Nat.add_sub_cancel' (Nat.le_of_lt hk)]; exact x.isLt
  have hhigh : x.toNat * 2 ^ k % 2 ^ n = 2 ^ k * (x.toNat % 2 ^ (n - k)) := by
    rw [Nat.mul_comm, ← Nat.mul_mod_mul_left, ← Nat.pow_add, Nat.add_sub_cancel' (Nat.le_of_lt hk)]
  have hsum : x.toNat * 2 ^ k % 2 ^ n + x.toNat / 2 ^ (n - k) = (x.rotateLeft k).toNat := by
    rw [BitVec.toNat_rotateLeft, Nat.mod_eq_of_lt hk, Nat.shiftLeft_eq, Nat.shiftRight_eq_div_pow, hhigh,
      Nat.two_pow_add_eq_or_of_lt hlow]
  rw [hsum, BitVec.ofNat_toNat, BitVec.setWidth_eq]

/-! The operands, the write-back and the width of each form (R61). -/

@[simp] theorem signedOp_full (x : Word) : signedOp false x = x.toInt := rfl
@[simp] theorem signedOp_w (x : Word) : signedOp true x = (low x).toInt := rfl
@[simp] theorem unsignedOp_full (x : Word) : unsignedOp false x = x.toNat := rfl
@[simp] theorem unsignedOp_w (x : Word) : unsignedOp true x = (low x).toNat := rfl
@[simp] theorem writeBack_full (r : Int) : writeBack false r = BitVec.ofInt 64 r := rfl
@[simp] theorem writeBack_w (r : Int) : writeBack true r = sx (BitVec.ofInt 32 r) := rfl
@[simp] theorem formWidth_full : formWidth false = 64 := rfl
@[simp] theorem formWidth_w : formWidth true = 32 := rfl
theorem sx_allOnes : sx (BitVec.allOnes 32) = BitVec.allOnes 64 := by decide

/-- An exact result that is not negative needs no integers: its residue at the width of the form is written back. -/
theorem writeBack_natCast (k : Bool) (r : Nat) :
    writeBack k (r : Int) = if k then sx (BitVec.ofNat 32 r) else BitVec.ofNat 64 r := by
  cases k <;> simp [BitVec.ofInt_natCast]

/-! The results of R62 and R63 in both forms. -/

theorem addVal_eq (k : Bool) (a b : Word) : addVal k a b = if k then sx (low a + low b) else a + b := by
  cases k <;> simp [addVal, BitVec.ofInt_add]

theorem subVal_eq (k : Bool) (a b : Word) : subVal k a b = if k then sx (low a - low b) else a - b := by
  cases k <;> simp [subVal, ofInt_toInt_sub]

theorem mulVal_eq (k : Bool) (a b : Word) : mulVal k a b = if k then sx (low a * low b) else a * b := by
  cases k <;> simp [mulVal, BitVec.ofInt_mul]

theorem mulhiVal_eq (k : Bool) (a b : Word) : mulhiVal k a b =
    if k then sx (BitVec.ofInt 32 ((low a).toInt * (low b).toInt / 2 ^ 32)) else BitVec.ofInt 64 (a.toInt * b.toInt / 2 ^ 64) := by
  cases k <;> simp only [mulhiVal, signedOp_full, signedOp_w, writeBack_full, writeBack_w, formWidth_full, formWidth_w,
    Bool.false_eq_true, if_true, if_false]

theorem mulhzVal_eq (k : Bool) (a b : Word) : mulhzVal k a b =
    if k then sx (BitVec.ofNat 32 ((low a).toNat * (low b).toNat / 2 ^ 32)) else BitVec.ofNat 64 (a.toNat * b.toNat / 2 ^ 64) := by
  cases k <;> simp only [mulhzVal, unsignedOp_full, unsignedOp_w, writeBack_natCast, formWidth_full, formWidth_w,
    Bool.false_eq_true, if_true, if_false]

/-- A zero divisor gives all ones in both forms (R63). -/
theorem divVal_eq (k : Bool) (a b : Word) : divVal k a b =
    if k then (if low b = 0 then BitVec.allOnes 64 else sx ((low a).sdiv (low b)))
    else if b = 0 then BitVec.allOnes 64 else a.sdiv b := by
  cases k <;> simp only [divVal, signedOp_full, signedOp_w, writeBack_full, writeBack_w, toInt_eq_zero_iff, ofInt_toInt_tdiv,
    ofInt_neg_one_eq_allOnes, sx_allOnes, if_true, Bool.false_eq_true, if_false]

theorem divzVal_eq (k : Bool) (a b : Word) : divzVal k a b =
    if k then (if low b = 0 then BitVec.allOnes 64 else sx (low a / low b))
    else if b = 0 then BitVec.allOnes 64 else a / b := by
  cases k <;> simp only [divzVal, unsignedOp_full, unsignedOp_w, writeBack_full, writeBack_w, toNat_eq_zero_iff, BitVec.udiv_def,
    BitVec.ofInt_natCast, ofInt_neg_one_eq_allOnes, sx_allOnes, if_true, Bool.false_eq_true, if_false]

/-- A zero divisor gives the dividend (R63). -/
theorem remVal_eq (k : Bool) (a b : Word) : remVal k a b =
    if k then sx (if low b = 0 then low a else (low a).srem (low b)) else if b = 0 then a else a.srem b := by
  cases k <;> simp only [remVal, signedOp_full, signedOp_w, writeBack_full, writeBack_w, toInt_eq_zero_iff, ofInt_toInt_tmod,
    BitVec.ofInt_toInt, apply_ite sx, if_true, Bool.false_eq_true, if_false]

theorem remzVal_eq (k : Bool) (a b : Word) : remzVal k a b =
    if k then sx (if low b = 0 then low a else low a % low b) else if b = 0 then a else a % b := by
  cases k <;> simp only [remzVal, unsignedOp_full, unsignedOp_w, writeBack_natCast, toNat_eq_zero_iff, BitVec.umod_def,
    BitVec.ofNat_toNat, BitVec.setWidth_eq, apply_ite sx, if_true, Bool.false_eq_true, if_false]

theorem minVal_eq (k : Bool) (a b : Word) : minVal k a b =
    if k then sx (if (low a).toInt ≤ (low b).toInt then low a else low b) else if a.toInt ≤ b.toInt then a else b := by
  cases k <;> simp [minVal, ofInt_min_toInt]

theorem maxVal_eq (k : Bool) (a b : Word) : maxVal k a b =
    if k then sx (if (low a).toInt ≤ (low b).toInt then low b else low a) else if a.toInt ≤ b.toInt then b else a := by
  cases k <;> simp [maxVal, ofInt_max_toInt]

theorem minzVal_eq (k : Bool) (a b : Word) : minzVal k a b =
    if k then sx (if low a ≤ low b then low a else low b) else if a ≤ b then a else b := by
  rw [minzVal, writeBack_natCast]
  cases k <;> simp [ofNat_min_toNat]

theorem maxzVal_eq (k : Bool) (a b : Word) : maxzVal k a b =
    if k then sx (if low a ≤ low b then low b else low a) else if a ≤ b then b else a := by
  rw [maxzVal, writeBack_natCast]
  cases k <;> simp [ofNat_max_toNat]

/-! The results of R64 to R66. -/

theorem shlVal_eq (k : Bool) (a : Word) (n : Nat) : shlVal k a n = if k then sx (low a <<< n) else a <<< n := by
  cases k <;> simp only [shlVal, unsignedOp_full, unsignedOp_w, writeBack_natCast, ofNat_toNat_mul_two_pow,
    Bool.false_eq_true, if_true, if_false]

theorem shrVal_eq (k : Bool) (a : Word) (n : Nat) : shrVal k a n = if k then sx (low a >>> n) else a >>> n := by
  cases k <;> simp only [shrVal, unsignedOp_full, unsignedOp_w, writeBack_natCast, ofNat_toNat_div_two_pow,
    Bool.false_eq_true, if_true, if_false]

theorem sraVal_eq (k : Bool) (a : Word) (n : Nat) :
    sraVal k a n = if k then sx ((low a).sshiftRight n) else a.sshiftRight n := by
  cases k <;> simp [sraVal, ofInt_toInt_div_two_pow]

theorem rolVal_eq (k : Bool) (a : Word) {n : Nat} (hn : n < formWidth k) :
    rolVal k a n = if k then sx ((low a).rotateLeft n) else a.rotateLeft n := by
  cases k
  · exact (writeBack_natCast false _).trans (ofNat_rotated a hn)
  · exact (writeBack_natCast true _).trans (congrArg sx (ofNat_rotated (low a) hn))

theorem shiftAmount_lt (k : Bool) (b : Word) : shiftAmount k b < formWidth k :=
  Nat.mod_lt _ (by cases k <;> decide)

/-- The immediate's low word above the source's low word (R66). -/
theorem lihVal_eq (a m : Word) : lihVal a m = low m ++ low a := by
  have ha : a.toNat % 2 ^ 32 < 2 ^ 32 := Nat.mod_lt _ (by decide)
  apply BitVec.eq_of_toNat_eq
  rw [lihVal, BitVec.toNat_append, low, low, BitVec.toNat_setWidth, BitVec.toNat_setWidth, ← Nat.shiftLeft_add_eq_or_of_lt ha,
    Nat.shiftLeft_eq, BitVec.toNat_ofNat]
  simp only [wbits, bits, Nat.pow_zero, Nat.div_one]
  omega

/-- Sign extension keeps a value or makes it larger, so an immediate that is small once extended is small itself. -/
theorem toNat_le_toNat_signExtend {n m : Nat} (x : BitVec n) (h : n ≤ m) : x.toNat ≤ (x.signExtend m).toNat := by
  rw [BitVec.toNat_signExtend, BitVec.toNat_setWidth_of_le h]
  exact Nat.le_add_right _ _

/-- An immediate that is in range names a shift amount of 0 to 63 (R65). -/
theorem shiftImm_lt {m : Imm} (h : m.value.toNat < 64) : shiftImm m < 64 := by
  cases m with
  | short i => exact Nat.lt_of_le_of_lt (toNat_le_toNat_signExtend i (by decide)) h
  | ext w => exact Nat.lt_of_le_of_lt (toNat_le_toNat_signExtend w (by decide)) h

/-! The issue of an operation with one scalar result. -/

/-- A live operation with one scalar result has it in flight (R16); x is its value as the statements write it. -/
theorem next_result {s : State} {g : Guard} {w lat : Nat} {d : SReg} {v : State → Word} {x : Word} (h : s.live g)
    (hv : v (s.weighs w) = x) :
    (Host.Outcome.next (issue g w s (fun t => t.result lat d (v t))) : Outcome) = .next (s.yields w [(lat, .s d x)]) := by
  rw [issue_live w _ h, ← hv]; rfl

/-! The statements. Each part cites the lemma about the value of its operation; the bitwise operations, the moves and sysr
have their value in the model as the statement writes it. -/

/-- Settles O1, by the value of each operation in its two forms. -/
theorem arithmetic : Obligations.Arithmetic := by
  unfold Obligations.Arithmetic
  refine ⟨fun s g d a b h => ?_, fun s g d a b h => ?_, fun s g d a b h => ?_⟩
  · exact ⟨next_result h (addVal_eq false _ _), next_result h (addVal_eq true _ _),
      next_result h (subVal_eq false _ _), next_result h (subVal_eq true _ _),
      next_result h (mulVal_eq false _ _), next_result h (mulVal_eq true _ _)⟩
  · exact ⟨next_result h (mulhiVal_eq false _ _), next_result h (mulhiVal_eq true _ _),
      next_result h (mulhzVal_eq false _ _), next_result h (mulhzVal_eq true _ _),
      next_result h (divVal_eq false _ _), next_result h (divVal_eq true _ _),
      next_result h (divzVal_eq false _ _), next_result h (divzVal_eq true _ _),
      next_result h (remVal_eq false _ _), next_result h (remVal_eq true _ _),
      next_result h (remzVal_eq false _ _), next_result h (remzVal_eq true _ _)⟩
  · exact ⟨next_result h rfl, next_result h rfl, next_result h rfl, next_result h rfl,
      next_result h (minVal_eq false _ _), next_result h (minVal_eq true _ _),
      next_result h (maxVal_eq false _ _), next_result h (maxVal_eq true _ _),
      next_result h (minzVal_eq false _ _), next_result h (minzVal_eq true _ _),
      next_result h (maxzVal_eq false _ _), next_result h (maxzVal_eq true _ _)⟩

/-- Settles O2, by the value of each operation in its two forms; a well-formed immediate bounds its own shift amount. -/
theorem shiftsImmediatesAndMoves : Obligations.ShiftsImmediatesAndMoves := by
  unfold Obligations.ShiftsImmediatesAndMoves
  refine ⟨fun s g d a b h => ?_, fun s g d a m h => ?_, fun s g r n h => ?_⟩
  · refine ⟨next_result h (shlVal_eq false _ _), next_result h (shlVal_eq true _ _),
      next_result h (shrVal_eq false _ _), next_result h (shrVal_eq true _ _),
      next_result h (sraVal_eq false _ _), next_result h (sraVal_eq true _ _),
      next_result h (rolVal_eq false _ (shiftAmount_lt _ _)), next_result h (rolVal_eq true _ (shiftAmount_lt _ _)),
      fun m hw => ?_, fun i hw => ?_⟩
    · have hk : shiftImm m < 64 := shiftImm_lt (by simpa using wf_limit hw _ (List.mem_singleton_self _))
      exact ⟨hk, next_result h (shlVal_eq false _ _), next_result h (shrVal_eq false _ _), next_result h (sraVal_eq false _ _)⟩
    · have hi : i.toNat < 32 := by simpa using wf_limit hw _ (List.mem_singleton_self _)
      exact ⟨hi, next_result h (shlVal_eq true _ _), next_result h (shrVal_eq true _ _), next_result h (sraVal_eq true _ _)⟩
  · exact ⟨next_result h (addVal_eq false _ _), next_result h (addVal_eq true _ _), next_result h rfl, next_result h rfl,
      next_result h rfl, next_result h rfl, next_result h rfl, next_result h (lihVal_eq _ _)⟩
  · exact ⟨next_result h rfl, congrArg Host.Outcome.next (issue_live 1 _ h), congrArg Host.Outcome.next (issue_live 1 _ h)⟩

end Sys2Proof.Laws
end
